-- ==== Sys2Proof/Word.lean ====
section
/-!
DEFINITION. The data sizes of R4 and the row of a tile register (R103).
-/

namespace Sys2Proof

/-- 8 bits (R4). -/
abbrev Byte := BitVec 8

/-- 32 bits: an instruction word (R4). -/
abbrev Word := BitVec 32

/-- 64 bits: a scalar, a control register (R4). -/
abbrev DWord := BitVec 64

/-- A row of a tile register or a queue entry: 512 bytes, byte 0 in the low bits (R103, R106). -/
abbrev Row := BitVec 4096

end Sys2Proof
end

