-- ==== Sys2Proof/Syntax.lean ====
section
/-!
DEFINITION. The instruction set as data: one constructor per row of the opcode table, and the small types its operands need.
-/

namespace Sys2Proof

/-- The four issue-slot clusters of a core (R55), in the numbering of R399. -/
inductive Cluster where
  | A | V | M | C
deriving DecidableEq, Repr, Inhabited

/-- The two systolic arrays of a core (R16): the low bit of a matrix step's opcode. -/
inductive ArrayId where
  | X | Y
deriving DecidableEq, Repr

/-- The atomic operations of R184. -/
inductive AtomOp where
  | add | fadd | and | or | xor | min | minu | max | maxu | xchg | cas
deriving DecidableEq, Repr

/-- What waits at a non-present residency unit (R157, R211, R236). -/
inductive WaitId where
  | command (cmd : BitVec 16)
  | access (id : Nat)
  | drain (y : ArrayId)
deriving DecidableEq, Repr

/-- Who made a barrier arrival (R379): a cluster whose arrival message is that access, another node, or a Sage core. -/
inductive ArrivalSrc where
  | local (core : Nat) (id : Nat)
  | remote (node : BitVec 11)
  | sage (g : Nat)
deriving DecidableEq, Repr

/-- A fabric packet: the tensor header of R266, the port it arrived on or leaves by, its delivery context and sequence number, its entropy (R264) and
payload; the intermediate node that its path goes by, 0x7FF where there is none (R272); and whether it carries a congestion mark (R264). -/
structure Packet where
  port : Nat
  pdc : Nat
  psn : BitVec 32
  ent : BitVec 16
  via : BitVec 11
  srcn : BitVec 11
  aux : BitVec 32
  rank : BitVec 8
  nc : BitVec 8
  nelem : BitVec 16
  uoff : BitVec 32
  coord : BitVec 128
  handle : BitVec 32
  job : BitVec 24
  acq : Bool
  rel : Bool
  opc : BitVec 4
  payload : List (BitVec 8)
  ecn : Bool
deriving DecidableEq, Repr

/-- What the receiver of a packet answers (R256, R266, R267, R270): done; not ready; a changed generation; a failure of its translation, with
cause and reason, and the handle concerned; a position out of shape; a destination that is not FP32; no usable arrival map; no entry in the
job table; trimmed on its way; or nothing at all within 4 ms (R265). -/
inductive Answer where
  | done
  | notReady
  | stale
  | fault (cause reason : Nat) (handle : BitVec 32)
  | oshape
  | dstfmt
  | amap
  | noJob
  | nack
  | timeout
deriving DecidableEq, Repr

/-- A packet in transit (R274): where it goes, the fabric hops it has taken, the intermediate node that its path still goes by (0x7FF: none), and the
packet. -/
structure Transit where
  dest : BitVec 11
  age : BitVec 5
  via : BitVec 11
  packet : Packet
deriving DecidableEq, Repr

/-- The IEEE 1588 messages of R81. -/
inductive SyncMsg where
  | sync | followUp | delayReq | delayResp | announce
deriving DecidableEq, Repr

/-- A Huazu message (R333). -/
structure Huazu where
  op : BitVec 4
  seq : BitVec 16
  orig : BitVec 11
  node : BitVec 11
  core : BitVec 6
  space : BitVec 8
  status : BitVec 8
  offset : BitVec 32
  len : BitVec 32
  data : List (BitVec 8)
deriving DecidableEq, Repr

/-- The control registers outside the CSR numbers whose plain writes R5 governs: the debug registers of a core (R330, R335, R336), the
watchpoints (R340), a slice's FRB (R295), TINV (R165) and HBIAS (R197), a slot's SLOTCTL (R68) and DEVCMD (R322); and what the service kernel sets
of its own, for which the table has no row (log 64): a context descriptor (R317) and a partition descriptor (R316; FSDL apart), a die's version limit and
its shadow slots, a slice's metadata ways and failed ways (R19, R31, R173), which slot a record is installed as the doorbell of (R69), a
routing entry (R272), and a journal entry that a migration carries to an instance (R321). -/
inductive CtlReg where
  | dxw (core : Nat)
  | dctl (core : Nat)
  | dbuf (core : Nat)
  | dwp (k : Nat)
  | frb (slice : Nat)
  | tinv (slice : Nat)
  | hbias (slice : Nat)
  | slotctl (slot : Nat)
  | devcmd
  | context (ctx : Nat)
  | partition (part : Nat)
  | partitionFsdl (part : Nat)
  | versionLimit (die : Nat)
  | shadowSlot (die slot : Nat)
  | metaWays (slice : Nat)
  | failedWays (slice : Nat)
  | doorbell (ctx : BitVec 16) (index : BitVec 20)
  | route (g node : Nat)
  | journal (slice : Nat)
deriving DecidableEq, Repr

/-- A request of the host (R314, R315): by CXL.mem a read of so many bytes, or a write of bytes; by CXL.io the read of a control register in BAR0. -/
inductive HostReq where
  | read (len : Nat)
  | write (data : List (BitVec 8))
  | control (r : CtlReg)
deriving DecidableEq, Repr

/-- What of a core an uncorrectable error meets (R239, R288, R425, R428): its task; the operands of the MMUL in an array's pending slot; the row of A that an
array fetches; the row that an array drains. -/
inductive ErrorSite where
  | task
  | operands (y : ArrayId)
  | row (y : ArrayId)
  | drain (y : ArrayId)
deriving DecidableEq, Repr

/-- An uncorrectable error (R29, R326): the unit code of the storage or hop, 0 for a part of the core that has no code; what it meets; and, of HBM, the
device address. -/
structure StorageError where
  unit : BitVec 8
  site : ErrorSite
  addr : BitVec 43
deriving DecidableEq, Repr

/-- The rows of the opcode table without an encoding, but for the two that stand for words that are no instruction (ILLEGAL_RSVD and
NOT_A_G_INSTRUCTION happen only when such a word is executed): the constructors and operands are those of `Instr` (a type of its own, so that a
mover that is an event names no word). -/
inductive Event where
  | notifyWrite (offset : Nat) (v : BitVec 64)   -- R69
  | mapQueue (slot : Nat) (v : BitVec 64)   -- R68
  | unmapQueue (slot : Nat)   -- R70
  | unmapComplete (slot : Nat)   -- R70
  | launchAccept (slot : Nat)   -- R85
  | launchExpansion (launch : Nat)   -- R71
  | taskPop (die : Nat)   -- R74
  | gangReservation (die : Nat)   -- R78
  | gangStart (gang : Nat)   -- R43
  | ageingInterval (slot : Nat)   -- R72
  | firstFetch (core : Nat)   -- R34
  | launchComplete (launch : Nat)   -- R87
  | completionRecordTimeout (launch : Nat)   -- R87
  | throttleUpdate (quad : Nat) (deflected : Bool) (aged : Bool)   -- R260
  | synctoExpiry (core : Nat)   -- R61
  | femodeLimitExpiry (core : Nat) (c : Cluster)   -- R94
  | producerResultWritten (core : Nat) (d : BitVec 5)   -- R92
  | vectorRowStep (core : Nat)   -- R105
  | mmulArrayIssue (core : Nat) (y : ArrayId)   -- R232
  | mmulRowEntry (core : Nat) (y : ArrayId)   -- R232
  | drainRow (core : Nat) (y : ArrayId)   -- R236
  | accessAtHome (core : Nat) (id : Nat)   -- R495
  | engineRaceTrap (core : Nat)   -- R220
  | eraChange   -- R205
  | metadataWaitTimeout (core : Nat) (id : Nat)   -- R211
  | versionCommitComplete (core : Nat)   -- R187
  | engineChunkWrite (core : Nat) (cmd : BitVec 16)   -- R249
  | engineCompletion (core : Nat) (cmd : BitVec 16)   -- R192
  | residencyWaitTimeout (core : Nat) (cmd : BitVec 16)   -- R256
  | residencyWaitResume (core : Nat) (w : WaitId)   -- R157
  | place (p : Packet) (shd : Bool)   -- R267
  | redu (p : Packet) (shd : Bool)   -- R268
  | redo (p : Packet) (shd : Bool)   -- R269
  | loadRequest (p : Packet) (len : Nat)   -- R270
  | loadData (core : Nat) (id : Nat) (data : List (BitVec 8))   -- R261
  | store (p : Packet)   -- R270
  | atomic (p : Packet) (op : AtomOp) (wide : Bool) (v : BitVec 64) (cmp : BitVec 64)   -- R270
  | atomicReply (core : Nat) (id : Nat) (old : BitVec 64)   -- R270
  | rarrive (p : Packet)   -- R382
  | debugForwarding (p : Packet)   -- R277
  | barrierArrival (core : Nat) (bar : BitVec 4) (round : BitVec 32) (launch : Option (BitVec 32)) (src : ArrivalSrc)   -- R379
  | acknowledgement (pdc : Nat) (psn : BitVec 32) (gap : List (BitVec 32)) (ecn : Bool) (delay : BitVec 32)   -- R265
  | trimmedPacket (port : Nat) (pdc : Nat) (node : BitVec 11) (psn : BitVec 32)   -- R264
  | nack (pdc : Nat) (psn : BitVec 32)   -- R265
  | retransmissionTimeout (pdc : Nat) (psn : BitVec 32)   -- R265
  | packetFail (pdc : Nat) (psn : BitVec 32) (why : Answer)   -- R265
  | notReadyReply (pdc : Nat) (psn : BitVec 32)   -- R256
  | notReadyRetransmit (pdc : Nat) (psn : BitVec 32)   -- R256
  | staleReply (pdc : Nat) (psn : BitVec 32)   -- R267
  | transitPacket (port : Nat) (t : Transit)   -- R274
  | laneFailure (port : Nat) (lane : BitVec 2)   -- R263
  | portDown (port : Nat) (info : BitVec 2)   -- R277
  | portRetrainComplete (port : Nat) (ok : Bool)   -- R406
  | flitDelivery (core : Nat) (msg : Nat) (flit : BitVec 3) (data : BitVec 512)   -- R261
  | dieBridgeFailure   -- R313
  | uncorrectableError (core : Nat) (e : StorageError)   -- R312
  | fenceCore (core : Nat)   -- R29
  | timeSyncMessage (msg : SyncMsg) (ppm : Int)   -- R81
  | sageWatchdog (g : Nat)   -- R280
  | stopRecordWrite (core : Nat)   -- R294
  | serviceResume (core : Nat)   -- R292
  | convertToTrap (core : Nat)   -- R292
  | preemptionRequest (core : Nat) (d : BitVec 16)   -- R297
  | forcedSaveDeadline (core : Nat)   -- R297
  | drainLimitExpiry (core : Nat)   -- R302
  | saveImageWrite (core : Nat) (buf : BitVec 43)   -- R301
  | svcReply (core : Nat) (answer : BitVec 64)   -- R319
  | hostCxlMemAccess (addr : BitVec 43) (req : HostReq)   -- R315
  | flipToHostBias (slice : Nat) (frame : BitVec 27)   -- R197
  | flipToDeviceBias (slice : Nat) (frame : BitVec 27)   -- R197
  | readBias (slice : Nat) (frame : BitVec 27)   -- R197
  | biasFlipComplete (slice : Nat)   -- R197
  | tinvRecord (slice : Nat) (ctx : BitVec 16) (index : BitVec 20)   -- R165
  | tinvRuEntry (slice : Nat) (ctx : BitVec 16) (index : BitVec 20) (ru : BitVec 24)   -- R165
  | tinvContext (slice : Nat) (ctx : BitVec 16)   -- R165
  | tinvDevice (slice : Nat)   -- R165
  | invalidationComplete (slice : Nat)   -- R165
  | devsum (addr : BitVec 37)   -- R323
  | devsumComplete   -- R323
  | boot (die : Nat)   -- R324
  | getMeasurements (request : List (BitVec 8))   -- R325
  | challenge (request : List (BitVec 8))   -- R325
  | executeWord (core : Nat) (c : Cluster) (w : BitVec 32)   -- R330
  | debugHalt (core : Nat)   -- R331
  | haltBoundaryTimeout (core : Nat) (c : Cluster)   -- R331
  | huazuHalt (h : Huazu)   -- R333
  | huazuResume (h : Huazu)   -- R333
  | huazuRead (h : Huazu)   -- R333
  | huazuWrite (h : Huazu)   -- R333
  | huazuDevsum (h : Huazu)   -- R333
  | huazuReply (h : Huazu)   -- R334
  | huazuResend (seq : BitVec 16)   -- R334
  | sample (core : Nat)   -- R335
  | controlRegisterWrite (r : CtlReg) (v : BitVec 256)   -- R5
  | waitctTimeout (core : Nat)   -- R475
  | clockThrottle (mhz : Nat)   -- R28
  | frameLockInstall (slice : Nat) (old : BitVec 27) (new : BitVec 27) (frames : Nat)   -- R168
  | frameLockRelease (slice : Nat) (old : BitVec 27)   -- R168
  | redirectionRemove (slice : Nat) (old : BitVec 27)   -- R168
  | drainResidTrap (core : Nat) (y : ArrayId)   -- R236
  | debugViewAccess (core : Nat) (offset : Nat) (write : Option (List (BitVec 8))) (len : Nat)   -- R332
  | waitdTargetReached (core : Nat) (c : Cluster)   -- R476
  | engineWatchStop (core : Nat)   -- R341
deriving DecidableEq, Repr

/-- Every row of the opcode table: the words of the core clusters (R359), the words of the Sage cores (R366), and the events
that have no encoding (the hardware's own steps, the service kernel's commands, what arrives from outside). A one-bit field of a word
is a Bool, a wider one the bit vector of its width; the S bit of a core word (R352) is no operand: `Decoded` carries it. -/
inductive Instr where
  | illegal (c : BitVec 23)   -- R361
  | nop   -- R438
  | add (d : BitVec 5) (a : BitVec 5) (b : BitVec 5) (m : Bool) (n : Bool) (w : Bool)   -- R375
  | sub (d : BitVec 5) (a : BitVec 5) (b : BitVec 5) (m : Bool) (n : Bool) (w : Bool)   -- R461
  | mul (d : BitVec 5) (a : BitVec 5) (b : BitVec 5) (m : Bool) (n : Bool) (w : Bool)   -- R435
  | mulh (d : BitVec 5) (a : BitVec 5) (b : BitVec 5) (m : Bool) (n : Bool) (w : Bool)   -- R435
  | mulhu (d : BitVec 5) (a : BitVec 5) (b : BitVec 5) (m : Bool) (n : Bool) (w : Bool)   -- R435
  | div (d : BitVec 5) (a : BitVec 5) (b : BitVec 5) (m : Bool) (n : Bool) (w : Bool)   -- R395
  | divu (d : BitVec 5) (a : BitVec 5) (b : BitVec 5) (m : Bool) (n : Bool) (w : Bool)   -- R395
  | rem (d : BitVec 5) (a : BitVec 5) (b : BitVec 5) (m : Bool) (n : Bool) (w : Bool)   -- R395
  | remu (d : BitVec 5) (a : BitVec 5) (b : BitVec 5) (m : Bool) (n : Bool) (w : Bool)   -- R395
  | and (d : BitVec 5) (a : BitVec 5) (b : BitVec 5) (m : Bool) (n : Bool)   -- R376
  | andn (d : BitVec 5) (a : BitVec 5) (b : BitVec 5) (m : Bool) (n : Bool)   -- R376
  | or (d : BitVec 5) (a : BitVec 5) (b : BitVec 5) (m : Bool) (n : Bool)   -- R439
  | xor (d : BitVec 5) (a : BitVec 5) (b : BitVec 5) (m : Bool) (n : Bool)   -- R478
  | sll (d : BitVec 5) (a : BitVec 5) (b : BitVec 5) (m : Bool) (n : Bool) (w : Bool)   -- R456
  | srl (d : BitVec 5) (a : BitVec 5) (b : BitVec 5) (m : Bool) (n : Bool) (w : Bool)   -- R456
  | sra (d : BitVec 5) (a : BitVec 5) (b : BitVec 5) (m : Bool) (n : Bool) (w : Bool)   -- R456
  | min (d : BitVec 5) (a : BitVec 5) (b : BitVec 5) (m : Bool) (n : Bool) (w : Bool)   -- R422
  | max (d : BitVec 5) (a : BitVec 5) (b : BitVec 5) (m : Bool) (n : Bool) (w : Bool)   -- R422
  | minu (d : BitVec 5) (a : BitVec 5) (b : BitVec 5) (m : Bool) (n : Bool) (w : Bool)   -- R422
  | maxu (d : BitVec 5) (a : BitVec 5) (b : BitVec 5) (m : Bool) (n : Bool) (w : Bool)   -- R422
  | mov (d : BitVec 5) (a : BitVec 5) (m : Bool)   -- R429
  | sel (d : BitVec 5) (a : BitVec 5) (b : BitVec 5) (m : Bool) (n : Bool) (g : Bool) (p : BitVec 3)   -- R451
  | cmp (p : BitVec 3) (a : BitVec 5) (b : BitVec 5) (m : Bool) (n : Bool) (w : Bool) (c : BitVec 4)   -- R386
  | pset (d : BitVec 3) (a : BitVec 3) (b : BitVec 3) (o : BitVec 3)   -- R441
  | addi (d : BitVec 5) (a : BitVec 5) (i : BitVec 13)   -- R375
  | muli (d : BitVec 5) (a : BitVec 5) (i : BitVec 13)   -- R435
  | andi (d : BitVec 5) (a : BitVec 5) (i : BitVec 13)   -- R376
  | ori (d : BitVec 5) (a : BitVec 5) (i : BitVec 13)   -- R439
  | xori (d : BitVec 5) (a : BitVec 5) (i : BitVec 13)   -- R478
  | slli (d : BitVec 5) (a : BitVec 5) (i : BitVec 6)   -- R456
  | srli (d : BitVec 5) (a : BitVec 5) (i : BitVec 6)   -- R456
  | srai (d : BitVec 5) (a : BitVec 5) (i : BitVec 6)   -- R456
  | mini (d : BitVec 5) (a : BitVec 5) (i : BitVec 13)   -- R422
  | maxi (d : BitVec 5) (a : BitVec 5) (i : BitVec 13)   -- R422
  | minui (d : BitVec 5) (a : BitVec 5) (i : BitVec 13)   -- R422
  | maxui (d : BitVec 5) (a : BitVec 5) (i : BitVec 13)   -- R422
  | cmpiEq (p : BitVec 3) (a : BitVec 5) (i : BitVec 13)   -- R386
  | cmpiNe (p : BitVec 3) (a : BitVec 5) (i : BitVec 13)   -- R386
  | cmpiLt (p : BitVec 3) (a : BitVec 5) (i : BitVec 13)   -- R386
  | cmpiGe (p : BitVec 3) (a : BitVec 5) (i : BitVec 13)   -- R386
  | cmpiLe (p : BitVec 3) (a : BitVec 5) (i : BitVec 13)   -- R386
  | cmpiGt (p : BitVec 3) (a : BitVec 5) (i : BitVec 13)   -- R386
  | cmpiLtu (p : BitVec 3) (a : BitVec 5) (i : BitVec 13)   -- R386
  | cmpiGeu (p : BitVec 3) (a : BitVec 5) (i : BitVec 13)   -- R386
  | cmpiLeu (p : BitVec 3) (a : BitVec 5) (i : BitVec 13)   -- R386
  | cmpiGtu (p : BitVec 3) (a : BitVec 5) (i : BitVec 13)   -- R386
  | li (d : BitVec 5) (i : BitVec 18)   -- R418
  | lih (d : BitVec 5) (i : BitVec 18)   -- R418
  | b (p : BitVec 3) (g : Bool) (o : BitVec 19)   -- R377
  | bz (a : BitVec 5) (i : BitVec 13)   -- R377
  | bnz (a : BitVec 5) (i : BitVec 13)   -- R377
  | jmp (a : BitVec 5) (m : Bool)   -- R411
  | call (d : BitVec 5) (i : BitVec 18)   -- R385
  | callr (d : BitVec 5) (a : BitVec 5) (m : Bool)   -- R385
  | ret (a : BitVec 5) (m : Bool)   -- R450
  | loop (k : BitVec 3) (l : Bool) (a : BitVec 5) (i : BitVec 13)   -- R420
  | loopi (k : BitVec 3) (l : Bool) (n : BitVec 10) (e : BitVec 8)   -- R420
  | csrr (d : BitVec 5) (c : BitVec 12)   -- R393
  | csrw (a : BitVec 5) (c : BitVec 12)   -- R393
  | waitfRead (d : BitVec 5) (a : BitVec 5)   -- R477
  | waitfTake (d : BitVec 5) (a : BitVec 5)   -- R477
  | waitfPut (d : BitVec 5) (a : BitVec 5)   -- R477
  | waitfEmpty (a : BitVec 5)   -- R477
  | fence (e : BitVec 5) (c : BitVec 3)   -- R398
  | rdv   -- R58
  | ld (w : BitVec 2) (d : BitVec 5) (a : BitVec 5) (b : BitVec 5) (m : Bool) (n : Bool) (c : BitVec 3) (x : Bool)   -- R415
  | ldAcq (w : BitVec 2) (d : BitVec 5) (a : BitVec 5) (b : BitVec 5) (m : Bool) (n : Bool) (c : BitVec 3) (x : Bool)   -- R415
  | st (w : BitVec 2) (d : BitVec 5) (a : BitVec 5) (b : BitVec 5) (m : Bool) (n : Bool) (c : BitVec 3)   -- R459
  | stRel (w : BitVec 2) (d : BitVec 5) (a : BitVec 5) (b : BitVec 5) (m : Bool) (n : Bool) (c : BitVec 3)   -- R459
  | ldo (w : BitVec 2) (d : BitVec 5) (a : BitVec 5) (i : BitVec 13)   -- R415
  | ldoS (w : BitVec 2) (d : BitVec 5) (a : BitVec 5) (i : BitVec 13)   -- R415
  | stoB (d : BitVec 5) (a : BitVec 5) (i : BitVec 13)   -- R459
  | stoH (d : BitVec 5) (a : BitVec 5) (i : BitVec 13)   -- R459
  | stoW (d : BitVec 5) (a : BitVec 5) (i : BitVec 13)   -- R459
  | sto (d : BitVec 5) (a : BitVec 5) (i : BitVec 13)   -- R459
  | aaddW (d : BitVec 5) (a : BitVec 5) (b : BitVec 5) (m : Bool) (n : Bool) (c : BitVec 3) (q : BitVec 2) (r : Bool)   -- R372
  | aadd (d : BitVec 5) (a : BitVec 5) (b : BitVec 5) (m : Bool) (n : Bool) (c : BitVec 3) (q : BitVec 2) (r : Bool)   -- R372
  | afadd (d : BitVec 5) (a : BitVec 5) (b : BitVec 5) (m : Bool) (n : Bool) (c : BitVec 3) (q : BitVec 2) (r : Bool)   -- R372
  | aandW (d : BitVec 5) (a : BitVec 5) (b : BitVec 5) (m : Bool) (n : Bool) (c : BitVec 3) (q : BitVec 2) (r : Bool)   -- R372
  | aand (d : BitVec 5) (a : BitVec 5) (b : BitVec 5) (m : Bool) (n : Bool) (c : BitVec 3) (q : BitVec 2) (r : Bool)   -- R372
  | aorW (d : BitVec 5) (a : BitVec 5) (b : BitVec 5) (m : Bool) (n : Bool) (c : BitVec 3) (q : BitVec 2) (r : Bool)   -- R372
  | aor (d : BitVec 5) (a : BitVec 5) (b : BitVec 5) (m : Bool) (n : Bool) (c : BitVec 3) (q : BitVec 2) (r : Bool)   -- R372
  | axorW (d : BitVec 5) (a : BitVec 5) (b : BitVec 5) (m : Bool) (n : Bool) (c : BitVec 3) (q : BitVec 2) (r : Bool)   -- R372
  | axor (d : BitVec 5) (a : BitVec 5) (b : BitVec 5) (m : Bool) (n : Bool) (c : BitVec 3) (q : BitVec 2) (r : Bool)   -- R372
  | aminW (d : BitVec 5) (a : BitVec 5) (b : BitVec 5) (m : Bool) (n : Bool) (c : BitVec 3) (q : BitVec 2) (r : Bool)   -- R372
  | amin (d : BitVec 5) (a : BitVec 5) (b : BitVec 5) (m : Bool) (n : Bool) (c : BitVec 3) (q : BitVec 2) (r : Bool)   -- R372
  | aminuW (d : BitVec 5) (a : BitVec 5) (b : BitVec 5) (m : Bool) (n : Bool) (c : BitVec 3) (q : BitVec 2) (r : Bool)   -- R372
  | aminu (d : BitVec 5) (a : BitVec 5) (b : BitVec 5) (m : Bool) (n : Bool) (c : BitVec 3) (q : BitVec 2) (r : Bool)   -- R372
  | amaxW (d : BitVec 5) (a : BitVec 5) (b : BitVec 5) (m : Bool) (n : Bool) (c : BitVec 3) (q : BitVec 2) (r : Bool)   -- R372
  | amax (d : BitVec 5) (a : BitVec 5) (b : BitVec 5) (m : Bool) (n : Bool) (c : BitVec 3) (q : BitVec 2) (r : Bool)   -- R372
  | amaxuW (d : BitVec 5) (a : BitVec 5) (b : BitVec 5) (m : Bool) (n : Bool) (c : BitVec 3) (q : BitVec 2) (r : Bool)   -- R372
  | amaxu (d : BitVec 5) (a : BitVec 5) (b : BitVec 5) (m : Bool) (n : Bool) (c : BitVec 3) (q : BitVec 2) (r : Bool)   -- R372
  | axchgW (d : BitVec 5) (a : BitVec 5) (b : BitVec 5) (m : Bool) (n : Bool) (c : BitVec 3) (q : BitVec 2) (r : Bool)   -- R372
  | axchg (d : BitVec 5) (a : BitVec 5) (b : BitVec 5) (m : Bool) (n : Bool) (c : BitVec 3) (q : BitVec 2) (r : Bool)   -- R372
  | acasW (d : BitVec 5) (a : BitVec 5) (b : BitVec 5) (m : Bool) (n : Bool) (c : BitVec 3) (q : BitVec 2) (r : Bool)   -- R372
  | acas (d : BitVec 5) (a : BitVec 5) (b : BitVec 5) (m : Bool) (n : Bool) (c : BitVec 3) (q : BitVec 2) (r : Bool)   -- R372
  | qrd (w : BitVec 2) (q : BitVec 3) (a : BitVec 5) (b : BitVec 5) (m : Bool) (n : Bool) (c : BitVec 3) (k : BitVec 3)   -- R445
  | qwr (w : BitVec 2) (q : BitVec 2) (a : BitVec 5) (b : BitVec 5) (m : Bool) (n : Bool) (c : BitVec 3) (k : BitVec 3)   -- R447
  | hinfo (d : BitVec 5) (a : BitVec 5) (b : BitVec 5) (m : Bool) (n : Bool) (i : BitVec 6)   -- R408
  | pub (d : BitVec 5) (a : BitVec 5) (m : Bool)   -- R442
  | copy (d : BitVec 5) (a : BitVec 5) (b : BitVec 5) (r : Bool)   -- R390
  | send (d : BitVec 5) (a : BitVec 5) (b : BitVec 5) (r : Bool)   -- R453
  | mcast (d : BitVec 5) (a : BitVec 5) (b : BitVec 5) (r : Bool)   -- R390
  | redw (d : BitVec 5) (a : BitVec 5) (b : BitVec 5) (r : Bool)   -- R453
  | brarv (a : BitVec 5) (b : BitVec 5) (m : Bool) (n : Bool) (c : BitVec 3)   -- R382
  | mark   -- R421
  | waita (d : BitVec 5) (a : BitVec 5) (b : BitVec 5) (m : Bool) (n : Bool)   -- R474
  | waitc (d : BitVec 5) (a : BitVec 5) (m : Bool)   -- R475
  | waitct (d : BitVec 5) (a : BitVec 5) (b : BitVec 5) (m : Bool) (n : Bool)   -- R475
  | vadd (d : BitVec 5) (a : BitVec 5) (b : BitVec 5) (r : Bool) (x : BitVec 5)   -- R465
  | vsub (d : BitVec 5) (a : BitVec 5) (b : BitVec 5) (r : Bool) (x : BitVec 5)   -- R465
  | vmul (d : BitVec 5) (a : BitVec 5) (b : BitVec 5) (r : Bool) (x : BitVec 5)   -- R465
  | vfma (d : BitVec 5) (a : BitVec 5) (b : BitVec 5) (r : Bool) (x : BitVec 5)   -- R465
  | vfms (d : BitVec 5) (a : BitVec 5) (b : BitVec 5) (r : Bool) (x : BitVec 5)   -- R465
  | vfnma (d : BitVec 5) (a : BitVec 5) (b : BitVec 5) (r : Bool) (x : BitVec 5)   -- R465
  | vadds (d : BitVec 5) (a : BitVec 5) (b : BitVec 5) (r : Bool) (x : BitVec 5)   -- R465
  | vsubs (d : BitVec 5) (a : BitVec 5) (b : BitVec 5) (r : Bool) (x : BitVec 5)   -- R465
  | vmuls (d : BitVec 5) (a : BitVec 5) (b : BitVec 5) (r : Bool) (x : BitVec 5)   -- R465
  | vdiv (d : BitVec 5) (a : BitVec 5) (b : BitVec 5) (r : Bool) (x : BitVec 5)   -- R465
  | vabs (d : BitVec 5) (a : BitVec 5) (r : Bool) (x : BitVec 5)   -- R465
  | vneg (d : BitVec 5) (a : BitVec 5) (r : Bool) (x : BitVec 5)   -- R465
  | vmin (d : BitVec 5) (a : BitVec 5) (b : BitVec 5) (r : Bool) (x : BitVec 5)   -- R465
  | vmax (d : BitVec 5) (a : BitVec 5) (b : BitVec 5) (r : Bool) (x : BitVec 5)   -- R465
  | vclamp (d : BitVec 5) (a : BitVec 5) (b : BitVec 5) (r : Bool) (x : BitVec 5)   -- R465
  | vrint (d : BitVec 5) (a : BitVec 5) (r : Bool) (x : BitVec 5)   -- R465
  | vcvt (f : BitVec 4) (d : BitVec 5) (a : BitVec 5) (t : Bool) (r : Bool) (p : BitVec 3) (x : BitVec 5)   -- R466
  | vcvtN (d : BitVec 5) (a : BitVec 5) (t : Bool) (r : Bool) (p : BitVec 3) (x : BitVec 5)   -- R466
  | vexp (d : BitVec 5) (a : BitVec 5) (x : BitVec 5)   -- R467
  | vexp2 (d : BitVec 5) (a : BitVec 5) (x : BitVec 5)   -- R467
  | vlog (d : BitVec 5) (a : BitVec 5) (x : BitVec 5)   -- R467
  | vlog2 (d : BitVec 5) (a : BitVec 5) (x : BitVec 5)   -- R467
  | vrcp (d : BitVec 5) (a : BitVec 5) (x : BitVec 5)   -- R467
  | vrsqrt (d : BitVec 5) (a : BitVec 5) (x : BitVec 5)   -- R467
  | vsqrt (d : BitVec 5) (a : BitVec 5) (x : BitVec 5)   -- R467
  | vtanh (d : BitVec 5) (a : BitVec 5) (x : BitVec 5)   -- R467
  | vsigm (d : BitVec 5) (a : BitVec 5) (x : BitVec 5)   -- R467
  | vsin (d : BitVec 5) (a : BitVec 5) (x : BitVec 5)   -- R467
  | vcos (d : BitVec 5) (a : BitVec 5) (x : BitVec 5)   -- R467
  | vcmp (d : BitVec 5) (a : BitVec 5) (b : BitVec 5) (c : BitVec 3) (x : BitVec 5)   -- R468
  | vsel (d : BitVec 5) (a : BitVec 5) (b : BitVec 5) (x : BitVec 5)   -- R468
  | vand (d : BitVec 5) (a : BitVec 5) (b : BitVec 5) (x : BitVec 5)   -- R468
  | vor (d : BitVec 5) (a : BitVec 5) (b : BitVec 5) (x : BitVec 5)   -- R468
  | vxor (d : BitVec 5) (a : BitVec 5) (b : BitVec 5) (x : BitVec 5)   -- R468
  | vandn (d : BitVec 5) (a : BitVec 5) (b : BitVec 5) (x : BitVec 5)   -- R468
  | vnot (d : BitVec 5) (a : BitVec 5) (x : BitVec 5)   -- R468
  | vsll (d : BitVec 5) (a : BitVec 5) (b : BitVec 5) (x : BitVec 5)   -- R468
  | vsrl (d : BitVec 5) (a : BitVec 5) (b : BitVec 5) (x : BitVec 5)   -- R468
  | vsra (d : BitVec 5) (a : BitVec 5) (b : BitVec 5) (x : BitVec 5)   -- R468
  | vrsum (d : BitVec 5) (a : BitVec 5) (x : BitVec 5)   -- R469
  | vrsumsq (d : BitVec 5) (a : BitVec 5) (x : BitVec 5)   -- R469
  | vrmax (d : BitVec 5) (a : BitVec 5) (x : BitVec 5)   -- R469
  | vrmin (d : BitVec 5) (a : BitVec 5) (x : BitVec 5)   -- R469
  | vramax (d : BitVec 5) (a : BitVec 5) (x : BitVec 5)   -- R469
  | vscan (d : BitVec 5) (a : BitVec 5) (x : BitVec 5)   -- R470
  | vscanmax (d : BitVec 5) (a : BitVec 5) (x : BitVec 5)   -- R470
  | vscanseg (d : BitVec 5) (a : BitVec 5) (b : BitVec 5) (x : BitVec 5)   -- R470
  | vperm (d : BitVec 5) (a : BitVec 5) (b : BitVec 5) (x : BitVec 5)   -- R471
  | vrote (d : BitVec 5) (a : BitVec 5) (b : BitVec 5) (x : BitVec 5)   -- R471
  | vbcast (d : BitVec 5) (a : BitVec 5) (b : BitVec 5) (x : BitVec 5)   -- R471
  | vmov (d : BitVec 5) (a : BitVec 5) (x : BitVec 5)   -- R471
  | vget (d : BitVec 5) (a : BitVec 5) (b : BitVec 5) (n : Bool) (r : BitVec 4)   -- R472
  | vput (d : BitVec 5) (a : BitVec 5) (b : BitVec 5) (n : Bool) (r : BitVec 4)   -- R472
  | vshp (f : BitVec 4) (c : BitVec 5) (b : BitVec 4)   -- R473
  | vshpr (a : BitVec 5) (m : Bool)   -- R473
  | vpopc (d : BitVec 5) (a : BitVec 5) (x : BitVec 5)   -- R468
  | mseta (y : Bool) (a : BitVec 5) (b : BitVec 5) (n : BitVec 3) (q : Bool) (w : Bool) (t : Bool)   -- R431
  | msetac (y : Bool) (a : BitVec 5) (b : BitVec 5)   -- R433
  | minca (y : Bool) (a : BitVec 5) (b : BitVec 5)   -- R433
  | msetb (y : Bool) (a : BitVec 5) (b : BitVec 5) (n : BitVec 3) (q : Bool) (w : Bool) (t : Bool)   -- R431
  | msetbc (y : Bool) (a : BitVec 5) (b : BitVec 5)   -- R433
  | mincb (y : Bool) (a : BitVec 5) (b : BitVec 5)   -- R433
  | msetc (y : Bool) (a : BitVec 5) (l : Bool) (r : Bool) (c : BitVec 4)   -- R432
  | msetcc (y : Bool) (a : BitVec 5) (b : BitVec 5)   -- R433
  | mincc (y : Bool) (a : BitVec 5) (b : BitVec 5)   -- R433
  | mfmt (y : Bool) (a : BitVec 5) (i : BitVec 13)   -- R426
  | mstamp (y : Bool) (a : BitVec 5)   -- R434
  | mmul (y : Bool)   -- R427
  | mzero (y : Bool) (c : BitVec 4)   -- R437
  | mdrain (y : Bool)   -- R425
  | mwait (y : Bool) (b : Bool)   -- R436
  | mprog (y : Bool) (a : BitVec 5)   -- R430
  | fork (c : BitVec 2) (i : BitVec 18)   -- R399
  | done   -- R396
  | spawn (d : BitVec 5) (a : BitVec 5) (b : BitVec 5) (m : Bool) (n : Bool) (o : BitVec 3)   -- R457
  | join (d : BitVec 5) (a : BitVec 5) (b : BitVec 5) (m : Bool) (n : Bool) (o : BitVec 3)   -- R413
  | phint (a : BitVec 5) (b : BitVec 5) (m : Bool) (n : Bool)   -- R440
  | svc (d : BitVec 5) (a : BitVec 5) (b : BitVec 5) (m : Bool) (n : Bool) (i : BitVec 6)   -- R462
  | iinv (a : BitVec 5) (m : Bool)   -- R410
  | commit   -- R387
  | bset (c : BitVec 3) (a : BitVec 5) (i : BitVec 4)   -- R380
  | barv (a : BitVec 5) (i : BitVec 4)   -- R380
  | bwait (a : BitVec 5) (i : BitVec 4)   -- R380
  | bsync (a : BitVec 5) (i : BitVec 4)   -- R380
  | bstat (d : BitVec 5) (w : Bool) (i : BitVec 4)   -- R381
  | csrs (d : BitVec 5) (a : BitVec 5) (c : BitVec 12)   -- R393
  | csrc (d : BitVec 5) (a : BitVec 5) (c : BitVec 12)   -- R393
  | waitd (d : BitVec 5) (a : BitVec 5) (m : Bool)   -- R476
  | trap (v : BitVec 4) (c : BitVec 23)   -- R463
  | brk (i : BitVec 16)   -- R384
  | gadd (d : BitVec 4) (a : BitVec 4) (b : BitVec 4)   -- R401
  | gaddI (d : BitVec 4) (a : BitVec 4) (i : BitVec 17)   -- R401
  | gsub (d : BitVec 4) (a : BitVec 4) (b : BitVec 4)   -- R401
  | gsubI (d : BitVec 4) (a : BitVec 4) (i : BitVec 17)   -- R401
  | gmul (d : BitVec 4) (a : BitVec 4) (b : BitVec 4)   -- R401
  | gmulI (d : BitVec 4) (a : BitVec 4) (i : BitVec 17)   -- R401
  | gand (d : BitVec 4) (a : BitVec 4) (b : BitVec 4)   -- R401
  | gandI (d : BitVec 4) (a : BitVec 4) (i : BitVec 17)   -- R401
  | gor (d : BitVec 4) (a : BitVec 4) (b : BitVec 4)   -- R401
  | gorI (d : BitVec 4) (a : BitVec 4) (i : BitVec 17)   -- R401
  | gxor (d : BitVec 4) (a : BitVec 4) (b : BitVec 4)   -- R401
  | gxorI (d : BitVec 4) (a : BitVec 4) (i : BitVec 17)   -- R401
  | gsll (d : BitVec 4) (a : BitVec 4) (b : BitVec 4)   -- R401
  | gsllI (d : BitVec 4) (a : BitVec 4) (i : BitVec 17)   -- R401
  | gsrl (d : BitVec 4) (a : BitVec 4) (b : BitVec 4)   -- R401
  | gsrlI (d : BitVec 4) (a : BitVec 4) (i : BitVec 17)   -- R401
  | gli (d : BitVec 4) (h : BitVec 2) (i : BitVec 16)   -- R401
  | gliK (d : BitVec 4) (h : BitVec 2) (i : BitVec 16)   -- R401
  | gbeq (a : BitVec 4) (b : BitVec 4) (o : BitVec 18)   -- R401
  | gbne (a : BitVec 4) (b : BitVec 4) (o : BitVec 18)   -- R401
  | gblt (a : BitVec 4) (b : BitVec 4) (o : BitVec 18)   -- R401
  | gjmp (d : BitVec 4) (a : BitVec 4) (o : BitVec 18)   -- R401
  | gld (d : BitVec 4) (a : BitVec 4) (p : Bool) (w : BitVec 2) (o : BitVec 14)   -- R402
  | gst (d : BitVec 4) (a : BitVec 4) (p : Bool) (r : Bool) (w : BitVec 2) (o : BitVec 14)   -- R402
  | gcsr (d : BitVec 4) (a : BitVec 4) (w : Bool) (c : BitVec 12)   -- R405
  | gwait   -- R405
  | gev   -- R280
  | gsetw (a : BitVec 4) (b : BitVec 4)   -- R406
  | gsetr (a : BitVec 4) (b : BitVec 4)   -- R406
  | gwgt (a : BitVec 4) (b : BitVec 4) (j : BitVec 3)   -- R282
  | gportDown (a : BitVec 4)   -- R406
  | gportRetrain (a : BitVec 4)   -- R406
  | gntfy (a : BitVec 4) (b : BitVec 4)   -- R407
  | gsvc (a : BitVec 4) (b : BitVec 4)   -- R284
  | gsend (a : BitVec 4) (b : BitVec 4) (l : BitVec 14)   -- R285
  | gfree (b : BitVec 4)   -- R285
  | notifyWrite (offset : Nat) (v : BitVec 64)   -- R69
  | mapQueue (slot : Nat) (v : BitVec 64)   -- R68
  | unmapQueue (slot : Nat)   -- R70
  | unmapComplete (slot : Nat)   -- R70
  | launchAccept (slot : Nat)   -- R85
  | launchExpansion (launch : Nat)   -- R71
  | taskPop (die : Nat)   -- R74
  | gangReservation (die : Nat)   -- R78
  | gangStart (gang : Nat)   -- R43
  | ageingInterval (slot : Nat)   -- R72
  | firstFetch (core : Nat)   -- R34
  | launchComplete (launch : Nat)   -- R87
  | completionRecordTimeout (launch : Nat)   -- R87
  | throttleUpdate (quad : Nat) (deflected : Bool) (aged : Bool)   -- R260
  | synctoExpiry (core : Nat)   -- R61
  | femodeLimitExpiry (core : Nat) (c : Cluster)   -- R94
  | producerResultWritten (core : Nat) (d : BitVec 5)   -- R92
  | vectorRowStep (core : Nat)   -- R105
  | mmulArrayIssue (core : Nat) (y : ArrayId)   -- R232
  | mmulRowEntry (core : Nat) (y : ArrayId)   -- R232
  | drainRow (core : Nat) (y : ArrayId)   -- R236
  | accessAtHome (core : Nat) (id : Nat)   -- R495
  | engineRaceTrap (core : Nat)   -- R220
  | eraChange   -- R205
  | metadataWaitTimeout (core : Nat) (id : Nat)   -- R211
  | versionCommitComplete (core : Nat)   -- R187
  | engineChunkWrite (core : Nat) (cmd : BitVec 16)   -- R249
  | engineCompletion (core : Nat) (cmd : BitVec 16)   -- R192
  | residencyWaitTimeout (core : Nat) (cmd : BitVec 16)   -- R256
  | residencyWaitResume (core : Nat) (w : WaitId)   -- R157
  | place (p : Packet) (shd : Bool)   -- R267
  | redu (p : Packet) (shd : Bool)   -- R268
  | redo (p : Packet) (shd : Bool)   -- R269
  | loadRequest (p : Packet) (len : Nat)   -- R270
  | loadData (core : Nat) (id : Nat) (data : List (BitVec 8))   -- R261
  | store (p : Packet)   -- R270
  | atomic (p : Packet) (op : AtomOp) (wide : Bool) (v : BitVec 64) (cmp : BitVec 64)   -- R270
  | atomicReply (core : Nat) (id : Nat) (old : BitVec 64)   -- R270
  | rarrive (p : Packet)   -- R382
  | debugForwarding (p : Packet)   -- R277
  | barrierArrival (core : Nat) (bar : BitVec 4) (round : BitVec 32) (launch : Option (BitVec 32)) (src : ArrivalSrc)   -- R379
  | acknowledgement (pdc : Nat) (psn : BitVec 32) (gap : List (BitVec 32)) (ecn : Bool) (delay : BitVec 32)   -- R265
  | trimmedPacket (port : Nat) (pdc : Nat) (node : BitVec 11) (psn : BitVec 32)   -- R264
  | nack (pdc : Nat) (psn : BitVec 32)   -- R265
  | retransmissionTimeout (pdc : Nat) (psn : BitVec 32)   -- R265
  | packetFail (pdc : Nat) (psn : BitVec 32) (why : Answer)   -- R265
  | notReadyReply (pdc : Nat) (psn : BitVec 32)   -- R256
  | notReadyRetransmit (pdc : Nat) (psn : BitVec 32)   -- R256
  | staleReply (pdc : Nat) (psn : BitVec 32)   -- R267
  | transitPacket (port : Nat) (t : Transit)   -- R274
  | laneFailure (port : Nat) (lane : BitVec 2)   -- R263
  | portDown (port : Nat) (info : BitVec 2)   -- R277
  | portRetrainComplete (port : Nat) (ok : Bool)   -- R406
  | flitDelivery (core : Nat) (msg : Nat) (flit : BitVec 3) (data : BitVec 512)   -- R261
  | dieBridgeFailure   -- R313
  | uncorrectableError (core : Nat) (e : StorageError)   -- R312
  | fenceCore (core : Nat)   -- R29
  | timeSyncMessage (msg : SyncMsg) (ppm : Int)   -- R81
  | sageWatchdog (g : Nat)   -- R280
  | stopRecordWrite (core : Nat)   -- R294
  | serviceResume (core : Nat)   -- R292
  | convertToTrap (core : Nat)   -- R292
  | preemptionRequest (core : Nat) (d : BitVec 16)   -- R297
  | forcedSaveDeadline (core : Nat)   -- R297
  | drainLimitExpiry (core : Nat)   -- R302
  | saveImageWrite (core : Nat) (buf : BitVec 43)   -- R301
  | svcReply (core : Nat) (answer : BitVec 64)   -- R319
  | hostCxlMemAccess (addr : BitVec 43) (req : HostReq)   -- R315
  | flipToHostBias (slice : Nat) (frame : BitVec 27)   -- R197
  | flipToDeviceBias (slice : Nat) (frame : BitVec 27)   -- R197
  | readBias (slice : Nat) (frame : BitVec 27)   -- R197
  | biasFlipComplete (slice : Nat)   -- R197
  | tinvRecord (slice : Nat) (ctx : BitVec 16) (index : BitVec 20)   -- R165
  | tinvRuEntry (slice : Nat) (ctx : BitVec 16) (index : BitVec 20) (ru : BitVec 24)   -- R165
  | tinvContext (slice : Nat) (ctx : BitVec 16)   -- R165
  | tinvDevice (slice : Nat)   -- R165
  | invalidationComplete (slice : Nat)   -- R165
  | devsum (addr : BitVec 37)   -- R323
  | devsumComplete   -- R323
  | boot (die : Nat)   -- R324
  | getMeasurements (request : List (BitVec 8))   -- R325
  | challenge (request : List (BitVec 8))   -- R325
  | executeWord (core : Nat) (c : Cluster) (w : BitVec 32)   -- R330
  | debugHalt (core : Nat)   -- R331
  | haltBoundaryTimeout (core : Nat) (c : Cluster)   -- R331
  | huazuHalt (h : Huazu)   -- R333
  | huazuResume (h : Huazu)   -- R333
  | huazuRead (h : Huazu)   -- R333
  | huazuWrite (h : Huazu)   -- R333
  | huazuDevsum (h : Huazu)   -- R333
  | huazuReply (h : Huazu)   -- R334
  | huazuResend (seq : BitVec 16)   -- R334
  | sample (core : Nat)   -- R335
  | controlRegisterWrite (r : CtlReg) (v : BitVec 256)   -- R5
  | waitctTimeout (core : Nat)   -- R475
  | clockThrottle (mhz : Nat)   -- R28
  | frameLockInstall (slice : Nat) (old : BitVec 27) (new : BitVec 27) (frames : Nat)   -- R168
  | frameLockRelease (slice : Nat) (old : BitVec 27)   -- R168
  | redirectionRemove (slice : Nat) (old : BitVec 27)   -- R168
  | drainResidTrap (core : Nat) (y : ArrayId)   -- R236
  | debugViewAccess (core : Nat) (offset : Nat) (write : Option (List (BitVec 8))) (len : Nat)   -- R332
  | waitdTargetReached (core : Nat) (c : Cluster)   -- R476
  | engineWatchStop (core : Nat)   -- R341
  | illegalRsvd (w : BitVec 32)   -- R361
  | notAGInstruction (w : BitVec 32)   -- R366
deriving DecidableEq, Repr

end Sys2Proof
end

