-- ==== Sys2Proof/Decode.lean ====
section
/-!
DEFINITION. The decoder of core words (R352 to R359) and of Sage words (R365, R366), and after it the encoder, both written from the
encoding tables of the spec. A word is read as a 32-bit value; its bytes are little-endian (R3).
-/

namespace Sys2Proof

/-- Why a word is no instruction: a bit defined as zero is not zero (R361, order 3), the XC function is unassigned (order 5), or the
word is no G instruction (R366). The other orders of R361 are checked when the word issues (`Instr.check`). -/
inductive Reject where
  | rsvd | xfn | notG
deriving DecidableEq, Repr

/-- What a core word says: its S bit (R59) and its instruction. -/
structure Decoded where
  sync : Bool
  instr : Instr
deriving DecidableEq, Repr


/-- The core words of OP 0x00 to 0x07 (R359). -/
def decodeCore00 (w : Word) : Except Reject Instr :=
  match (w.extractLsb' 23 3).toNat with
  | 0 => .ok (.illegal (w.extractLsb' 0 23))
  | 1 => if w.extractLsb' 0 23 = 0#23 then .ok .nop else .error .rsvd
  | 2 => if w.extractLsb' 1 5 = 0#5 then .ok (.add (w.extractLsb' 18 5) (w.extractLsb' 13 5) (w.extractLsb' 8 5) (w.getLsbD 7) (w.getLsbD 6) (w.getLsbD 0)) else .error .rsvd
  | 3 => if w.extractLsb' 1 5 = 0#5 then .ok (.sub (w.extractLsb' 18 5) (w.extractLsb' 13 5) (w.extractLsb' 8 5) (w.getLsbD 7) (w.getLsbD 6) (w.getLsbD 0)) else .error .rsvd
  | 4 => if w.extractLsb' 1 5 = 0#5 then .ok (.mul (w.extractLsb' 18 5) (w.extractLsb' 13 5) (w.extractLsb' 8 5) (w.getLsbD 7) (w.getLsbD 6) (w.getLsbD 0)) else .error .rsvd
  | 5 => if w.extractLsb' 1 5 = 0#5 then .ok (.mulh (w.extractLsb' 18 5) (w.extractLsb' 13 5) (w.extractLsb' 8 5) (w.getLsbD 7) (w.getLsbD 6) (w.getLsbD 0)) else .error .rsvd
  | 6 => if w.extractLsb' 1 5 = 0#5 then .ok (.mulhu (w.extractLsb' 18 5) (w.extractLsb' 13 5) (w.extractLsb' 8 5) (w.getLsbD 7) (w.getLsbD 6) (w.getLsbD 0)) else .error .rsvd
  | _ => if w.extractLsb' 1 5 = 0#5 then .ok (.div (w.extractLsb' 18 5) (w.extractLsb' 13 5) (w.extractLsb' 8 5) (w.getLsbD 7) (w.getLsbD 6) (w.getLsbD 0)) else .error .rsvd

/-- The core words of OP 0x08 to 0x0F (R359). -/
def decodeCore01 (w : Word) : Except Reject Instr :=
  match (w.extractLsb' 23 3).toNat with
  | 0 => if w.extractLsb' 1 5 = 0#5 then .ok (.divu (w.extractLsb' 18 5) (w.extractLsb' 13 5) (w.extractLsb' 8 5) (w.getLsbD 7) (w.getLsbD 6) (w.getLsbD 0)) else .error .rsvd
  | 1 => if w.extractLsb' 1 5 = 0#5 then .ok (.rem (w.extractLsb' 18 5) (w.extractLsb' 13 5) (w.extractLsb' 8 5) (w.getLsbD 7) (w.getLsbD 6) (w.getLsbD 0)) else .error .rsvd
  | 2 => if w.extractLsb' 1 5 = 0#5 then .ok (.remu (w.extractLsb' 18 5) (w.extractLsb' 13 5) (w.extractLsb' 8 5) (w.getLsbD 7) (w.getLsbD 6) (w.getLsbD 0)) else .error .rsvd
  | 3 => if w.extractLsb' 0 6 = 0#6 then .ok (.and (w.extractLsb' 18 5) (w.extractLsb' 13 5) (w.extractLsb' 8 5) (w.getLsbD 7) (w.getLsbD 6)) else .error .rsvd
  | 4 => if w.extractLsb' 0 6 = 0#6 then .ok (.andn (w.extractLsb' 18 5) (w.extractLsb' 13 5) (w.extractLsb' 8 5) (w.getLsbD 7) (w.getLsbD 6)) else .error .rsvd
  | 5 => if w.extractLsb' 0 6 = 0#6 then .ok (.or (w.extractLsb' 18 5) (w.extractLsb' 13 5) (w.extractLsb' 8 5) (w.getLsbD 7) (w.getLsbD 6)) else .error .rsvd
  | 6 => if w.extractLsb' 0 6 = 0#6 then .ok (.xor (w.extractLsb' 18 5) (w.extractLsb' 13 5) (w.extractLsb' 8 5) (w.getLsbD 7) (w.getLsbD 6)) else .error .rsvd
  | _ => if w.extractLsb' 1 5 = 0#5 then .ok (.sll (w.extractLsb' 18 5) (w.extractLsb' 13 5) (w.extractLsb' 8 5) (w.getLsbD 7) (w.getLsbD 6) (w.getLsbD 0)) else .error .rsvd

/-- The core words of OP 0x10 to 0x17 (R359). -/
def decodeCore02 (w : Word) : Except Reject Instr :=
  match (w.extractLsb' 23 3).toNat with
  | 0 => if w.extractLsb' 1 5 = 0#5 then .ok (.srl (w.extractLsb' 18 5) (w.extractLsb' 13 5) (w.extractLsb' 8 5) (w.getLsbD 7) (w.getLsbD 6) (w.getLsbD 0)) else .error .rsvd
  | 1 => if w.extractLsb' 1 5 = 0#5 then .ok (.sra (w.extractLsb' 18 5) (w.extractLsb' 13 5) (w.extractLsb' 8 5) (w.getLsbD 7) (w.getLsbD 6) (w.getLsbD 0)) else .error .rsvd
  | 2 => if w.extractLsb' 1 5 = 0#5 then .ok (.min (w.extractLsb' 18 5) (w.extractLsb' 13 5) (w.extractLsb' 8 5) (w.getLsbD 7) (w.getLsbD 6) (w.getLsbD 0)) else .error .rsvd
  | 3 => if w.extractLsb' 1 5 = 0#5 then .ok (.max (w.extractLsb' 18 5) (w.extractLsb' 13 5) (w.extractLsb' 8 5) (w.getLsbD 7) (w.getLsbD 6) (w.getLsbD 0)) else .error .rsvd
  | 4 => if w.extractLsb' 1 5 = 0#5 then .ok (.minu (w.extractLsb' 18 5) (w.extractLsb' 13 5) (w.extractLsb' 8 5) (w.getLsbD 7) (w.getLsbD 6) (w.getLsbD 0)) else .error .rsvd
  | 5 => if w.extractLsb' 1 5 = 0#5 then .ok (.maxu (w.extractLsb' 18 5) (w.extractLsb' 13 5) (w.extractLsb' 8 5) (w.getLsbD 7) (w.getLsbD 6) (w.getLsbD 0)) else .error .rsvd
  | 6 => if w.extractLsb' 0 7 = 0#7 ∧ w.extractLsb' 8 5 = 0#5 then .ok (.mov (w.extractLsb' 18 5) (w.extractLsb' 13 5) (w.getLsbD 7)) else .error .rsvd
  | _ => if w.extractLsb' 4 2 = 0#2 then .ok (.sel (w.extractLsb' 18 5) (w.extractLsb' 13 5) (w.extractLsb' 8 5) (w.getLsbD 7) (w.getLsbD 6) (w.getLsbD 3) (w.extractLsb' 0 3)) else .error .rsvd

/-- The core words of OP 0x18 to 0x1F (R359). -/
def decodeCore03 (w : Word) : Except Reject Instr :=
  match (w.extractLsb' 23 3).toNat with
  | 0 => if w.extractLsb' 5 1 = 0#1 ∧ w.extractLsb' 21 2 = 0#2 then .ok (.cmp (w.extractLsb' 18 3) (w.extractLsb' 13 5) (w.extractLsb' 8 5) (w.getLsbD 7) (w.getLsbD 6) (w.getLsbD 4) (w.extractLsb' 0 4)) else .error .rsvd
  | 1 => if w.extractLsb' 3 5 = 0#5 ∧ w.extractLsb' 11 2 = 0#2 ∧ w.extractLsb' 16 2 = 0#2 ∧ w.extractLsb' 21 2 = 0#2 then .ok (.pset (w.extractLsb' 18 3) (w.extractLsb' 13 3) (w.extractLsb' 8 3) (w.extractLsb' 0 3)) else .error .rsvd
  | 2 => .ok (.addi (w.extractLsb' 18 5) (w.extractLsb' 13 5) (w.extractLsb' 0 13))
  | 3 => .ok (.muli (w.extractLsb' 18 5) (w.extractLsb' 13 5) (w.extractLsb' 0 13))
  | 4 => .ok (.andi (w.extractLsb' 18 5) (w.extractLsb' 13 5) (w.extractLsb' 0 13))
  | 5 => .ok (.ori (w.extractLsb' 18 5) (w.extractLsb' 13 5) (w.extractLsb' 0 13))
  | 6 => .ok (.xori (w.extractLsb' 18 5) (w.extractLsb' 13 5) (w.extractLsb' 0 13))
  | _ => if w.extractLsb' 6 7 = 0#7 then .ok (.slli (w.extractLsb' 18 5) (w.extractLsb' 13 5) (w.extractLsb' 0 6)) else .error .rsvd

/-- The core words of OP 0x20 to 0x27 (R359). -/
def decodeCore04 (w : Word) : Except Reject Instr :=
  match (w.extractLsb' 23 3).toNat with
  | 0 => if w.extractLsb' 6 7 = 0#7 then .ok (.srli (w.extractLsb' 18 5) (w.extractLsb' 13 5) (w.extractLsb' 0 6)) else .error .rsvd
  | 1 => if w.extractLsb' 6 7 = 0#7 then .ok (.srai (w.extractLsb' 18 5) (w.extractLsb' 13 5) (w.extractLsb' 0 6)) else .error .rsvd
  | 2 => .ok (.mini (w.extractLsb' 18 5) (w.extractLsb' 13 5) (w.extractLsb' 0 13))
  | 3 => .ok (.maxi (w.extractLsb' 18 5) (w.extractLsb' 13 5) (w.extractLsb' 0 13))
  | 4 => .ok (.minui (w.extractLsb' 18 5) (w.extractLsb' 13 5) (w.extractLsb' 0 13))
  | 5 => .ok (.maxui (w.extractLsb' 18 5) (w.extractLsb' 13 5) (w.extractLsb' 0 13))
  | 6 => if w.extractLsb' 21 2 = 0#2 then .ok (.cmpiEq (w.extractLsb' 18 3) (w.extractLsb' 13 5) (w.extractLsb' 0 13)) else .error .rsvd
  | _ => if w.extractLsb' 21 2 = 0#2 then .ok (.cmpiNe (w.extractLsb' 18 3) (w.extractLsb' 13 5) (w.extractLsb' 0 13)) else .error .rsvd

/-- The core words of OP 0x28 to 0x2F (R359). -/
def decodeCore05 (w : Word) : Except Reject Instr :=
  match (w.extractLsb' 23 3).toNat with
  | 0 => if w.extractLsb' 21 2 = 0#2 then .ok (.cmpiLt (w.extractLsb' 18 3) (w.extractLsb' 13 5) (w.extractLsb' 0 13)) else .error .rsvd
  | 1 => if w.extractLsb' 21 2 = 0#2 then .ok (.cmpiGe (w.extractLsb' 18 3) (w.extractLsb' 13 5) (w.extractLsb' 0 13)) else .error .rsvd
  | 2 => if w.extractLsb' 21 2 = 0#2 then .ok (.cmpiLe (w.extractLsb' 18 3) (w.extractLsb' 13 5) (w.extractLsb' 0 13)) else .error .rsvd
  | 3 => if w.extractLsb' 21 2 = 0#2 then .ok (.cmpiGt (w.extractLsb' 18 3) (w.extractLsb' 13 5) (w.extractLsb' 0 13)) else .error .rsvd
  | 4 => if w.extractLsb' 21 2 = 0#2 then .ok (.cmpiLtu (w.extractLsb' 18 3) (w.extractLsb' 13 5) (w.extractLsb' 0 13)) else .error .rsvd
  | 5 => if w.extractLsb' 21 2 = 0#2 then .ok (.cmpiGeu (w.extractLsb' 18 3) (w.extractLsb' 13 5) (w.extractLsb' 0 13)) else .error .rsvd
  | 6 => if w.extractLsb' 21 2 = 0#2 then .ok (.cmpiLeu (w.extractLsb' 18 3) (w.extractLsb' 13 5) (w.extractLsb' 0 13)) else .error .rsvd
  | _ => if w.extractLsb' 21 2 = 0#2 then .ok (.cmpiGtu (w.extractLsb' 18 3) (w.extractLsb' 13 5) (w.extractLsb' 0 13)) else .error .rsvd

/-- The core words of OP 0x30 to 0x37 (R359). -/
def decodeCore06 (w : Word) : Except Reject Instr :=
  match (w.extractLsb' 23 3).toNat with
  | 0 => .ok (.li (w.extractLsb' 18 5) (w.extractLsb' 0 18))
  | 1 => .ok (.lih (w.extractLsb' 18 5) (w.extractLsb' 0 18))
  | 2 => .ok (.b (w.extractLsb' 20 3) (w.getLsbD 19) (w.extractLsb' 0 19))
  | 3 => if w.extractLsb' 18 5 = 0#5 then .ok (.bz (w.extractLsb' 13 5) (w.extractLsb' 0 13)) else .error .rsvd
  | 4 => if w.extractLsb' 18 5 = 0#5 then .ok (.bnz (w.extractLsb' 13 5) (w.extractLsb' 0 13)) else .error .rsvd
  | 5 => if w.extractLsb' 0 7 = 0#7 ∧ w.extractLsb' 8 5 = 0#5 ∧ w.extractLsb' 18 5 = 0#5 then .ok (.jmp (w.extractLsb' 13 5) (w.getLsbD 7)) else .error .rsvd
  | 6 => .ok (.call (w.extractLsb' 18 5) (w.extractLsb' 0 18))
  | _ => if w.extractLsb' 0 7 = 0#7 ∧ w.extractLsb' 8 5 = 0#5 then .ok (.callr (w.extractLsb' 18 5) (w.extractLsb' 13 5) (w.getLsbD 7)) else .error .rsvd

/-- The core words of OP 0x38 to 0x3F (R359). -/
def decodeCore07 (w : Word) : Except Reject Instr :=
  match (w.extractLsb' 23 3).toNat with
  | 0 => if w.extractLsb' 0 7 = 0#7 ∧ w.extractLsb' 8 5 = 0#5 ∧ w.extractLsb' 18 5 = 0#5 then .ok (.ret (w.extractLsb' 13 5) (w.getLsbD 7)) else .error .rsvd
  | 1 => if w.extractLsb' 22 1 = 0#1 then .ok (.loop (w.extractLsb' 19 3) (w.getLsbD 18) (w.extractLsb' 13 5) (w.extractLsb' 0 13)) else .error .rsvd
  | 2 => if w.extractLsb' 22 1 = 0#1 then .ok (.loopi (w.extractLsb' 19 3) (w.getLsbD 18) (w.extractLsb' 8 10) (w.extractLsb' 0 8)) else .error .rsvd
  | 3 => if w.extractLsb' 12 6 = 0#6 then .ok (.csrr (w.extractLsb' 18 5) (w.extractLsb' 0 12)) else .error .rsvd
  | 4 => if w.extractLsb' 12 1 = 0#1 ∧ w.extractLsb' 18 5 = 0#5 then .ok (.csrw (w.extractLsb' 13 5) (w.extractLsb' 0 12)) else .error .rsvd
  | 5 => if w.extractLsb' 0 13 = 0#13 then .ok (.waitfRead (w.extractLsb' 18 5) (w.extractLsb' 13 5)) else if w.extractLsb' 0 13 = 1#13 then .ok (.waitfTake (w.extractLsb' 18 5) (w.extractLsb' 13 5)) else if w.extractLsb' 0 13 = 2#13 then .ok (.waitfPut (w.extractLsb' 18 5) (w.extractLsb' 13 5)) else if w.extractLsb' 0 13 = 3#13 ∧ w.extractLsb' 18 5 = 0#5 then .ok (.waitfEmpty (w.extractLsb' 13 5)) else .error .rsvd
  | 6 => if w.extractLsb' 8 15 = 0#15 then .ok (.fence (w.extractLsb' 3 5) (w.extractLsb' 0 3)) else .error .rsvd
  | _ => if w.extractLsb' 0 23 = 0#23 then .ok .rdv else .error .rsvd

/-- The core words of OP 0x40 to 0x47 (R359). -/
def decodeCore08 (w : Word) : Except Reject Instr :=
  match (w.extractLsb' 23 3).toNat with
  | 0 => if w.extractLsb' 0 2 = 0#2 then .ok (.ld (w.extractLsb' 23 2) (w.extractLsb' 18 5) (w.extractLsb' 13 5) (w.extractLsb' 8 5) (w.getLsbD 7) (w.getLsbD 6) (w.extractLsb' 3 3) (w.getLsbD 2)) else .error .rsvd
  | 1 => if w.extractLsb' 0 2 = 0#2 then .ok (.ld (w.extractLsb' 23 2) (w.extractLsb' 18 5) (w.extractLsb' 13 5) (w.extractLsb' 8 5) (w.getLsbD 7) (w.getLsbD 6) (w.extractLsb' 3 3) (w.getLsbD 2)) else .error .rsvd
  | 2 => if w.extractLsb' 0 2 = 0#2 then .ok (.ld (w.extractLsb' 23 2) (w.extractLsb' 18 5) (w.extractLsb' 13 5) (w.extractLsb' 8 5) (w.getLsbD 7) (w.getLsbD 6) (w.extractLsb' 3 3) (w.getLsbD 2)) else .error .rsvd
  | 3 => if w.extractLsb' 0 2 = 0#2 then .ok (.ld (w.extractLsb' 23 2) (w.extractLsb' 18 5) (w.extractLsb' 13 5) (w.extractLsb' 8 5) (w.getLsbD 7) (w.getLsbD 6) (w.extractLsb' 3 3) (w.getLsbD 2)) else .error .rsvd
  | 4 => if w.extractLsb' 0 2 = 0#2 then .ok (.ldAcq (w.extractLsb' 23 2) (w.extractLsb' 18 5) (w.extractLsb' 13 5) (w.extractLsb' 8 5) (w.getLsbD 7) (w.getLsbD 6) (w.extractLsb' 3 3) (w.getLsbD 2)) else .error .rsvd
  | 5 => if w.extractLsb' 0 2 = 0#2 then .ok (.ldAcq (w.extractLsb' 23 2) (w.extractLsb' 18 5) (w.extractLsb' 13 5) (w.extractLsb' 8 5) (w.getLsbD 7) (w.getLsbD 6) (w.extractLsb' 3 3) (w.getLsbD 2)) else .error .rsvd
  | 6 => if w.extractLsb' 0 2 = 0#2 then .ok (.ldAcq (w.extractLsb' 23 2) (w.extractLsb' 18 5) (w.extractLsb' 13 5) (w.extractLsb' 8 5) (w.getLsbD 7) (w.getLsbD 6) (w.extractLsb' 3 3) (w.getLsbD 2)) else .error .rsvd
  | _ => if w.extractLsb' 0 2 = 0#2 then .ok (.ldAcq (w.extractLsb' 23 2) (w.extractLsb' 18 5) (w.extractLsb' 13 5) (w.extractLsb' 8 5) (w.getLsbD 7) (w.getLsbD 6) (w.extractLsb' 3 3) (w.getLsbD 2)) else .error .rsvd

/-- The core words of OP 0x48 to 0x4F (R359). -/
def decodeCore09 (w : Word) : Except Reject Instr :=
  match (w.extractLsb' 23 3).toNat with
  | 0 => if w.extractLsb' 0 3 = 0#3 then .ok (.st (w.extractLsb' 23 2) (w.extractLsb' 18 5) (w.extractLsb' 13 5) (w.extractLsb' 8 5) (w.getLsbD 7) (w.getLsbD 6) (w.extractLsb' 3 3)) else .error .rsvd
  | 1 => if w.extractLsb' 0 3 = 0#3 then .ok (.st (w.extractLsb' 23 2) (w.extractLsb' 18 5) (w.extractLsb' 13 5) (w.extractLsb' 8 5) (w.getLsbD 7) (w.getLsbD 6) (w.extractLsb' 3 3)) else .error .rsvd
  | 2 => if w.extractLsb' 0 3 = 0#3 then .ok (.st (w.extractLsb' 23 2) (w.extractLsb' 18 5) (w.extractLsb' 13 5) (w.extractLsb' 8 5) (w.getLsbD 7) (w.getLsbD 6) (w.extractLsb' 3 3)) else .error .rsvd
  | 3 => if w.extractLsb' 0 3 = 0#3 then .ok (.st (w.extractLsb' 23 2) (w.extractLsb' 18 5) (w.extractLsb' 13 5) (w.extractLsb' 8 5) (w.getLsbD 7) (w.getLsbD 6) (w.extractLsb' 3 3)) else .error .rsvd
  | 4 => if w.extractLsb' 0 3 = 0#3 then .ok (.stRel (w.extractLsb' 23 2) (w.extractLsb' 18 5) (w.extractLsb' 13 5) (w.extractLsb' 8 5) (w.getLsbD 7) (w.getLsbD 6) (w.extractLsb' 3 3)) else .error .rsvd
  | 5 => if w.extractLsb' 0 3 = 0#3 then .ok (.stRel (w.extractLsb' 23 2) (w.extractLsb' 18 5) (w.extractLsb' 13 5) (w.extractLsb' 8 5) (w.getLsbD 7) (w.getLsbD 6) (w.extractLsb' 3 3)) else .error .rsvd
  | 6 => if w.extractLsb' 0 3 = 0#3 then .ok (.stRel (w.extractLsb' 23 2) (w.extractLsb' 18 5) (w.extractLsb' 13 5) (w.extractLsb' 8 5) (w.getLsbD 7) (w.getLsbD 6) (w.extractLsb' 3 3)) else .error .rsvd
  | _ => if w.extractLsb' 0 3 = 0#3 then .ok (.stRel (w.extractLsb' 23 2) (w.extractLsb' 18 5) (w.extractLsb' 13 5) (w.extractLsb' 8 5) (w.getLsbD 7) (w.getLsbD 6) (w.extractLsb' 3 3)) else .error .rsvd

/-- The core words of OP 0x50 to 0x57 (R359). -/
def decodeCore0A (w : Word) : Except Reject Instr :=
  match (w.extractLsb' 23 3).toNat with
  | 0 => .ok (.ldo (w.extractLsb' 23 2) (w.extractLsb' 18 5) (w.extractLsb' 13 5) (w.extractLsb' 0 13))
  | 1 => .ok (.ldo (w.extractLsb' 23 2) (w.extractLsb' 18 5) (w.extractLsb' 13 5) (w.extractLsb' 0 13))
  | 2 => .ok (.ldo (w.extractLsb' 23 2) (w.extractLsb' 18 5) (w.extractLsb' 13 5) (w.extractLsb' 0 13))
  | 3 => .ok (.ldo (w.extractLsb' 23 2) (w.extractLsb' 18 5) (w.extractLsb' 13 5) (w.extractLsb' 0 13))
  | 4 => .ok (.ldoS (w.extractLsb' 23 2) (w.extractLsb' 18 5) (w.extractLsb' 13 5) (w.extractLsb' 0 13))
  | 5 => .ok (.ldoS (w.extractLsb' 23 2) (w.extractLsb' 18 5) (w.extractLsb' 13 5) (w.extractLsb' 0 13))
  | 6 => .ok (.ldoS (w.extractLsb' 23 2) (w.extractLsb' 18 5) (w.extractLsb' 13 5) (w.extractLsb' 0 13))
  | _ => .ok (.stoB (w.extractLsb' 18 5) (w.extractLsb' 13 5) (w.extractLsb' 0 13))

/-- The core words of OP 0x58 to 0x5F (R359). -/
def decodeCore0B (w : Word) : Except Reject Instr :=
  match (w.extractLsb' 23 3).toNat with
  | 0 => .ok (.stoH (w.extractLsb' 18 5) (w.extractLsb' 13 5) (w.extractLsb' 0 13))
  | 1 => .ok (.stoW (w.extractLsb' 18 5) (w.extractLsb' 13 5) (w.extractLsb' 0 13))
  | 2 => .ok (.sto (w.extractLsb' 18 5) (w.extractLsb' 13 5) (w.extractLsb' 0 13))
  | 3 => .ok (.aaddW (w.extractLsb' 18 5) (w.extractLsb' 13 5) (w.extractLsb' 8 5) (w.getLsbD 7) (w.getLsbD 6) (w.extractLsb' 3 3) (w.extractLsb' 1 2) (w.getLsbD 0))
  | 4 => .ok (.aadd (w.extractLsb' 18 5) (w.extractLsb' 13 5) (w.extractLsb' 8 5) (w.getLsbD 7) (w.getLsbD 6) (w.extractLsb' 3 3) (w.extractLsb' 1 2) (w.getLsbD 0))
  | 5 => .ok (.afadd (w.extractLsb' 18 5) (w.extractLsb' 13 5) (w.extractLsb' 8 5) (w.getLsbD 7) (w.getLsbD 6) (w.extractLsb' 3 3) (w.extractLsb' 1 2) (w.getLsbD 0))
  | 6 => .ok (.aandW (w.extractLsb' 18 5) (w.extractLsb' 13 5) (w.extractLsb' 8 5) (w.getLsbD 7) (w.getLsbD 6) (w.extractLsb' 3 3) (w.extractLsb' 1 2) (w.getLsbD 0))
  | _ => .ok (.aand (w.extractLsb' 18 5) (w.extractLsb' 13 5) (w.extractLsb' 8 5) (w.getLsbD 7) (w.getLsbD 6) (w.extractLsb' 3 3) (w.extractLsb' 1 2) (w.getLsbD 0))

/-- The core words of OP 0x60 to 0x67 (R359). -/
def decodeCore0C (w : Word) : Except Reject Instr :=
  match (w.extractLsb' 23 3).toNat with
  | 0 => .ok (.aorW (w.extractLsb' 18 5) (w.extractLsb' 13 5) (w.extractLsb' 8 5) (w.getLsbD 7) (w.getLsbD 6) (w.extractLsb' 3 3) (w.extractLsb' 1 2) (w.getLsbD 0))
  | 1 => .ok (.aor (w.extractLsb' 18 5) (w.extractLsb' 13 5) (w.extractLsb' 8 5) (w.getLsbD 7) (w.getLsbD 6) (w.extractLsb' 3 3) (w.extractLsb' 1 2) (w.getLsbD 0))
  | 2 => .ok (.axorW (w.extractLsb' 18 5) (w.extractLsb' 13 5) (w.extractLsb' 8 5) (w.getLsbD 7) (w.getLsbD 6) (w.extractLsb' 3 3) (w.extractLsb' 1 2) (w.getLsbD 0))
  | 3 => .ok (.axor (w.extractLsb' 18 5) (w.extractLsb' 13 5) (w.extractLsb' 8 5) (w.getLsbD 7) (w.getLsbD 6) (w.extractLsb' 3 3) (w.extractLsb' 1 2) (w.getLsbD 0))
  | 4 => .ok (.aminW (w.extractLsb' 18 5) (w.extractLsb' 13 5) (w.extractLsb' 8 5) (w.getLsbD 7) (w.getLsbD 6) (w.extractLsb' 3 3) (w.extractLsb' 1 2) (w.getLsbD 0))
  | 5 => .ok (.amin (w.extractLsb' 18 5) (w.extractLsb' 13 5) (w.extractLsb' 8 5) (w.getLsbD 7) (w.getLsbD 6) (w.extractLsb' 3 3) (w.extractLsb' 1 2) (w.getLsbD 0))
  | 6 => .ok (.aminuW (w.extractLsb' 18 5) (w.extractLsb' 13 5) (w.extractLsb' 8 5) (w.getLsbD 7) (w.getLsbD 6) (w.extractLsb' 3 3) (w.extractLsb' 1 2) (w.getLsbD 0))
  | _ => .ok (.aminu (w.extractLsb' 18 5) (w.extractLsb' 13 5) (w.extractLsb' 8 5) (w.getLsbD 7) (w.getLsbD 6) (w.extractLsb' 3 3) (w.extractLsb' 1 2) (w.getLsbD 0))

/-- The core words of OP 0x68 to 0x6F (R359). -/
def decodeCore0D (w : Word) : Except Reject Instr :=
  match (w.extractLsb' 23 3).toNat with
  | 0 => .ok (.amaxW (w.extractLsb' 18 5) (w.extractLsb' 13 5) (w.extractLsb' 8 5) (w.getLsbD 7) (w.getLsbD 6) (w.extractLsb' 3 3) (w.extractLsb' 1 2) (w.getLsbD 0))
  | 1 => .ok (.amax (w.extractLsb' 18 5) (w.extractLsb' 13 5) (w.extractLsb' 8 5) (w.getLsbD 7) (w.getLsbD 6) (w.extractLsb' 3 3) (w.extractLsb' 1 2) (w.getLsbD 0))
  | 2 => .ok (.amaxuW (w.extractLsb' 18 5) (w.extractLsb' 13 5) (w.extractLsb' 8 5) (w.getLsbD 7) (w.getLsbD 6) (w.extractLsb' 3 3) (w.extractLsb' 1 2) (w.getLsbD 0))
  | 3 => .ok (.amaxu (w.extractLsb' 18 5) (w.extractLsb' 13 5) (w.extractLsb' 8 5) (w.getLsbD 7) (w.getLsbD 6) (w.extractLsb' 3 3) (w.extractLsb' 1 2) (w.getLsbD 0))
  | 4 => .ok (.axchgW (w.extractLsb' 18 5) (w.extractLsb' 13 5) (w.extractLsb' 8 5) (w.getLsbD 7) (w.getLsbD 6) (w.extractLsb' 3 3) (w.extractLsb' 1 2) (w.getLsbD 0))
  | 5 => .ok (.axchg (w.extractLsb' 18 5) (w.extractLsb' 13 5) (w.extractLsb' 8 5) (w.getLsbD 7) (w.getLsbD 6) (w.extractLsb' 3 3) (w.extractLsb' 1 2) (w.getLsbD 0))
  | 6 => .ok (.acasW (w.extractLsb' 18 5) (w.extractLsb' 13 5) (w.extractLsb' 8 5) (w.getLsbD 7) (w.getLsbD 6) (w.extractLsb' 3 3) (w.extractLsb' 1 2) (w.getLsbD 0))
  | _ => .ok (.acas (w.extractLsb' 18 5) (w.extractLsb' 13 5) (w.extractLsb' 8 5) (w.getLsbD 7) (w.getLsbD 6) (w.extractLsb' 3 3) (w.extractLsb' 1 2) (w.getLsbD 0))

/-- The core words of OP 0x70 to 0x77 (R359). -/
def decodeCore0E (w : Word) : Except Reject Instr :=
  match (w.extractLsb' 23 3).toNat with
  | 0 => if w.extractLsb' 21 2 = 0#2 then .ok (.qrd (w.extractLsb' 23 2) (w.extractLsb' 18 3) (w.extractLsb' 13 5) (w.extractLsb' 8 5) (w.getLsbD 7) (w.getLsbD 6) (w.extractLsb' 3 3) (w.extractLsb' 0 3)) else .error .rsvd
  | 1 => if w.extractLsb' 21 2 = 0#2 then .ok (.qrd (w.extractLsb' 23 2) (w.extractLsb' 18 3) (w.extractLsb' 13 5) (w.extractLsb' 8 5) (w.getLsbD 7) (w.getLsbD 6) (w.extractLsb' 3 3) (w.extractLsb' 0 3)) else .error .rsvd
  | 2 => if w.extractLsb' 21 2 = 0#2 then .ok (.qrd (w.extractLsb' 23 2) (w.extractLsb' 18 3) (w.extractLsb' 13 5) (w.extractLsb' 8 5) (w.getLsbD 7) (w.getLsbD 6) (w.extractLsb' 3 3) (w.extractLsb' 0 3)) else .error .rsvd
  | 3 => if w.extractLsb' 21 2 = 0#2 then .ok (.qrd (w.extractLsb' 23 2) (w.extractLsb' 18 3) (w.extractLsb' 13 5) (w.extractLsb' 8 5) (w.getLsbD 7) (w.getLsbD 6) (w.extractLsb' 3 3) (w.extractLsb' 0 3)) else .error .rsvd
  | 4 => if w.extractLsb' 20 3 = 0#3 then .ok (.qwr (w.extractLsb' 23 2) (w.extractLsb' 18 2) (w.extractLsb' 13 5) (w.extractLsb' 8 5) (w.getLsbD 7) (w.getLsbD 6) (w.extractLsb' 3 3) (w.extractLsb' 0 3)) else .error .rsvd
  | 5 => if w.extractLsb' 20 3 = 0#3 then .ok (.qwr (w.extractLsb' 23 2) (w.extractLsb' 18 2) (w.extractLsb' 13 5) (w.extractLsb' 8 5) (w.getLsbD 7) (w.getLsbD 6) (w.extractLsb' 3 3) (w.extractLsb' 0 3)) else .error .rsvd
  | 6 => if w.extractLsb' 20 3 = 0#3 then .ok (.qwr (w.extractLsb' 23 2) (w.extractLsb' 18 2) (w.extractLsb' 13 5) (w.extractLsb' 8 5) (w.getLsbD 7) (w.getLsbD 6) (w.extractLsb' 3 3) (w.extractLsb' 0 3)) else .error .rsvd
  | _ => if w.extractLsb' 20 3 = 0#3 then .ok (.qwr (w.extractLsb' 23 2) (w.extractLsb' 18 2) (w.extractLsb' 13 5) (w.extractLsb' 8 5) (w.getLsbD 7) (w.getLsbD 6) (w.extractLsb' 3 3) (w.extractLsb' 0 3)) else .error .rsvd

/-- The core words of OP 0x78 to 0x7F (R359). -/
def decodeCore0F (w : Word) : Except Reject Instr :=
  match (w.extractLsb' 23 3).toNat with
  | 0 => .ok (.hinfo (w.extractLsb' 18 5) (w.extractLsb' 13 5) (w.extractLsb' 8 5) (w.getLsbD 7) (w.getLsbD 6) (w.extractLsb' 0 6))
  | 1 => if w.extractLsb' 0 7 = 0#7 ∧ w.extractLsb' 8 5 = 0#5 then .ok (.pub (w.extractLsb' 18 5) (w.extractLsb' 13 5) (w.getLsbD 7)) else .error .rsvd
  | 2 => if w.extractLsb' 0 7 = 0#7 then .ok (.copy (w.extractLsb' 18 5) (w.extractLsb' 13 5) (w.extractLsb' 8 5) (w.getLsbD 7)) else if w.extractLsb' 0 7 = 1#7 then .ok (.send (w.extractLsb' 18 5) (w.extractLsb' 13 5) (w.extractLsb' 8 5) (w.getLsbD 7)) else if w.extractLsb' 0 7 = 2#7 then .ok (.mcast (w.extractLsb' 18 5) (w.extractLsb' 13 5) (w.extractLsb' 8 5) (w.getLsbD 7)) else if w.extractLsb' 0 7 = 3#7 then .ok (.redw (w.extractLsb' 18 5) (w.extractLsb' 13 5) (w.extractLsb' 8 5) (w.getLsbD 7)) else if w.getLsbD 7 = false ∧ w.extractLsb' 18 5 ≠ 0#5 then .error .rsvd else .error .xfn
  | 3 => if w.extractLsb' 0 3 = 0#3 ∧ w.extractLsb' 18 5 = 0#5 then .ok (.brarv (w.extractLsb' 13 5) (w.extractLsb' 8 5) (w.getLsbD 7) (w.getLsbD 6) (w.extractLsb' 3 3)) else .error .rsvd
  | 4 => if w.extractLsb' 0 23 = 0#23 then .ok .mark else .error .rsvd
  | 5 => if w.extractLsb' 0 6 = 0#6 then .ok (.waita (w.extractLsb' 18 5) (w.extractLsb' 13 5) (w.extractLsb' 8 5) (w.getLsbD 7) (w.getLsbD 6)) else .error .rsvd
  | 6 => if w.extractLsb' 0 7 = 0#7 ∧ w.extractLsb' 8 5 = 0#5 then .ok (.waitc (w.extractLsb' 18 5) (w.extractLsb' 13 5) (w.getLsbD 7)) else .error .rsvd
  | _ => if w.extractLsb' 0 6 = 0#6 then .ok (.waitct (w.extractLsb' 18 5) (w.extractLsb' 13 5) (w.extractLsb' 8 5) (w.getLsbD 7) (w.getLsbD 6)) else .error .rsvd

/-- The core words of OP 0x80 to 0x87 (R359). -/
def decodeCore10 (w : Word) : Except Reject Instr :=
  match (w.extractLsb' 23 3).toNat with
  | 0 => if w.extractLsb' 6 2 = 0#2 then .ok (.vadd (w.extractLsb' 18 5) (w.extractLsb' 13 5) (w.extractLsb' 8 5) (w.getLsbD 5) (w.extractLsb' 0 5)) else .error .rsvd
  | 1 => if w.extractLsb' 6 2 = 0#2 then .ok (.vsub (w.extractLsb' 18 5) (w.extractLsb' 13 5) (w.extractLsb' 8 5) (w.getLsbD 5) (w.extractLsb' 0 5)) else .error .rsvd
  | 2 => if w.extractLsb' 6 2 = 0#2 then .ok (.vmul (w.extractLsb' 18 5) (w.extractLsb' 13 5) (w.extractLsb' 8 5) (w.getLsbD 5) (w.extractLsb' 0 5)) else .error .rsvd
  | 3 => if w.extractLsb' 6 2 = 0#2 then .ok (.vfma (w.extractLsb' 18 5) (w.extractLsb' 13 5) (w.extractLsb' 8 5) (w.getLsbD 5) (w.extractLsb' 0 5)) else .error .rsvd
  | 4 => if w.extractLsb' 6 2 = 0#2 then .ok (.vfms (w.extractLsb' 18 5) (w.extractLsb' 13 5) (w.extractLsb' 8 5) (w.getLsbD 5) (w.extractLsb' 0 5)) else .error .rsvd
  | 5 => if w.extractLsb' 6 2 = 0#2 then .ok (.vfnma (w.extractLsb' 18 5) (w.extractLsb' 13 5) (w.extractLsb' 8 5) (w.getLsbD 5) (w.extractLsb' 0 5)) else .error .rsvd
  | 6 => if w.extractLsb' 6 2 = 0#2 then .ok (.vadds (w.extractLsb' 18 5) (w.extractLsb' 13 5) (w.extractLsb' 8 5) (w.getLsbD 5) (w.extractLsb' 0 5)) else .error .rsvd
  | _ => if w.extractLsb' 6 2 = 0#2 then .ok (.vsubs (w.extractLsb' 18 5) (w.extractLsb' 13 5) (w.extractLsb' 8 5) (w.getLsbD 5) (w.extractLsb' 0 5)) else .error .rsvd

/-- The core words of OP 0x88 to 0x8F (R359). -/
def decodeCore11 (w : Word) : Except Reject Instr :=
  match (w.extractLsb' 23 3).toNat with
  | 0 => if w.extractLsb' 6 2 = 0#2 then .ok (.vmuls (w.extractLsb' 18 5) (w.extractLsb' 13 5) (w.extractLsb' 8 5) (w.getLsbD 5) (w.extractLsb' 0 5)) else .error .rsvd
  | 1 => if w.extractLsb' 6 2 = 0#2 then .ok (.vdiv (w.extractLsb' 18 5) (w.extractLsb' 13 5) (w.extractLsb' 8 5) (w.getLsbD 5) (w.extractLsb' 0 5)) else .error .rsvd
  | 2 => if w.extractLsb' 6 7 = 0#7 then .ok (.vabs (w.extractLsb' 18 5) (w.extractLsb' 13 5) (w.getLsbD 5) (w.extractLsb' 0 5)) else .error .rsvd
  | 3 => if w.extractLsb' 6 7 = 0#7 then .ok (.vneg (w.extractLsb' 18 5) (w.extractLsb' 13 5) (w.getLsbD 5) (w.extractLsb' 0 5)) else .error .rsvd
  | 4 => if w.extractLsb' 6 2 = 0#2 then .ok (.vmin (w.extractLsb' 18 5) (w.extractLsb' 13 5) (w.extractLsb' 8 5) (w.getLsbD 5) (w.extractLsb' 0 5)) else .error .rsvd
  | 5 => if w.extractLsb' 6 2 = 0#2 then .ok (.vmax (w.extractLsb' 18 5) (w.extractLsb' 13 5) (w.extractLsb' 8 5) (w.getLsbD 5) (w.extractLsb' 0 5)) else .error .rsvd
  | 6 => if w.extractLsb' 6 2 = 0#2 then .ok (.vclamp (w.extractLsb' 18 5) (w.extractLsb' 13 5) (w.extractLsb' 8 5) (w.getLsbD 5) (w.extractLsb' 0 5)) else .error .rsvd
  | _ => if w.extractLsb' 6 7 = 0#7 then .ok (.vrint (w.extractLsb' 18 5) (w.extractLsb' 13 5) (w.getLsbD 5) (w.extractLsb' 0 5)) else .error .rsvd

/-- The core words of OP 0x90 to 0x97 (R359). -/
def decodeCore12 (w : Word) : Except Reject Instr :=
  match (w.extractLsb' 23 3).toNat with
  | 0 => if w.extractLsb' 10 3 = 0#3 then .ok (.vcvt (w.extractLsb' 23 4) (w.extractLsb' 18 5) (w.extractLsb' 13 5) (w.getLsbD 9) (w.getLsbD 8) (w.extractLsb' 5 3) (w.extractLsb' 0 5)) else .error .rsvd
  | 1 => if w.extractLsb' 10 3 = 0#3 then .ok (.vcvt (w.extractLsb' 23 4) (w.extractLsb' 18 5) (w.extractLsb' 13 5) (w.getLsbD 9) (w.getLsbD 8) (w.extractLsb' 5 3) (w.extractLsb' 0 5)) else .error .rsvd
  | 2 => if w.extractLsb' 10 3 = 0#3 then .ok (.vcvt (w.extractLsb' 23 4) (w.extractLsb' 18 5) (w.extractLsb' 13 5) (w.getLsbD 9) (w.getLsbD 8) (w.extractLsb' 5 3) (w.extractLsb' 0 5)) else .error .rsvd
  | 3 => if w.extractLsb' 10 3 = 0#3 then .ok (.vcvt (w.extractLsb' 23 4) (w.extractLsb' 18 5) (w.extractLsb' 13 5) (w.getLsbD 9) (w.getLsbD 8) (w.extractLsb' 5 3) (w.extractLsb' 0 5)) else .error .rsvd
  | 4 => if w.extractLsb' 10 3 = 0#3 then .ok (.vcvt (w.extractLsb' 23 4) (w.extractLsb' 18 5) (w.extractLsb' 13 5) (w.getLsbD 9) (w.getLsbD 8) (w.extractLsb' 5 3) (w.extractLsb' 0 5)) else .error .rsvd
  | 5 => if w.extractLsb' 10 3 = 0#3 then .ok (.vcvt (w.extractLsb' 23 4) (w.extractLsb' 18 5) (w.extractLsb' 13 5) (w.getLsbD 9) (w.getLsbD 8) (w.extractLsb' 5 3) (w.extractLsb' 0 5)) else .error .rsvd
  | 6 => if w.extractLsb' 10 3 = 0#3 then .ok (.vcvt (w.extractLsb' 23 4) (w.extractLsb' 18 5) (w.extractLsb' 13 5) (w.getLsbD 9) (w.getLsbD 8) (w.extractLsb' 5 3) (w.extractLsb' 0 5)) else .error .rsvd
  | _ => if w.extractLsb' 10 3 = 0#3 then .ok (.vcvt (w.extractLsb' 23 4) (w.extractLsb' 18 5) (w.extractLsb' 13 5) (w.getLsbD 9) (w.getLsbD 8) (w.extractLsb' 5 3) (w.extractLsb' 0 5)) else .error .rsvd

/-- The core words of OP 0x98 to 0x9F (R359). -/
def decodeCore13 (w : Word) : Except Reject Instr :=
  match (w.extractLsb' 23 3).toNat with
  | 0 => if w.extractLsb' 10 3 = 0#3 then .ok (.vcvt (w.extractLsb' 23 4) (w.extractLsb' 18 5) (w.extractLsb' 13 5) (w.getLsbD 9) (w.getLsbD 8) (w.extractLsb' 5 3) (w.extractLsb' 0 5)) else .error .rsvd
  | 1 => if w.extractLsb' 10 3 = 0#3 then .ok (.vcvtN (w.extractLsb' 18 5) (w.extractLsb' 13 5) (w.getLsbD 9) (w.getLsbD 8) (w.extractLsb' 5 3) (w.extractLsb' 0 5)) else .error .rsvd
  | 2 => if w.extractLsb' 5 8 = 0#8 then .ok (.vexp (w.extractLsb' 18 5) (w.extractLsb' 13 5) (w.extractLsb' 0 5)) else .error .rsvd
  | 3 => if w.extractLsb' 5 8 = 0#8 then .ok (.vexp2 (w.extractLsb' 18 5) (w.extractLsb' 13 5) (w.extractLsb' 0 5)) else .error .rsvd
  | 4 => if w.extractLsb' 5 8 = 0#8 then .ok (.vlog (w.extractLsb' 18 5) (w.extractLsb' 13 5) (w.extractLsb' 0 5)) else .error .rsvd
  | 5 => if w.extractLsb' 5 8 = 0#8 then .ok (.vlog2 (w.extractLsb' 18 5) (w.extractLsb' 13 5) (w.extractLsb' 0 5)) else .error .rsvd
  | 6 => if w.extractLsb' 5 8 = 0#8 then .ok (.vrcp (w.extractLsb' 18 5) (w.extractLsb' 13 5) (w.extractLsb' 0 5)) else .error .rsvd
  | _ => if w.extractLsb' 5 8 = 0#8 then .ok (.vrsqrt (w.extractLsb' 18 5) (w.extractLsb' 13 5) (w.extractLsb' 0 5)) else .error .rsvd

/-- The core words of OP 0xA0 to 0xA7 (R359). -/
def decodeCore14 (w : Word) : Except Reject Instr :=
  match (w.extractLsb' 23 3).toNat with
  | 0 => if w.extractLsb' 5 8 = 0#8 then .ok (.vsqrt (w.extractLsb' 18 5) (w.extractLsb' 13 5) (w.extractLsb' 0 5)) else .error .rsvd
  | 1 => if w.extractLsb' 5 8 = 0#8 then .ok (.vtanh (w.extractLsb' 18 5) (w.extractLsb' 13 5) (w.extractLsb' 0 5)) else .error .rsvd
  | 2 => if w.extractLsb' 5 8 = 0#8 then .ok (.vsigm (w.extractLsb' 18 5) (w.extractLsb' 13 5) (w.extractLsb' 0 5)) else .error .rsvd
  | 3 => if w.extractLsb' 5 8 = 0#8 then .ok (.vsin (w.extractLsb' 18 5) (w.extractLsb' 13 5) (w.extractLsb' 0 5)) else .error .rsvd
  | 4 => if w.extractLsb' 5 8 = 0#8 then .ok (.vcos (w.extractLsb' 18 5) (w.extractLsb' 13 5) (w.extractLsb' 0 5)) else .error .rsvd
  | 5 => .ok (.vcmp (w.extractLsb' 18 5) (w.extractLsb' 13 5) (w.extractLsb' 8 5) (w.extractLsb' 5 3) (w.extractLsb' 0 5))
  | 6 => if w.extractLsb' 5 3 = 0#3 then .ok (.vsel (w.extractLsb' 18 5) (w.extractLsb' 13 5) (w.extractLsb' 8 5) (w.extractLsb' 0 5)) else .error .rsvd
  | _ => if w.extractLsb' 5 3 = 0#3 then .ok (.vand (w.extractLsb' 18 5) (w.extractLsb' 13 5) (w.extractLsb' 8 5) (w.extractLsb' 0 5)) else .error .rsvd

/-- The core words of OP 0xA8 to 0xAF (R359). -/
def decodeCore15 (w : Word) : Except Reject Instr :=
  match (w.extractLsb' 23 3).toNat with
  | 0 => if w.extractLsb' 5 3 = 0#3 then .ok (.vor (w.extractLsb' 18 5) (w.extractLsb' 13 5) (w.extractLsb' 8 5) (w.extractLsb' 0 5)) else .error .rsvd
  | 1 => if w.extractLsb' 5 3 = 0#3 then .ok (.vxor (w.extractLsb' 18 5) (w.extractLsb' 13 5) (w.extractLsb' 8 5) (w.extractLsb' 0 5)) else .error .rsvd
  | 2 => if w.extractLsb' 5 3 = 0#3 then .ok (.vandn (w.extractLsb' 18 5) (w.extractLsb' 13 5) (w.extractLsb' 8 5) (w.extractLsb' 0 5)) else .error .rsvd
  | 3 => if w.extractLsb' 5 8 = 0#8 then .ok (.vnot (w.extractLsb' 18 5) (w.extractLsb' 13 5) (w.extractLsb' 0 5)) else .error .rsvd
  | 4 => if w.extractLsb' 5 3 = 0#3 then .ok (.vsll (w.extractLsb' 18 5) (w.extractLsb' 13 5) (w.extractLsb' 8 5) (w.extractLsb' 0 5)) else .error .rsvd
  | 5 => if w.extractLsb' 5 3 = 0#3 then .ok (.vsrl (w.extractLsb' 18 5) (w.extractLsb' 13 5) (w.extractLsb' 8 5) (w.extractLsb' 0 5)) else .error .rsvd
  | 6 => if w.extractLsb' 5 3 = 0#3 then .ok (.vsra (w.extractLsb' 18 5) (w.extractLsb' 13 5) (w.extractLsb' 8 5) (w.extractLsb' 0 5)) else .error .rsvd
  | _ => if w.extractLsb' 5 8 = 0#8 then .ok (.vrsum (w.extractLsb' 18 5) (w.extractLsb' 13 5) (w.extractLsb' 0 5)) else .error .rsvd

/-- The core words of OP 0xB0 to 0xB7 (R359). -/
def decodeCore16 (w : Word) : Except Reject Instr :=
  match (w.extractLsb' 23 3).toNat with
  | 0 => if w.extractLsb' 5 8 = 0#8 then .ok (.vrsumsq (w.extractLsb' 18 5) (w.extractLsb' 13 5) (w.extractLsb' 0 5)) else .error .rsvd
  | 1 => if w.extractLsb' 5 8 = 0#8 then .ok (.vrmax (w.extractLsb' 18 5) (w.extractLsb' 13 5) (w.extractLsb' 0 5)) else .error .rsvd
  | 2 => if w.extractLsb' 5 8 = 0#8 then .ok (.vrmin (w.extractLsb' 18 5) (w.extractLsb' 13 5) (w.extractLsb' 0 5)) else .error .rsvd
  | 3 => if w.extractLsb' 5 8 = 0#8 then .ok (.vramax (w.extractLsb' 18 5) (w.extractLsb' 13 5) (w.extractLsb' 0 5)) else .error .rsvd
  | 4 => if w.extractLsb' 5 8 = 0#8 then .ok (.vscan (w.extractLsb' 18 5) (w.extractLsb' 13 5) (w.extractLsb' 0 5)) else .error .rsvd
  | 5 => if w.extractLsb' 5 8 = 0#8 then .ok (.vscanmax (w.extractLsb' 18 5) (w.extractLsb' 13 5) (w.extractLsb' 0 5)) else .error .rsvd
  | 6 => if w.extractLsb' 5 3 = 0#3 then .ok (.vscanseg (w.extractLsb' 18 5) (w.extractLsb' 13 5) (w.extractLsb' 8 5) (w.extractLsb' 0 5)) else .error .rsvd
  | _ => if w.extractLsb' 5 3 = 0#3 then .ok (.vperm (w.extractLsb' 18 5) (w.extractLsb' 13 5) (w.extractLsb' 8 5) (w.extractLsb' 0 5)) else .error .rsvd

/-- The core words of OP 0xB8 to 0xBF (R359). -/
def decodeCore17 (w : Word) : Except Reject Instr :=
  match (w.extractLsb' 23 3).toNat with
  | 0 => if w.extractLsb' 5 3 = 0#3 then .ok (.vrote (w.extractLsb' 18 5) (w.extractLsb' 13 5) (w.extractLsb' 8 5) (w.extractLsb' 0 5)) else .error .rsvd
  | 1 => if w.extractLsb' 5 3 = 0#3 then .ok (.vbcast (w.extractLsb' 18 5) (w.extractLsb' 13 5) (w.extractLsb' 8 5) (w.extractLsb' 0 5)) else .error .rsvd
  | 2 => if w.extractLsb' 5 8 = 0#8 then .ok (.vmov (w.extractLsb' 18 5) (w.extractLsb' 13 5) (w.extractLsb' 0 5)) else .error .rsvd
  | 3 => if w.extractLsb' 4 2 = 0#2 ∧ w.extractLsb' 7 1 = 0#1 then .ok (.vget (w.extractLsb' 18 5) (w.extractLsb' 13 5) (w.extractLsb' 8 5) (w.getLsbD 6) (w.extractLsb' 0 4)) else .error .rsvd
  | 4 => if w.extractLsb' 4 2 = 0#2 ∧ w.extractLsb' 7 1 = 0#1 then .ok (.vput (w.extractLsb' 18 5) (w.extractLsb' 13 5) (w.extractLsb' 8 5) (w.getLsbD 6) (w.extractLsb' 0 4)) else .error .rsvd
  | 5 => if w.extractLsb' 13 10 = 0#10 then .ok (.vshp (w.extractLsb' 9 4) (w.extractLsb' 4 5) (w.extractLsb' 0 4)) else .error .rsvd
  | 6 => if w.extractLsb' 0 7 = 0#7 ∧ w.extractLsb' 8 5 = 0#5 ∧ w.extractLsb' 18 5 = 0#5 then .ok (.vshpr (w.extractLsb' 13 5) (w.getLsbD 7)) else .error .rsvd
  | _ => if w.extractLsb' 5 8 = 0#8 then .ok (.vpopc (w.extractLsb' 18 5) (w.extractLsb' 13 5) (w.extractLsb' 0 5)) else .error .rsvd

/-- The core words of OP 0xC0 to 0xC7 (R359). -/
def decodeCore18 (w : Word) : Except Reject Instr :=
  match (w.extractLsb' 23 3).toNat with
  | 0 => if w.extractLsb' 6 7 = 0#7 then .ok (.mseta (w.getLsbD 23) (w.extractLsb' 18 5) (w.extractLsb' 13 5) (w.extractLsb' 3 3) (w.getLsbD 2) (w.getLsbD 1) (w.getLsbD 0)) else .error .rsvd
  | 1 => if w.extractLsb' 6 7 = 0#7 then .ok (.mseta (w.getLsbD 23) (w.extractLsb' 18 5) (w.extractLsb' 13 5) (w.extractLsb' 3 3) (w.getLsbD 2) (w.getLsbD 1) (w.getLsbD 0)) else .error .rsvd
  | 2 => if w.extractLsb' 0 13 = 0#13 then .ok (.msetac (w.getLsbD 23) (w.extractLsb' 18 5) (w.extractLsb' 13 5)) else .error .rsvd
  | 3 => if w.extractLsb' 0 13 = 0#13 then .ok (.msetac (w.getLsbD 23) (w.extractLsb' 18 5) (w.extractLsb' 13 5)) else .error .rsvd
  | 4 => if w.extractLsb' 0 13 = 0#13 then .ok (.minca (w.getLsbD 23) (w.extractLsb' 18 5) (w.extractLsb' 13 5)) else .error .rsvd
  | 5 => if w.extractLsb' 0 13 = 0#13 then .ok (.minca (w.getLsbD 23) (w.extractLsb' 18 5) (w.extractLsb' 13 5)) else .error .rsvd
  | 6 => if w.extractLsb' 6 7 = 0#7 then .ok (.msetb (w.getLsbD 23) (w.extractLsb' 18 5) (w.extractLsb' 13 5) (w.extractLsb' 3 3) (w.getLsbD 2) (w.getLsbD 1) (w.getLsbD 0)) else .error .rsvd
  | _ => if w.extractLsb' 6 7 = 0#7 then .ok (.msetb (w.getLsbD 23) (w.extractLsb' 18 5) (w.extractLsb' 13 5) (w.extractLsb' 3 3) (w.getLsbD 2) (w.getLsbD 1) (w.getLsbD 0)) else .error .rsvd

/-- The core words of OP 0xC8 to 0xCF (R359). -/
def decodeCore19 (w : Word) : Except Reject Instr :=
  match (w.extractLsb' 23 3).toNat with
  | 0 => if w.extractLsb' 0 13 = 0#13 then .ok (.msetbc (w.getLsbD 23) (w.extractLsb' 18 5) (w.extractLsb' 13 5)) else .error .rsvd
  | 1 => if w.extractLsb' 0 13 = 0#13 then .ok (.msetbc (w.getLsbD 23) (w.extractLsb' 18 5) (w.extractLsb' 13 5)) else .error .rsvd
  | 2 => if w.extractLsb' 0 13 = 0#13 then .ok (.mincb (w.getLsbD 23) (w.extractLsb' 18 5) (w.extractLsb' 13 5)) else .error .rsvd
  | 3 => if w.extractLsb' 0 13 = 0#13 then .ok (.mincb (w.getLsbD 23) (w.extractLsb' 18 5) (w.extractLsb' 13 5)) else .error .rsvd
  | 4 => if w.extractLsb' 6 12 = 0#12 then .ok (.msetc (w.getLsbD 23) (w.extractLsb' 18 5) (w.getLsbD 5) (w.getLsbD 4) (w.extractLsb' 0 4)) else .error .rsvd
  | 5 => if w.extractLsb' 6 12 = 0#12 then .ok (.msetc (w.getLsbD 23) (w.extractLsb' 18 5) (w.getLsbD 5) (w.getLsbD 4) (w.extractLsb' 0 4)) else .error .rsvd
  | 6 => if w.extractLsb' 0 13 = 0#13 then .ok (.msetcc (w.getLsbD 23) (w.extractLsb' 18 5) (w.extractLsb' 13 5)) else .error .rsvd
  | _ => if w.extractLsb' 0 13 = 0#13 then .ok (.msetcc (w.getLsbD 23) (w.extractLsb' 18 5) (w.extractLsb' 13 5)) else .error .rsvd

/-- The core words of OP 0xD0 to 0xD7 (R359). -/
def decodeCore1A (w : Word) : Except Reject Instr :=
  match (w.extractLsb' 23 3).toNat with
  | 0 => if w.extractLsb' 0 13 = 0#13 then .ok (.mincc (w.getLsbD 23) (w.extractLsb' 18 5) (w.extractLsb' 13 5)) else .error .rsvd
  | 1 => if w.extractLsb' 0 13 = 0#13 then .ok (.mincc (w.getLsbD 23) (w.extractLsb' 18 5) (w.extractLsb' 13 5)) else .error .rsvd
  | 2 => if w.extractLsb' 13 5 = 0#5 then .ok (.mfmt (w.getLsbD 23) (w.extractLsb' 18 5) (w.extractLsb' 0 13)) else .error .rsvd
  | 3 => if w.extractLsb' 13 5 = 0#5 then .ok (.mfmt (w.getLsbD 23) (w.extractLsb' 18 5) (w.extractLsb' 0 13)) else .error .rsvd
  | 4 => if w.extractLsb' 0 18 = 0#18 then .ok (.mstamp (w.getLsbD 23) (w.extractLsb' 18 5)) else .error .rsvd
  | 5 => if w.extractLsb' 0 18 = 0#18 then .ok (.mstamp (w.getLsbD 23) (w.extractLsb' 18 5)) else .error .rsvd
  | 6 => if w.extractLsb' 0 23 = 0#23 then .ok (.mmul (w.getLsbD 23)) else .error .rsvd
  | _ => if w.extractLsb' 0 23 = 0#23 then .ok (.mmul (w.getLsbD 23)) else .error .rsvd

/-- The core words of OP 0xD8 to 0xDF (R359). -/
def decodeCore1B (w : Word) : Except Reject Instr :=
  match (w.extractLsb' 23 3).toNat with
  | 0 => if w.extractLsb' 4 19 = 0#19 then .ok (.mzero (w.getLsbD 23) (w.extractLsb' 0 4)) else .error .rsvd
  | 1 => if w.extractLsb' 4 19 = 0#19 then .ok (.mzero (w.getLsbD 23) (w.extractLsb' 0 4)) else .error .rsvd
  | 2 => if w.extractLsb' 0 23 = 0#23 then .ok (.mdrain (w.getLsbD 23)) else .error .rsvd
  | 3 => if w.extractLsb' 0 23 = 0#23 then .ok (.mdrain (w.getLsbD 23)) else .error .rsvd
  | 4 => if w.extractLsb' 1 22 = 0#22 then .ok (.mwait (w.getLsbD 23) (w.getLsbD 0)) else .error .rsvd
  | 5 => if w.extractLsb' 1 22 = 0#22 then .ok (.mwait (w.getLsbD 23) (w.getLsbD 0)) else .error .rsvd
  | 6 => if w.extractLsb' 0 18 = 0#18 then .ok (.mprog (w.getLsbD 23) (w.extractLsb' 18 5)) else .error .rsvd
  | _ => if w.extractLsb' 0 18 = 0#18 then .ok (.mprog (w.getLsbD 23) (w.extractLsb' 18 5)) else .error .rsvd

/-- The core words of OP 0xE0 to 0xE7 (R359). -/
def decodeCore1C (w : Word) : Except Reject Instr :=
  match (w.extractLsb' 23 3).toNat with
  | 0 => if w.extractLsb' 20 3 = 0#3 then .ok (.fork (w.extractLsb' 18 2) (w.extractLsb' 0 18)) else .error .rsvd
  | 1 => if w.extractLsb' 0 23 = 0#23 then .ok .done else .error .rsvd
  | 2 => if w.extractLsb' 3 3 = 0#3 then .ok (.spawn (w.extractLsb' 18 5) (w.extractLsb' 13 5) (w.extractLsb' 8 5) (w.getLsbD 7) (w.getLsbD 6) (w.extractLsb' 0 3)) else .error .rsvd
  | 3 => if w.extractLsb' 3 3 = 0#3 then .ok (.join (w.extractLsb' 18 5) (w.extractLsb' 13 5) (w.extractLsb' 8 5) (w.getLsbD 7) (w.getLsbD 6) (w.extractLsb' 0 3)) else .error .rsvd
  | 4 => if w.extractLsb' 0 6 = 0#6 ∧ w.extractLsb' 18 5 = 0#5 then .ok (.phint (w.extractLsb' 13 5) (w.extractLsb' 8 5) (w.getLsbD 7) (w.getLsbD 6)) else .error .rsvd
  | 5 => .ok (.svc (w.extractLsb' 18 5) (w.extractLsb' 13 5) (w.extractLsb' 8 5) (w.getLsbD 7) (w.getLsbD 6) (w.extractLsb' 0 6))
  | 6 => if w.extractLsb' 0 7 = 0#7 ∧ w.extractLsb' 8 5 = 0#5 ∧ w.extractLsb' 18 5 = 0#5 then .ok (.iinv (w.extractLsb' 13 5) (w.getLsbD 7)) else .error .rsvd
  | _ => if w.extractLsb' 0 23 = 0#23 then .ok .commit else .error .rsvd

/-- The core words of OP 0xE8 to 0xEF (R359). -/
def decodeCore1D (w : Word) : Except Reject Instr :=
  match (w.extractLsb' 23 3).toNat with
  | 0 => if w.extractLsb' 4 9 = 0#9 ∧ w.extractLsb' 21 2 = 0#2 then .ok (.bset (w.extractLsb' 18 3) (w.extractLsb' 13 5) (w.extractLsb' 0 4)) else .error .rsvd
  | 1 => if w.extractLsb' 4 9 = 0#9 ∧ w.extractLsb' 18 5 = 0#5 then .ok (.barv (w.extractLsb' 13 5) (w.extractLsb' 0 4)) else .error .rsvd
  | 2 => if w.extractLsb' 4 9 = 0#9 ∧ w.extractLsb' 18 5 = 0#5 then .ok (.bwait (w.extractLsb' 13 5) (w.extractLsb' 0 4)) else .error .rsvd
  | 3 => if w.extractLsb' 4 9 = 0#9 ∧ w.extractLsb' 18 5 = 0#5 then .ok (.bsync (w.extractLsb' 13 5) (w.extractLsb' 0 4)) else .error .rsvd
  | 4 => if w.extractLsb' 4 9 = 0#9 ∧ w.extractLsb' 14 4 = 0#4 then .ok (.bstat (w.extractLsb' 18 5) (w.getLsbD 13) (w.extractLsb' 0 4)) else .error .rsvd
  | 5 => if w.extractLsb' 12 1 = 0#1 then .ok (.csrs (w.extractLsb' 18 5) (w.extractLsb' 13 5) (w.extractLsb' 0 12)) else .error .rsvd
  | 6 => if w.extractLsb' 12 1 = 0#1 then .ok (.csrc (w.extractLsb' 18 5) (w.extractLsb' 13 5) (w.extractLsb' 0 12)) else .error .rsvd
  | _ => if w.extractLsb' 0 7 = 0#7 ∧ w.extractLsb' 8 5 = 0#5 then .ok (.waitd (w.extractLsb' 18 5) (w.extractLsb' 13 5) (w.getLsbD 7)) else .error .rsvd

/-- The core words of OP 0xF0 to 0xF7 (R359). -/
def decodeCore1E (w : Word) : Except Reject Instr :=
  match (w.extractLsb' 23 3).toNat with
  | 0 => .ok (.trap (w.extractLsb' 23 4) (w.extractLsb' 0 23))
  | 1 => .ok (.trap (w.extractLsb' 23 4) (w.extractLsb' 0 23))
  | 2 => .ok (.trap (w.extractLsb' 23 4) (w.extractLsb' 0 23))
  | 3 => .ok (.trap (w.extractLsb' 23 4) (w.extractLsb' 0 23))
  | 4 => .ok (.trap (w.extractLsb' 23 4) (w.extractLsb' 0 23))
  | 5 => .ok (.trap (w.extractLsb' 23 4) (w.extractLsb' 0 23))
  | 6 => .ok (.trap (w.extractLsb' 23 4) (w.extractLsb' 0 23))
  | _ => .ok (.trap (w.extractLsb' 23 4) (w.extractLsb' 0 23))

/-- The core words of OP 0xF8 to 0xFF (R359). -/
def decodeCore1F (w : Word) : Except Reject Instr :=
  match (w.extractLsb' 23 3).toNat with
  | 0 => .ok (.trap (w.extractLsb' 23 4) (w.extractLsb' 0 23))
  | 1 => .ok (.trap (w.extractLsb' 23 4) (w.extractLsb' 0 23))
  | 2 => .ok (.trap (w.extractLsb' 23 4) (w.extractLsb' 0 23))
  | 3 => .ok (.trap (w.extractLsb' 23 4) (w.extractLsb' 0 23))
  | 4 => .ok (.trap (w.extractLsb' 23 4) (w.extractLsb' 0 23))
  | 5 => .ok (.trap (w.extractLsb' 23 4) (w.extractLsb' 0 23))
  | 6 => .ok (.trap (w.extractLsb' 23 4) (w.extractLsb' 0 23))
  | _ => if w.extractLsb' 16 7 = 0#7 then .ok (.brk (w.extractLsb' 0 16)) else .error .rsvd

/-- A core word's instruction, its S bit left aside (R352, R359). -/
def decodeCore (w : Word) : Except Reject Instr :=
  match (w.extractLsb' 26 5).toNat with
  | 0 => decodeCore00 w
  | 1 => decodeCore01 w
  | 2 => decodeCore02 w
  | 3 => decodeCore03 w
  | 4 => decodeCore04 w
  | 5 => decodeCore05 w
  | 6 => decodeCore06 w
  | 7 => decodeCore07 w
  | 8 => decodeCore08 w
  | 9 => decodeCore09 w
  | 10 => decodeCore0A w
  | 11 => decodeCore0B w
  | 12 => decodeCore0C w
  | 13 => decodeCore0D w
  | 14 => decodeCore0E w
  | 15 => decodeCore0F w
  | 16 => decodeCore10 w
  | 17 => decodeCore11 w
  | 18 => decodeCore12 w
  | 19 => decodeCore13 w
  | 20 => decodeCore14 w
  | 21 => decodeCore15 w
  | 22 => decodeCore16 w
  | 23 => decodeCore17 w
  | 24 => decodeCore18 w
  | 25 => decodeCore19 w
  | 26 => decodeCore1A w
  | 27 => decodeCore1B w
  | 28 => decodeCore1C w
  | 29 => decodeCore1D w
  | 30 => decodeCore1E w
  | _ => decodeCore1F w

/-- A core word: its S bit and its instruction, or the reason it has none (R352, R361). Total: every OP is assigned (R359). -/
def decode (w : Word) : Except Reject Decoded :=
  match decodeCore w with
  | .ok i => .ok (Decoded.mk (w.getLsbD 31) i)
  | .error r => .error r

/-- A Sage word's instruction (R365, R366); every other word is not a G instruction. -/
def decodeSage (w : Word) : Except Reject Instr :=
  match (w.extractLsb' 26 6).toNat with
  | 1 => if w.extractLsb' 0 13 = 0#13 ∧ w.extractLsb' 17 1 = 0#1 then .ok (.gadd (w.extractLsb' 22 4) (w.extractLsb' 18 4) (w.extractLsb' 13 4)) else if w.extractLsb' 17 1 = 1#1 then .ok (.gaddI (w.extractLsb' 22 4) (w.extractLsb' 18 4) (w.extractLsb' 0 17)) else .error .notG
  | 2 => if w.extractLsb' 0 13 = 0#13 ∧ w.extractLsb' 17 1 = 0#1 then .ok (.gsub (w.extractLsb' 22 4) (w.extractLsb' 18 4) (w.extractLsb' 13 4)) else if w.extractLsb' 17 1 = 1#1 then .ok (.gsubI (w.extractLsb' 22 4) (w.extractLsb' 18 4) (w.extractLsb' 0 17)) else .error .notG
  | 3 => if w.extractLsb' 0 13 = 0#13 ∧ w.extractLsb' 17 1 = 0#1 then .ok (.gmul (w.extractLsb' 22 4) (w.extractLsb' 18 4) (w.extractLsb' 13 4)) else if w.extractLsb' 17 1 = 1#1 then .ok (.gmulI (w.extractLsb' 22 4) (w.extractLsb' 18 4) (w.extractLsb' 0 17)) else .error .notG
  | 4 => if w.extractLsb' 0 13 = 0#13 ∧ w.extractLsb' 17 1 = 0#1 then .ok (.gand (w.extractLsb' 22 4) (w.extractLsb' 18 4) (w.extractLsb' 13 4)) else if w.extractLsb' 17 1 = 1#1 then .ok (.gandI (w.extractLsb' 22 4) (w.extractLsb' 18 4) (w.extractLsb' 0 17)) else .error .notG
  | 5 => if w.extractLsb' 0 13 = 0#13 ∧ w.extractLsb' 17 1 = 0#1 then .ok (.gor (w.extractLsb' 22 4) (w.extractLsb' 18 4) (w.extractLsb' 13 4)) else if w.extractLsb' 17 1 = 1#1 then .ok (.gorI (w.extractLsb' 22 4) (w.extractLsb' 18 4) (w.extractLsb' 0 17)) else .error .notG
  | 6 => if w.extractLsb' 0 13 = 0#13 ∧ w.extractLsb' 17 1 = 0#1 then .ok (.gxor (w.extractLsb' 22 4) (w.extractLsb' 18 4) (w.extractLsb' 13 4)) else if w.extractLsb' 17 1 = 1#1 then .ok (.gxorI (w.extractLsb' 22 4) (w.extractLsb' 18 4) (w.extractLsb' 0 17)) else .error .notG
  | 7 => if w.extractLsb' 0 13 = 0#13 ∧ w.extractLsb' 17 1 = 0#1 then .ok (.gsll (w.extractLsb' 22 4) (w.extractLsb' 18 4) (w.extractLsb' 13 4)) else if w.extractLsb' 17 1 = 1#1 then .ok (.gsllI (w.extractLsb' 22 4) (w.extractLsb' 18 4) (w.extractLsb' 0 17)) else .error .notG
  | 8 => if w.extractLsb' 0 13 = 0#13 ∧ w.extractLsb' 17 1 = 0#1 then .ok (.gsrl (w.extractLsb' 22 4) (w.extractLsb' 18 4) (w.extractLsb' 13 4)) else if w.extractLsb' 17 1 = 1#1 then .ok (.gsrlI (w.extractLsb' 22 4) (w.extractLsb' 18 4) (w.extractLsb' 0 17)) else .error .notG
  | 9 => if w.extractLsb' 16 4 = 8#4 then .ok (.gli (w.extractLsb' 22 4) (w.extractLsb' 20 2) (w.extractLsb' 0 16)) else if w.extractLsb' 16 4 = 0#4 then .ok (.gliK (w.extractLsb' 22 4) (w.extractLsb' 20 2) (w.extractLsb' 0 16)) else .error .notG
  | 10 => .ok (.gbeq (w.extractLsb' 22 4) (w.extractLsb' 18 4) (w.extractLsb' 0 18))
  | 11 => .ok (.gbne (w.extractLsb' 22 4) (w.extractLsb' 18 4) (w.extractLsb' 0 18))
  | 12 => .ok (.gblt (w.extractLsb' 22 4) (w.extractLsb' 18 4) (w.extractLsb' 0 18))
  | 13 => .ok (.gjmp (w.extractLsb' 22 4) (w.extractLsb' 18 4) (w.extractLsb' 0 18))
  | 14 => if w.extractLsb' 16 1 = 0#1 then .ok (.gld (w.extractLsb' 22 4) (w.extractLsb' 18 4) (w.getLsbD 17) (w.extractLsb' 14 2) (w.extractLsb' 0 14)) else .error .notG
  | 15 => .ok (.gst (w.extractLsb' 22 4) (w.extractLsb' 18 4) (w.getLsbD 17) (w.getLsbD 16) (w.extractLsb' 14 2) (w.extractLsb' 0 14))
  | 16 => if w.extractLsb' 12 5 = 0#5 then .ok (.gcsr (w.extractLsb' 22 4) (w.extractLsb' 18 4) (w.getLsbD 17) (w.extractLsb' 0 12)) else .error .notG
  | 17 => if w.extractLsb' 0 26 = 0#26 then .ok .gwait else .error .notG
  | 18 => if w.extractLsb' 0 26 = 0#26 then .ok .gev else .error .notG
  | 19 => if w.extractLsb' 0 14 = 0#14 ∧ w.extractLsb' 22 4 = 0#4 then .ok (.gsetw (w.extractLsb' 18 4) (w.extractLsb' 14 4)) else .error .notG
  | 20 => if w.extractLsb' 0 14 = 0#14 ∧ w.extractLsb' 22 4 = 0#4 then .ok (.gsetr (w.extractLsb' 18 4) (w.extractLsb' 14 4)) else .error .notG
  | 21 => if w.extractLsb' 3 11 = 0#11 ∧ w.extractLsb' 22 4 = 0#4 then .ok (.gwgt (w.extractLsb' 18 4) (w.extractLsb' 14 4) (w.extractLsb' 0 3)) else .error .notG
  | 22 => if w.extractLsb' 0 18 = 0#18 ∧ w.extractLsb' 22 4 = 0#4 then .ok (.gportDown (w.extractLsb' 18 4)) else if w.extractLsb' 0 18 = 1#18 ∧ w.extractLsb' 22 4 = 0#4 then .ok (.gportRetrain (w.extractLsb' 18 4)) else .error .notG
  | 23 => if w.extractLsb' 0 14 = 0#14 ∧ w.extractLsb' 22 4 = 0#4 then .ok (.gntfy (w.extractLsb' 18 4) (w.extractLsb' 14 4)) else .error .notG
  | 24 => if w.extractLsb' 0 14 = 0#14 ∧ w.extractLsb' 22 4 = 0#4 then .ok (.gsvc (w.extractLsb' 18 4) (w.extractLsb' 14 4)) else .error .notG
  | 25 => if w.extractLsb' 22 4 = 0#4 then .ok (.gsend (w.extractLsb' 18 4) (w.extractLsb' 14 4) (w.extractLsb' 0 14)) else .error .notG
  | 26 => if w.extractLsb' 0 14 = 0#14 ∧ w.extractLsb' 18 8 = 0#8 then .ok (.gfree (w.extractLsb' 14 4)) else .error .notG
  | _ => .error .notG

/-- The word of a core instruction with S bit `s`, from the encodings of R359 and the reference entries; nothing for an event or a Sage
instruction. -/
def encodeCore (s : Bool) : Instr → Option Word
  | .illegal c => some (BitVec.ofBool s ++ 0#8 ++ c)
  | .nop => some (BitVec.ofBool s ++ 8388608#31)
  | .add d a b m n w => some (BitVec.ofBool s ++ 2#8 ++ d ++ a ++ b ++ BitVec.ofBool m ++ BitVec.ofBool n ++ 0#5 ++ BitVec.ofBool w)
  | .sub d a b m n w => some (BitVec.ofBool s ++ 3#8 ++ d ++ a ++ b ++ BitVec.ofBool m ++ BitVec.ofBool n ++ 0#5 ++ BitVec.ofBool w)
  | .mul d a b m n w => some (BitVec.ofBool s ++ 4#8 ++ d ++ a ++ b ++ BitVec.ofBool m ++ BitVec.ofBool n ++ 0#5 ++ BitVec.ofBool w)
  | .mulh d a b m n w => some (BitVec.ofBool s ++ 5#8 ++ d ++ a ++ b ++ BitVec.ofBool m ++ BitVec.ofBool n ++ 0#5 ++ BitVec.ofBool w)
  | .mulhu d a b m n w => some (BitVec.ofBool s ++ 6#8 ++ d ++ a ++ b ++ BitVec.ofBool m ++ BitVec.ofBool n ++ 0#5 ++ BitVec.ofBool w)
  | .div d a b m n w => some (BitVec.ofBool s ++ 7#8 ++ d ++ a ++ b ++ BitVec.ofBool m ++ BitVec.ofBool n ++ 0#5 ++ BitVec.ofBool w)
  | .divu d a b m n w => some (BitVec.ofBool s ++ 8#8 ++ d ++ a ++ b ++ BitVec.ofBool m ++ BitVec.ofBool n ++ 0#5 ++ BitVec.ofBool w)
  | .rem d a b m n w => some (BitVec.ofBool s ++ 9#8 ++ d ++ a ++ b ++ BitVec.ofBool m ++ BitVec.ofBool n ++ 0#5 ++ BitVec.ofBool w)
  | .remu d a b m n w => some (BitVec.ofBool s ++ 10#8 ++ d ++ a ++ b ++ BitVec.ofBool m ++ BitVec.ofBool n ++ 0#5 ++ BitVec.ofBool w)
  | .and d a b m n => some (BitVec.ofBool s ++ 11#8 ++ d ++ a ++ b ++ BitVec.ofBool m ++ BitVec.ofBool n ++ 0#6)
  | .andn d a b m n => some (BitVec.ofBool s ++ 12#8 ++ d ++ a ++ b ++ BitVec.ofBool m ++ BitVec.ofBool n ++ 0#6)
  | .or d a b m n => some (BitVec.ofBool s ++ 13#8 ++ d ++ a ++ b ++ BitVec.ofBool m ++ BitVec.ofBool n ++ 0#6)
  | .xor d a b m n => some (BitVec.ofBool s ++ 14#8 ++ d ++ a ++ b ++ BitVec.ofBool m ++ BitVec.ofBool n ++ 0#6)
  | .sll d a b m n w => some (BitVec.ofBool s ++ 15#8 ++ d ++ a ++ b ++ BitVec.ofBool m ++ BitVec.ofBool n ++ 0#5 ++ BitVec.ofBool w)
  | .srl d a b m n w => some (BitVec.ofBool s ++ 16#8 ++ d ++ a ++ b ++ BitVec.ofBool m ++ BitVec.ofBool n ++ 0#5 ++ BitVec.ofBool w)
  | .sra d a b m n w => some (BitVec.ofBool s ++ 17#8 ++ d ++ a ++ b ++ BitVec.ofBool m ++ BitVec.ofBool n ++ 0#5 ++ BitVec.ofBool w)
  | .min d a b m n w => some (BitVec.ofBool s ++ 18#8 ++ d ++ a ++ b ++ BitVec.ofBool m ++ BitVec.ofBool n ++ 0#5 ++ BitVec.ofBool w)
  | .max d a b m n w => some (BitVec.ofBool s ++ 19#8 ++ d ++ a ++ b ++ BitVec.ofBool m ++ BitVec.ofBool n ++ 0#5 ++ BitVec.ofBool w)
  | .minu d a b m n w => some (BitVec.ofBool s ++ 20#8 ++ d ++ a ++ b ++ BitVec.ofBool m ++ BitVec.ofBool n ++ 0#5 ++ BitVec.ofBool w)
  | .maxu d a b m n w => some (BitVec.ofBool s ++ 21#8 ++ d ++ a ++ b ++ BitVec.ofBool m ++ BitVec.ofBool n ++ 0#5 ++ BitVec.ofBool w)
  | .mov d a m => some (BitVec.ofBool s ++ 22#8 ++ d ++ a ++ 0#5 ++ BitVec.ofBool m ++ 0#7)
  | .sel d a b m n g p => some (BitVec.ofBool s ++ 23#8 ++ d ++ a ++ b ++ BitVec.ofBool m ++ BitVec.ofBool n ++ 0#2 ++ BitVec.ofBool g ++ p)
  | .cmp p a b m n w c => some (BitVec.ofBool s ++ 96#10 ++ p ++ a ++ b ++ BitVec.ofBool m ++ BitVec.ofBool n ++ 0#1 ++ BitVec.ofBool w ++ c)
  | .pset d a b o => some (BitVec.ofBool s ++ 100#10 ++ d ++ 0#2 ++ a ++ 0#2 ++ b ++ 0#5 ++ o)
  | .addi d a i => some (BitVec.ofBool s ++ 26#8 ++ d ++ a ++ i)
  | .muli d a i => some (BitVec.ofBool s ++ 27#8 ++ d ++ a ++ i)
  | .andi d a i => some (BitVec.ofBool s ++ 28#8 ++ d ++ a ++ i)
  | .ori d a i => some (BitVec.ofBool s ++ 29#8 ++ d ++ a ++ i)
  | .xori d a i => some (BitVec.ofBool s ++ 30#8 ++ d ++ a ++ i)
  | .slli d a i => some (BitVec.ofBool s ++ 31#8 ++ d ++ a ++ 0#7 ++ i)
  | .srli d a i => some (BitVec.ofBool s ++ 32#8 ++ d ++ a ++ 0#7 ++ i)
  | .srai d a i => some (BitVec.ofBool s ++ 33#8 ++ d ++ a ++ 0#7 ++ i)
  | .mini d a i => some (BitVec.ofBool s ++ 34#8 ++ d ++ a ++ i)
  | .maxi d a i => some (BitVec.ofBool s ++ 35#8 ++ d ++ a ++ i)
  | .minui d a i => some (BitVec.ofBool s ++ 36#8 ++ d ++ a ++ i)
  | .maxui d a i => some (BitVec.ofBool s ++ 37#8 ++ d ++ a ++ i)
  | .cmpiEq p a i => some (BitVec.ofBool s ++ 152#10 ++ p ++ a ++ i)
  | .cmpiNe p a i => some (BitVec.ofBool s ++ 156#10 ++ p ++ a ++ i)
  | .cmpiLt p a i => some (BitVec.ofBool s ++ 160#10 ++ p ++ a ++ i)
  | .cmpiGe p a i => some (BitVec.ofBool s ++ 164#10 ++ p ++ a ++ i)
  | .cmpiLe p a i => some (BitVec.ofBool s ++ 168#10 ++ p ++ a ++ i)
  | .cmpiGt p a i => some (BitVec.ofBool s ++ 172#10 ++ p ++ a ++ i)
  | .cmpiLtu p a i => some (BitVec.ofBool s ++ 176#10 ++ p ++ a ++ i)
  | .cmpiGeu p a i => some (BitVec.ofBool s ++ 180#10 ++ p ++ a ++ i)
  | .cmpiLeu p a i => some (BitVec.ofBool s ++ 184#10 ++ p ++ a ++ i)
  | .cmpiGtu p a i => some (BitVec.ofBool s ++ 188#10 ++ p ++ a ++ i)
  | .li d i => some (BitVec.ofBool s ++ 48#8 ++ d ++ i)
  | .lih d i => some (BitVec.ofBool s ++ 49#8 ++ d ++ i)
  | .b p g o => some (BitVec.ofBool s ++ 50#8 ++ p ++ BitVec.ofBool g ++ o)
  | .bz a i => some (BitVec.ofBool s ++ 1632#13 ++ a ++ i)
  | .bnz a i => some (BitVec.ofBool s ++ 1664#13 ++ a ++ i)
  | .jmp a m => some (BitVec.ofBool s ++ 1696#13 ++ a ++ 0#5 ++ BitVec.ofBool m ++ 0#7)
  | .call d i => some (BitVec.ofBool s ++ 54#8 ++ d ++ i)
  | .callr d a m => some (BitVec.ofBool s ++ 55#8 ++ d ++ a ++ 0#5 ++ BitVec.ofBool m ++ 0#7)
  | .ret a m => some (BitVec.ofBool s ++ 1792#13 ++ a ++ 0#5 ++ BitVec.ofBool m ++ 0#7)
  | .loop k l a i => some (BitVec.ofBool s ++ 114#9 ++ k ++ BitVec.ofBool l ++ a ++ i)
  | .loopi k l n e => some (BitVec.ofBool s ++ 116#9 ++ k ++ BitVec.ofBool l ++ n ++ e)
  | .csrr d c => some (BitVec.ofBool s ++ 59#8 ++ d ++ 0#6 ++ c)
  | .csrw a c => some (BitVec.ofBool s ++ 1920#13 ++ a ++ 0#1 ++ c)
  | .waitfRead d a => some (BitVec.ofBool s ++ 61#8 ++ d ++ a ++ 0#13)
  | .waitfTake d a => some (BitVec.ofBool s ++ 61#8 ++ d ++ a ++ 1#13)
  | .waitfPut d a => some (BitVec.ofBool s ++ 61#8 ++ d ++ a ++ 2#13)
  | .waitfEmpty a => some (BitVec.ofBool s ++ 1952#13 ++ a ++ 3#13)
  | .fence e c => some (BitVec.ofBool s ++ 2031616#23 ++ e ++ c)
  | .rdv => some (BitVec.ofBool s ++ 528482304#31)
  | .ld w d a b m n c x => some (BitVec.ofBool s ++ 16#6 ++ w ++ d ++ a ++ b ++ BitVec.ofBool m ++ BitVec.ofBool n ++ c ++ BitVec.ofBool x ++ 0#2)
  | .ldAcq w d a b m n c x => some (BitVec.ofBool s ++ 17#6 ++ w ++ d ++ a ++ b ++ BitVec.ofBool m ++ BitVec.ofBool n ++ c ++ BitVec.ofBool x ++ 0#2)
  | .st w d a b m n c => some (BitVec.ofBool s ++ 18#6 ++ w ++ d ++ a ++ b ++ BitVec.ofBool m ++ BitVec.ofBool n ++ c ++ 0#3)
  | .stRel w d a b m n c => some (BitVec.ofBool s ++ 19#6 ++ w ++ d ++ a ++ b ++ BitVec.ofBool m ++ BitVec.ofBool n ++ c ++ 0#3)
  | .ldo w d a i => some (BitVec.ofBool s ++ 20#6 ++ w ++ d ++ a ++ i)
  | .ldoS w d a i => some (BitVec.ofBool s ++ 21#6 ++ w ++ d ++ a ++ i)
  | .stoB d a i => some (BitVec.ofBool s ++ 87#8 ++ d ++ a ++ i)
  | .stoH d a i => some (BitVec.ofBool s ++ 88#8 ++ d ++ a ++ i)
  | .stoW d a i => some (BitVec.ofBool s ++ 89#8 ++ d ++ a ++ i)
  | .sto d a i => some (BitVec.ofBool s ++ 90#8 ++ d ++ a ++ i)
  | .aaddW d a b m n c q r => some (BitVec.ofBool s ++ 91#8 ++ d ++ a ++ b ++ BitVec.ofBool m ++ BitVec.ofBool n ++ c ++ q ++ BitVec.ofBool r)
  | .aadd d a b m n c q r => some (BitVec.ofBool s ++ 92#8 ++ d ++ a ++ b ++ BitVec.ofBool m ++ BitVec.ofBool n ++ c ++ q ++ BitVec.ofBool r)
  | .afadd d a b m n c q r => some (BitVec.ofBool s ++ 93#8 ++ d ++ a ++ b ++ BitVec.ofBool m ++ BitVec.ofBool n ++ c ++ q ++ BitVec.ofBool r)
  | .aandW d a b m n c q r => some (BitVec.ofBool s ++ 94#8 ++ d ++ a ++ b ++ BitVec.ofBool m ++ BitVec.ofBool n ++ c ++ q ++ BitVec.ofBool r)
  | .aand d a b m n c q r => some (BitVec.ofBool s ++ 95#8 ++ d ++ a ++ b ++ BitVec.ofBool m ++ BitVec.ofBool n ++ c ++ q ++ BitVec.ofBool r)
  | .aorW d a b m n c q r => some (BitVec.ofBool s ++ 96#8 ++ d ++ a ++ b ++ BitVec.ofBool m ++ BitVec.ofBool n ++ c ++ q ++ BitVec.ofBool r)
  | .aor d a b m n c q r => some (BitVec.ofBool s ++ 97#8 ++ d ++ a ++ b ++ BitVec.ofBool m ++ BitVec.ofBool n ++ c ++ q ++ BitVec.ofBool r)
  | .axorW d a b m n c q r => some (BitVec.ofBool s ++ 98#8 ++ d ++ a ++ b ++ BitVec.ofBool m ++ BitVec.ofBool n ++ c ++ q ++ BitVec.ofBool r)
  | .axor d a b m n c q r => some (BitVec.ofBool s ++ 99#8 ++ d ++ a ++ b ++ BitVec.ofBool m ++ BitVec.ofBool n ++ c ++ q ++ BitVec.ofBool r)
  | .aminW d a b m n c q r => some (BitVec.ofBool s ++ 100#8 ++ d ++ a ++ b ++ BitVec.ofBool m ++ BitVec.ofBool n ++ c ++ q ++ BitVec.ofBool r)
  | .amin d a b m n c q r => some (BitVec.ofBool s ++ 101#8 ++ d ++ a ++ b ++ BitVec.ofBool m ++ BitVec.ofBool n ++ c ++ q ++ BitVec.ofBool r)
  | .aminuW d a b m n c q r => some (BitVec.ofBool s ++ 102#8 ++ d ++ a ++ b ++ BitVec.ofBool m ++ BitVec.ofBool n ++ c ++ q ++ BitVec.ofBool r)
  | .aminu d a b m n c q r => some (BitVec.ofBool s ++ 103#8 ++ d ++ a ++ b ++ BitVec.ofBool m ++ BitVec.ofBool n ++ c ++ q ++ BitVec.ofBool r)
  | .amaxW d a b m n c q r => some (BitVec.ofBool s ++ 104#8 ++ d ++ a ++ b ++ BitVec.ofBool m ++ BitVec.ofBool n ++ c ++ q ++ BitVec.ofBool r)
  | .amax d a b m n c q r => some (BitVec.ofBool s ++ 105#8 ++ d ++ a ++ b ++ BitVec.ofBool m ++ BitVec.ofBool n ++ c ++ q ++ BitVec.ofBool r)
  | .amaxuW d a b m n c q r => some (BitVec.ofBool s ++ 106#8 ++ d ++ a ++ b ++ BitVec.ofBool m ++ BitVec.ofBool n ++ c ++ q ++ BitVec.ofBool r)
  | .amaxu d a b m n c q r => some (BitVec.ofBool s ++ 107#8 ++ d ++ a ++ b ++ BitVec.ofBool m ++ BitVec.ofBool n ++ c ++ q ++ BitVec.ofBool r)
  | .axchgW d a b m n c q r => some (BitVec.ofBool s ++ 108#8 ++ d ++ a ++ b ++ BitVec.ofBool m ++ BitVec.ofBool n ++ c ++ q ++ BitVec.ofBool r)
  | .axchg d a b m n c q r => some (BitVec.ofBool s ++ 109#8 ++ d ++ a ++ b ++ BitVec.ofBool m ++ BitVec.ofBool n ++ c ++ q ++ BitVec.ofBool r)
  | .acasW d a b m n c q r => some (BitVec.ofBool s ++ 110#8 ++ d ++ a ++ b ++ BitVec.ofBool m ++ BitVec.ofBool n ++ c ++ q ++ BitVec.ofBool r)
  | .acas d a b m n c q r => some (BitVec.ofBool s ++ 111#8 ++ d ++ a ++ b ++ BitVec.ofBool m ++ BitVec.ofBool n ++ c ++ q ++ BitVec.ofBool r)
  | .qrd w q a b m n c k => some (BitVec.ofBool s ++ 28#6 ++ w ++ 0#2 ++ q ++ a ++ b ++ BitVec.ofBool m ++ BitVec.ofBool n ++ c ++ k)
  | .qwr w q a b m n c k => some (BitVec.ofBool s ++ 29#6 ++ w ++ 0#3 ++ q ++ a ++ b ++ BitVec.ofBool m ++ BitVec.ofBool n ++ c ++ k)
  | .hinfo d a b m n i => some (BitVec.ofBool s ++ 120#8 ++ d ++ a ++ b ++ BitVec.ofBool m ++ BitVec.ofBool n ++ i)
  | .pub d a m => some (BitVec.ofBool s ++ 121#8 ++ d ++ a ++ 0#5 ++ BitVec.ofBool m ++ 0#7)
  | .copy d a b r => some (BitVec.ofBool s ++ 122#8 ++ d ++ a ++ b ++ BitVec.ofBool r ++ 0#7)
  | .send d a b r => some (BitVec.ofBool s ++ 122#8 ++ d ++ a ++ b ++ BitVec.ofBool r ++ 1#7)
  | .mcast d a b r => some (BitVec.ofBool s ++ 122#8 ++ d ++ a ++ b ++ BitVec.ofBool r ++ 2#7)
  | .redw d a b r => some (BitVec.ofBool s ++ 122#8 ++ d ++ a ++ b ++ BitVec.ofBool r ++ 3#7)
  | .brarv a b m n c => some (BitVec.ofBool s ++ 3936#13 ++ a ++ b ++ BitVec.ofBool m ++ BitVec.ofBool n ++ c ++ 0#3)
  | .mark => some (BitVec.ofBool s ++ 1040187392#31)
  | .waita d a b m n => some (BitVec.ofBool s ++ 125#8 ++ d ++ a ++ b ++ BitVec.ofBool m ++ BitVec.ofBool n ++ 0#6)
  | .waitc d a m => some (BitVec.ofBool s ++ 126#8 ++ d ++ a ++ 0#5 ++ BitVec.ofBool m ++ 0#7)
  | .waitct d a b m n => some (BitVec.ofBool s ++ 127#8 ++ d ++ a ++ b ++ BitVec.ofBool m ++ BitVec.ofBool n ++ 0#6)
  | .vadd d a b r x => some (BitVec.ofBool s ++ 128#8 ++ d ++ a ++ b ++ 0#2 ++ BitVec.ofBool r ++ x)
  | .vsub d a b r x => some (BitVec.ofBool s ++ 129#8 ++ d ++ a ++ b ++ 0#2 ++ BitVec.ofBool r ++ x)
  | .vmul d a b r x => some (BitVec.ofBool s ++ 130#8 ++ d ++ a ++ b ++ 0#2 ++ BitVec.ofBool r ++ x)
  | .vfma d a b r x => some (BitVec.ofBool s ++ 131#8 ++ d ++ a ++ b ++ 0#2 ++ BitVec.ofBool r ++ x)
  | .vfms d a b r x => some (BitVec.ofBool s ++ 132#8 ++ d ++ a ++ b ++ 0#2 ++ BitVec.ofBool r ++ x)
  | .vfnma d a b r x => some (BitVec.ofBool s ++ 133#8 ++ d ++ a ++ b ++ 0#2 ++ BitVec.ofBool r ++ x)
  | .vadds d a b r x => some (BitVec.ofBool s ++ 134#8 ++ d ++ a ++ b ++ 0#2 ++ BitVec.ofBool r ++ x)
  | .vsubs d a b r x => some (BitVec.ofBool s ++ 135#8 ++ d ++ a ++ b ++ 0#2 ++ BitVec.ofBool r ++ x)
  | .vmuls d a b r x => some (BitVec.ofBool s ++ 136#8 ++ d ++ a ++ b ++ 0#2 ++ BitVec.ofBool r ++ x)
  | .vdiv d a b r x => some (BitVec.ofBool s ++ 137#8 ++ d ++ a ++ b ++ 0#2 ++ BitVec.ofBool r ++ x)
  | .vabs d a r x => some (BitVec.ofBool s ++ 138#8 ++ d ++ a ++ 0#7 ++ BitVec.ofBool r ++ x)
  | .vneg d a r x => some (BitVec.ofBool s ++ 139#8 ++ d ++ a ++ 0#7 ++ BitVec.ofBool r ++ x)
  | .vmin d a b r x => some (BitVec.ofBool s ++ 140#8 ++ d ++ a ++ b ++ 0#2 ++ BitVec.ofBool r ++ x)
  | .vmax d a b r x => some (BitVec.ofBool s ++ 141#8 ++ d ++ a ++ b ++ 0#2 ++ BitVec.ofBool r ++ x)
  | .vclamp d a b r x => some (BitVec.ofBool s ++ 142#8 ++ d ++ a ++ b ++ 0#2 ++ BitVec.ofBool r ++ x)
  | .vrint d a r x => some (BitVec.ofBool s ++ 143#8 ++ d ++ a ++ 0#7 ++ BitVec.ofBool r ++ x)
  | .vcvt f d a t r p x => some (BitVec.ofBool s ++ 9#4 ++ f ++ d ++ a ++ 0#3 ++ BitVec.ofBool t ++ BitVec.ofBool r ++ p ++ x)
  | .vcvtN d a t r p x => some (BitVec.ofBool s ++ 153#8 ++ d ++ a ++ 0#3 ++ BitVec.ofBool t ++ BitVec.ofBool r ++ p ++ x)
  | .vexp d a x => some (BitVec.ofBool s ++ 154#8 ++ d ++ a ++ 0#8 ++ x)
  | .vexp2 d a x => some (BitVec.ofBool s ++ 155#8 ++ d ++ a ++ 0#8 ++ x)
  | .vlog d a x => some (BitVec.ofBool s ++ 156#8 ++ d ++ a ++ 0#8 ++ x)
  | .vlog2 d a x => some (BitVec.ofBool s ++ 157#8 ++ d ++ a ++ 0#8 ++ x)
  | .vrcp d a x => some (BitVec.ofBool s ++ 158#8 ++ d ++ a ++ 0#8 ++ x)
  | .vrsqrt d a x => some (BitVec.ofBool s ++ 159#8 ++ d ++ a ++ 0#8 ++ x)
  | .vsqrt d a x => some (BitVec.ofBool s ++ 160#8 ++ d ++ a ++ 0#8 ++ x)
  | .vtanh d a x => some (BitVec.ofBool s ++ 161#8 ++ d ++ a ++ 0#8 ++ x)
  | .vsigm d a x => some (BitVec.ofBool s ++ 162#8 ++ d ++ a ++ 0#8 ++ x)
  | .vsin d a x => some (BitVec.ofBool s ++ 163#8 ++ d ++ a ++ 0#8 ++ x)
  | .vcos d a x => some (BitVec.ofBool s ++ 164#8 ++ d ++ a ++ 0#8 ++ x)
  | .vcmp d a b c x => some (BitVec.ofBool s ++ 165#8 ++ d ++ a ++ b ++ c ++ x)
  | .vsel d a b x => some (BitVec.ofBool s ++ 166#8 ++ d ++ a ++ b ++ 0#3 ++ x)
  | .vand d a b x => some (BitVec.ofBool s ++ 167#8 ++ d ++ a ++ b ++ 0#3 ++ x)
  | .vor d a b x => some (BitVec.ofBool s ++ 168#8 ++ d ++ a ++ b ++ 0#3 ++ x)
  | .vxor d a b x => some (BitVec.ofBool s ++ 169#8 ++ d ++ a ++ b ++ 0#3 ++ x)
  | .vandn d a b x => some (BitVec.ofBool s ++ 170#8 ++ d ++ a ++ b ++ 0#3 ++ x)
  | .vnot d a x => some (BitVec.ofBool s ++ 171#8 ++ d ++ a ++ 0#8 ++ x)
  | .vsll d a b x => some (BitVec.ofBool s ++ 172#8 ++ d ++ a ++ b ++ 0#3 ++ x)
  | .vsrl d a b x => some (BitVec.ofBool s ++ 173#8 ++ d ++ a ++ b ++ 0#3 ++ x)
  | .vsra d a b x => some (BitVec.ofBool s ++ 174#8 ++ d ++ a ++ b ++ 0#3 ++ x)
  | .vrsum d a x => some (BitVec.ofBool s ++ 175#8 ++ d ++ a ++ 0#8 ++ x)
  | .vrsumsq d a x => some (BitVec.ofBool s ++ 176#8 ++ d ++ a ++ 0#8 ++ x)
  | .vrmax d a x => some (BitVec.ofBool s ++ 177#8 ++ d ++ a ++ 0#8 ++ x)
  | .vrmin d a x => some (BitVec.ofBool s ++ 178#8 ++ d ++ a ++ 0#8 ++ x)
  | .vramax d a x => some (BitVec.ofBool s ++ 179#8 ++ d ++ a ++ 0#8 ++ x)
  | .vscan d a x => some (BitVec.ofBool s ++ 180#8 ++ d ++ a ++ 0#8 ++ x)
  | .vscanmax d a x => some (BitVec.ofBool s ++ 181#8 ++ d ++ a ++ 0#8 ++ x)
  | .vscanseg d a b x => some (BitVec.ofBool s ++ 182#8 ++ d ++ a ++ b ++ 0#3 ++ x)
  | .vperm d a b x => some (BitVec.ofBool s ++ 183#8 ++ d ++ a ++ b ++ 0#3 ++ x)
  | .vrote d a b x => some (BitVec.ofBool s ++ 184#8 ++ d ++ a ++ b ++ 0#3 ++ x)
  | .vbcast d a b x => some (BitVec.ofBool s ++ 185#8 ++ d ++ a ++ b ++ 0#3 ++ x)
  | .vmov d a x => some (BitVec.ofBool s ++ 186#8 ++ d ++ a ++ 0#8 ++ x)
  | .vget d a b n r => some (BitVec.ofBool s ++ 187#8 ++ d ++ a ++ b ++ 0#1 ++ BitVec.ofBool n ++ 0#2 ++ r)
  | .vput d a b n r => some (BitVec.ofBool s ++ 188#8 ++ d ++ a ++ b ++ 0#1 ++ BitVec.ofBool n ++ 0#2 ++ r)
  | .vshp f c b => some (BitVec.ofBool s ++ 193536#18 ++ f ++ c ++ b)
  | .vshpr a m => some (BitVec.ofBool s ++ 6080#13 ++ a ++ 0#5 ++ BitVec.ofBool m ++ 0#7)
  | .vpopc d a x => some (BitVec.ofBool s ++ 191#8 ++ d ++ a ++ 0#8 ++ x)
  | .mseta y a b n q w t => some (BitVec.ofBool s ++ 96#7 ++ BitVec.ofBool y ++ a ++ b ++ 0#7 ++ n ++ BitVec.ofBool q ++ BitVec.ofBool w ++ BitVec.ofBool t)
  | .msetac y a b => some (BitVec.ofBool s ++ 97#7 ++ BitVec.ofBool y ++ a ++ b ++ 0#13)
  | .minca y a b => some (BitVec.ofBool s ++ 98#7 ++ BitVec.ofBool y ++ a ++ b ++ 0#13)
  | .msetb y a b n q w t => some (BitVec.ofBool s ++ 99#7 ++ BitVec.ofBool y ++ a ++ b ++ 0#7 ++ n ++ BitVec.ofBool q ++ BitVec.ofBool w ++ BitVec.ofBool t)
  | .msetbc y a b => some (BitVec.ofBool s ++ 100#7 ++ BitVec.ofBool y ++ a ++ b ++ 0#13)
  | .mincb y a b => some (BitVec.ofBool s ++ 101#7 ++ BitVec.ofBool y ++ a ++ b ++ 0#13)
  | .msetc y a l r c => some (BitVec.ofBool s ++ 102#7 ++ BitVec.ofBool y ++ a ++ 0#12 ++ BitVec.ofBool l ++ BitVec.ofBool r ++ c)
  | .msetcc y a b => some (BitVec.ofBool s ++ 103#7 ++ BitVec.ofBool y ++ a ++ b ++ 0#13)
  | .mincc y a b => some (BitVec.ofBool s ++ 104#7 ++ BitVec.ofBool y ++ a ++ b ++ 0#13)
  | .mfmt y a i => some (BitVec.ofBool s ++ 105#7 ++ BitVec.ofBool y ++ a ++ 0#5 ++ i)
  | .mstamp y a => some (BitVec.ofBool s ++ 106#7 ++ BitVec.ofBool y ++ a ++ 0#18)
  | .mmul y => some (BitVec.ofBool s ++ 107#7 ++ BitVec.ofBool y ++ 0#23)
  | .mzero y c => some (BitVec.ofBool s ++ 108#7 ++ BitVec.ofBool y ++ 0#19 ++ c)
  | .mdrain y => some (BitVec.ofBool s ++ 109#7 ++ BitVec.ofBool y ++ 0#23)
  | .mwait y b => some (BitVec.ofBool s ++ 110#7 ++ BitVec.ofBool y ++ 0#22 ++ BitVec.ofBool b)
  | .mprog y a => some (BitVec.ofBool s ++ 111#7 ++ BitVec.ofBool y ++ a ++ 0#18)
  | .fork c i => some (BitVec.ofBool s ++ 1792#11 ++ c ++ i)
  | .done => some (BitVec.ofBool s ++ 1887436800#31)
  | .spawn d a b m n o => some (BitVec.ofBool s ++ 226#8 ++ d ++ a ++ b ++ BitVec.ofBool m ++ BitVec.ofBool n ++ 0#3 ++ o)
  | .join d a b m n o => some (BitVec.ofBool s ++ 227#8 ++ d ++ a ++ b ++ BitVec.ofBool m ++ BitVec.ofBool n ++ 0#3 ++ o)
  | .phint a b m n => some (BitVec.ofBool s ++ 7296#13 ++ a ++ b ++ BitVec.ofBool m ++ BitVec.ofBool n ++ 0#6)
  | .svc d a b m n i => some (BitVec.ofBool s ++ 229#8 ++ d ++ a ++ b ++ BitVec.ofBool m ++ BitVec.ofBool n ++ i)
  | .iinv a m => some (BitVec.ofBool s ++ 7360#13 ++ a ++ 0#5 ++ BitVec.ofBool m ++ 0#7)
  | .commit => some (BitVec.ofBool s ++ 1937768448#31)
  | .bset c a i => some (BitVec.ofBool s ++ 928#10 ++ c ++ a ++ 0#9 ++ i)
  | .barv a i => some (BitVec.ofBool s ++ 7456#13 ++ a ++ 0#9 ++ i)
  | .bwait a i => some (BitVec.ofBool s ++ 7488#13 ++ a ++ 0#9 ++ i)
  | .bsync a i => some (BitVec.ofBool s ++ 7520#13 ++ a ++ 0#9 ++ i)
  | .bstat d w i => some (BitVec.ofBool s ++ 236#8 ++ d ++ 0#4 ++ BitVec.ofBool w ++ 0#9 ++ i)
  | .csrs d a c => some (BitVec.ofBool s ++ 237#8 ++ d ++ a ++ 0#1 ++ c)
  | .csrc d a c => some (BitVec.ofBool s ++ 238#8 ++ d ++ a ++ 0#1 ++ c)
  | .waitd d a m => some (BitVec.ofBool s ++ 239#8 ++ d ++ a ++ 0#5 ++ BitVec.ofBool m ++ 0#7)
  | .trap v c => some (BitVec.ofBool s ++ 15#4 ++ v ++ c)
  | .brk i => some (BitVec.ofBool s ++ 32640#15 ++ i)
  | _ => none

/-- The word of a Sage instruction (R365, R366); nothing for any other. -/
def encodeSage : Instr → Option Word
  | .gadd d a b => some (1#6 ++ d ++ a ++ 0#1 ++ b ++ 0#13)
  | .gaddI d a i => some (1#6 ++ d ++ a ++ 1#1 ++ i)
  | .gsub d a b => some (2#6 ++ d ++ a ++ 0#1 ++ b ++ 0#13)
  | .gsubI d a i => some (2#6 ++ d ++ a ++ 1#1 ++ i)
  | .gmul d a b => some (3#6 ++ d ++ a ++ 0#1 ++ b ++ 0#13)
  | .gmulI d a i => some (3#6 ++ d ++ a ++ 1#1 ++ i)
  | .gand d a b => some (4#6 ++ d ++ a ++ 0#1 ++ b ++ 0#13)
  | .gandI d a i => some (4#6 ++ d ++ a ++ 1#1 ++ i)
  | .gor d a b => some (5#6 ++ d ++ a ++ 0#1 ++ b ++ 0#13)
  | .gorI d a i => some (5#6 ++ d ++ a ++ 1#1 ++ i)
  | .gxor d a b => some (6#6 ++ d ++ a ++ 0#1 ++ b ++ 0#13)
  | .gxorI d a i => some (6#6 ++ d ++ a ++ 1#1 ++ i)
  | .gsll d a b => some (7#6 ++ d ++ a ++ 0#1 ++ b ++ 0#13)
  | .gsllI d a i => some (7#6 ++ d ++ a ++ 1#1 ++ i)
  | .gsrl d a b => some (8#6 ++ d ++ a ++ 0#1 ++ b ++ 0#13)
  | .gsrlI d a i => some (8#6 ++ d ++ a ++ 1#1 ++ i)
  | .gli d h i => some (9#6 ++ d ++ h ++ 8#4 ++ i)
  | .gliK d h i => some (9#6 ++ d ++ h ++ 0#4 ++ i)
  | .gbeq a b o => some (10#6 ++ a ++ b ++ o)
  | .gbne a b o => some (11#6 ++ a ++ b ++ o)
  | .gblt a b o => some (12#6 ++ a ++ b ++ o)
  | .gjmp d a o => some (13#6 ++ d ++ a ++ o)
  | .gld d a p w o => some (14#6 ++ d ++ a ++ BitVec.ofBool p ++ 0#1 ++ w ++ o)
  | .gst d a p r w o => some (15#6 ++ d ++ a ++ BitVec.ofBool p ++ BitVec.ofBool r ++ w ++ o)
  | .gcsr d a w c => some (16#6 ++ d ++ a ++ BitVec.ofBool w ++ 0#5 ++ c)
  | .gwait => some (1140850688#32)
  | .gev => some (1207959552#32)
  | .gsetw a b => some (304#10 ++ a ++ b ++ 0#14)
  | .gsetr a b => some (320#10 ++ a ++ b ++ 0#14)
  | .gwgt a b j => some (336#10 ++ a ++ b ++ 0#11 ++ j)
  | .gportDown a => some (352#10 ++ a ++ 0#18)
  | .gportRetrain a => some (352#10 ++ a ++ 1#18)
  | .gntfy a b => some (368#10 ++ a ++ b ++ 0#14)
  | .gsvc a b => some (384#10 ++ a ++ b ++ 0#14)
  | .gsend a b l => some (400#10 ++ a ++ b ++ l)
  | .gfree b => some (6656#14 ++ b ++ 0#14)
  | _ => none

/-- The value of bytes in little-endian order (R3). -/
def leValue : List Byte → Nat
  | [] => 0
  | b :: bs => b.toNat + 256 * leValue bs

/-- `n` bytes of a value in little-endian order (R3). -/
def leBytes : Nat → Nat → List Byte
  | 0, _ => []
  | n + 1, v => BitVec.ofNat 8 v :: leBytes n (v / 256)

/-- The instruction whose word is stored as these bytes: a core word first, then a Sage word. -/
def decodeBytes (bs : List Byte) : Option Instr :=
  match decode (BitVec.ofNat 32 (leValue (bs.take 4))) with
  | .ok d => some d.instr
  | .error _ =>
    match decodeSage (BitVec.ofNat 32 (leValue (bs.take 4))) with
    | .ok i => some i
    | .error _ => none

/-- What the decoder reads from an instruction whose bits are `w`, `nbits` of them given by the opcode table: the word is laid out as
the hardware stores it and decoded. A core word and a Sage word may have the same bits: the core word is read (log 9). -/
def decodeTableWord (nbits w : Nat) : Option Instr :=
  if nbits = 0 then none else decodeBytes (leBytes 4 (w % 2 ^ nbits))

end Sys2Proof
end

