-- ==== Sys2Proof/Config.lean ====
section
/-!
DEFINITION. What the spec leaves to the implementation, and the free values: opaque constants, so that no proof can see a value of them.
A claim about one of them holds whatever it is.
-/

namespace Sys2Proof

/-- Which agent moves next: a cluster of a core issues its next word, a Sage core executes its next word, or one of the events of the
opcode table happens (the hardware's own steps and the inputs from outside alike). -/
inductive Mover where
  | word (core : Nat) (c : Cluster)
  | sage (g : Nat)
  | event (e : Event)
deriving DecidableEq, Repr, Inhabited

/-- The agent that moves at each step: nothing constrains it, so every interleaving of words, hardware steps and inputs is a behaviour
(log 2). -/
opaque Config.nextMover : Nat → Mover

/-- DEVID.STEP, "per stepping" (R25; log 3). -/
opaque Config.stepping : BitVec 8

/-- The nanoseconds a step takes beyond the first, by step number (R81; log 3). -/
opaque Config.dccAdvance : Nat → Nat

/-- Does a cached copy serve this access, by step number? Which records, residency entries and words a cache still holds is not given
(R164, R170, R329; log 3). -/
opaque Config.cacheServes : Nat → Bool

/-- A free choice among alternatives whose order the spec leaves open, by step number (R39, R187, R250; log 3). -/
opaque Config.pick : Nat → Nat

/-- Which of the FP32 results within the bound that the spec gives a transcendental has, by function and FP32 input (R467; log 3). -/
opaque Config.approx : Nat → Nat → Nat

/-- A free value that the spec does not state, by step number (log 3). -/
opaque Config.free : Nat → BitVec 64

/-- Does this signature of an image or a response verify under the fused keys (R275, R324, R325; log 3)? -/
opaque Config.verifies : Nat → Bool

/-- The bytes of a signature (R325; log 3). -/
opaque Config.signature : Nat → Nat → BitVec 8

/-- Does a boot step's own work succeed (R324; log 3)? -/
opaque Config.bootWorks : Nat → Nat → Bool

/-- Is the device cut off in the middle of a boot step, so that its journal entry stays STARTED (R324; log 3)? -/
opaque Config.bootCut : Nat → Nat → Bool

/-- The unit of R326 in which an error has been corrected, if any, by step number (log 3). -/
opaque Config.corrected : Nat → Option Nat

/-- The security version of a firmware image (R325; log 3). -/
opaque Config.imageVersion : Nat → Nat

/-- The digest of a firmware image, as a measurement gives it (R325; log 25). -/
opaque Config.digest : Nat → List (BitVec 8)

/-- The identity certificate chain in module flash (R325; log 25). -/
opaque Config.certificates : List (BitVec 8)

/-- The Sage firmware image, byte by byte (R275, R324; log 3). -/
opaque Config.firmware : Nat → BitVec 8

/-- The routing table that boot loads into a Sage core: the entry of each node (R272, R324; log 3). -/
opaque Config.routing : Nat → Nat → BitVec 256

/-- Does boot configuration name this device its pod's debug master (R333; log 3)? -/
opaque Config.debugMaster : Bool

/-- The node number that the boot configuration gives (R25, R271; log 3). -/
opaque Config.node : BitVec 11

/-- The 13 ports that boot configuration makes external, each as its place among those not yet named (R24, R271; log 3). The other 35 are fabric ports. -/
opaque Config.externalPick : Nat → Nat

/-- A free choice, by step number and place: in Chervil among outputs, positions of a unit and bridge ports (R259; log 67), in a translation cache of the
place that makes room (R164). -/
opaque Config.choice : Nat → Nat → Nat

/-- The flits of other messages that units ask Chervil to carry at each step, from unit to unit (R259; log 67): the cores 0 to 63, then the slices, the Sage
cores, the CXL ports and the host link. -/
opaque Config.traffic : Nat → List (Nat × Nat)

/-- The hash of an entropy value and a packet number that chooses a path (R273; log 3). -/
opaque Config.pathHash : Nat → Nat → Nat

/-- The Sage core whose transport serves a node, as its place among those with a path there (R272, R275; log 10). -/
opaque Config.sageFor : Nat → Nat

/-- Is the link partner of an external port an N7, so that the port runs in lane-erasure mode (R262; log 3)? -/
opaque Config.erasureMode : Nat → Bool

end Sys2Proof
end

