-- ==== Sys2Proof/Machine/Tab.lean ====
section
/-!
DEFINITION. A table of values by number, as plain data: cells with strictly rising keys; a key that is not listed reads as the table's
default. Memory is such a table of bytes (log 4).
-/

namespace Sys2Proof.Machine

/-- Cells (key, value); see `Tab.wf` for their canonical form. -/
structure Tab (α : Type) where
  cells : List (Nat × α)
deriving DecidableEq, Repr

/-- The table that lists nothing. -/
def Tab.empty {α : Type} : Tab α := ⟨[]⟩

/-- The value of the first cell with key `k`. -/
def findCell {α : Type} (k : Nat) : List (Nat × α) → Option α
  | [] => none
  | (j, v) :: r => if j = k then some v else findCell k r

/-- What key `k` reads as: its cell, or the default `d`. -/
def Tab.get {α : Type} (t : Tab α) (d : α) (k : Nat) : α := (findCell k t.cells).getD d

/-- The cell of key `k`, where one is listed. -/
def Tab.find {α : Type} (t : Tab α) (k : Nat) : Option α := findCell k t.cells

/-- Is key `k` listed? -/
def Tab.has {α : Type} (t : Tab α) (k : Nat) : Bool := (findCell k t.cells).isSome

/-- The cells without those of key `k`. -/
def dropCell {α : Type} (k : Nat) : List (Nat × α) → List (Nat × α)
  | [] => []
  | (j, v) :: r => if j = k then dropCell k r else (j, v) :: dropCell k r

/-- A cell put in its place among cells of rising keys. -/
def insertCell {α : Type} (k : Nat) (v : α) : List (Nat × α) → List (Nat × α)
  | [] => [(k, v)]
  | (j, w) :: r => if j < k then (j, w) :: insertCell k v r else (k, v) :: (j, w) :: r

/-- The table with key `k` not listed. -/
def Tab.erase {α : Type} (t : Tab α) (k : Nat) : Tab α := ⟨dropCell k t.cells⟩

/-- The table with key `k` listed as `v`, whatever the default. -/
def Tab.put {α : Type} (t : Tab α) (k : Nat) (v : α) : Tab α := ⟨insertCell k v (dropCell k t.cells)⟩

/-- The table with key `k` reading as `v`, in the canonical form for default `d`: the default itself is not listed. -/
def Tab.set {α : Type} [DecidableEq α] (t : Tab α) (d : α) (k : Nat) (v : α) : Tab α :=
  if v = d then t.erase k else t.put k v

/-- Are the keys strictly rising? -/
def risingKeys {α : Type} : List (Nat × α) → Bool
  | [] => true
  | [_] => true
  | (j, _) :: (k, v) :: r => decide (j < k) && risingKeys ((k, v) :: r)

/-- Is no value the default? -/
def noDefault {α : Type} [DecidableEq α] (d : α) : List (Nat × α) → Bool
  | [] => true
  | (_, v) :: r => decide (v ≠ d) && noDefault d r

/-- The canonical form: keys strictly rising, the default not listed. -/
def Tab.wf {α : Type} [DecidableEq α] (t : Tab α) (d : α) : Bool := risingKeys t.cells && noDefault d t.cells

/-- The keys listed. -/
def Tab.keys {α : Type} (t : Tab α) : List Nat := t.cells.map Prod.fst

/-- The values listed. -/
def Tab.values {α : Type} (t : Tab α) : List α := t.cells.map Prod.snd

/-- The table with every listed value changed by `f`. -/
def Tab.mapValues {α : Type} (t : Tab α) (f : α → α) : Tab α := ⟨t.cells.map fun (e : Nat × α) => (e.1, f e.2)⟩

/-- Memory: bytes by address; an unlisted byte reads 0 (log 4). -/
abbrev Memory := Tab Byte

/-- One byte. -/
def Memory.byte (m : Memory) (a : Nat) : Byte := Tab.get m 0 a

/-- `n` bytes from address `a`. -/
def Memory.bytes (m : Memory) (a : Nat) : Nat → List Byte
  | 0 => []
  | n + 1 => Memory.byte m a :: Memory.bytes m (a + 1) n

/-- One byte written. -/
def Memory.setByte (m : Memory) (a : Nat) (b : Byte) : Memory := Tab.set m 0 a b

/-- Bytes written from address `a`. -/
def Memory.setBytes (m : Memory) (a : Nat) : List Byte → Memory
  | [] => m
  | b :: r => Memory.setBytes (Memory.setByte m a b) (a + 1) r

/-- The value of bytes in little-endian order (R3). -/
def natOfBytes : List Byte → Nat
  | [] => 0
  | b :: r => b.toNat + 256 * natOfBytes r

/-- `n` bytes of a value in little-endian order (R3). -/
def bytesOfNat : Nat → Nat → List Byte
  | 0, _ => []
  | n + 1, v => BitVec.ofNat 8 v :: bytesOfNat n (v / 256)

/-- The little-endian value of `n` bytes at `a` (R3). -/
def Memory.read (m : Memory) (a n : Nat) : Nat := natOfBytes (Memory.bytes m a n)

/-- A value stored in `n` bytes at `a`, little-endian (R3). -/
def Memory.write (m : Memory) (a n v : Nat) : Memory := Memory.setBytes m a (bytesOfNat n v)

/-- The canonical form of a memory. -/
def Memory.wf (m : Memory) : Bool := Tab.wf m 0

end Sys2Proof.Machine
end

