-- ==== Sys2Proof/Machine/State.lean ====
section
/-!
DEFINITION. The state of the whole device as plain data, the reasons a step can stop, and the machine right after reset. INVENTORY.md
lists every field with the rule that names it and its reset value.
-/

namespace Sys2Proof.Machine

/-- Why a step ends in a fault. -/
inductive Fault where
  /-- A Sage core that has stopped is asked to execute (R286). Raised by no step of a running Sage core. Safe: nothing runs. -/
  | sageStopped
deriving DecidableEq, Repr

/-- Why a step has no meaning. -/
inductive Refusal where
  /-- The instruction of that mnemonic has no meaning in this model yet. Raised by an arm of `exec`. Safe: nothing is claimed of it. -/
  | notModelled (mnemonic : String)
deriving DecidableEq, Repr

/-- One change of a scalar register: when it takes effect, whose it is, and what the register then is (R91). For a control register the
value is the one before the change. -/
structure Change where
  cycle : Nat
  writer : Cluster
  val : DWord
  full : Bool
deriving DecidableEq, Repr

/-- A pending producer (R92): the cluster whose word issued it, the divider it may hold, and its result once it has one. -/
structure Producer where
  writer : Cluster
  divider : Bool
  result : Option DWord
deriving DecidableEq, Repr

/-- A scalar register (R90): its changes, newest first, as far back as some cluster may still see; before them it is 0 and full (R114). -/
structure Scalar where
  hist : List Change
  pending : Option Producer
deriving DecidableEq, Repr

/-- A scalar register at task start (R114). -/
def Scalar.start : Scalar := ⟨[], none⟩

/-- A hardware loop (R98). -/
structure Loop where
  lps : DWord
  lpc : DWord
  lpx : DWord
deriving DecidableEq, Repr

/-- A loop at task start (R114). -/
def Loop.start : Loop := ⟨0, 0, 0⟩

/-- One issue-slot cluster (R55): its run bit, program counter, predicates, loops, FEMODE, sync wait, and how far its word has got: since when it
has been tried, what it waits for now and since when; and, of a word that waits with its operands read, the scalars as it read them and what it has found by
them. -/
structure ClusterState where
  running : Bool
  pc : Int
  pred : Byte
  loop0 : Loop
  loop1 : Loop
  femode : DWord
  syncCount : Nat
  syncWait : Bool
  lock : Bool
  reex : Bool
  satisfied : Bool
  stage : Nat
  since : Option Nat
  waitKind : Nat
  waitObj : DWord
  waitFrom : Nat
  syncSince : Option Nat
  lastCmdClock : Nat
  haltDue : Bool
  seen : List (DWord × Bool)
  found : List Nat
deriving DecidableEq, Repr

/-- A cluster at task start (R56, R114): stopped, p0 = 1, LIMIT 0x0010_0000. -/
def ClusterState.start : ClusterState where
  running := false
  pc := 0
  pred := 1
  loop0 := .start
  loop1 := .start
  femode := 0x0010000000000000
  syncCount := 0
  syncWait := false
  lock := false
  reex := false
  satisfied := false
  stage := 0
  since := none
  waitKind := 0
  waitObj := 0
  waitFrom := 0
  syncSince := none
  lastCmdClock := 0
  haltDue := false
  seen := []
  found := []

/-- The states of a continuation record (R33), in the coding of R83. -/
inductive CrState where
  | pending | ready | running | suspended | ended
deriving DecidableEq, Repr

/-- A continuation record (R32, R83). -/
structure Cr where
  ready : DWord
  dscope : BitVec 3
  qnum : BitVec 16
  launch : BitVec 32
  idx : BitVec 128
  inst : BitVec 16
  state : CrState
  domain : BitVec 3
  prio : BitVec 5
  pkind : Bool
  joinc : BitVec 16
  poff : BitVec 32
  ph : BitVec 32
  foff : BitVec 32
  fh : BitVec 32
  coff : BitVec 32
  ch : BitVec 32
deriving DecidableEq, Repr

/-- The record of no task. -/
def Cr.none : Cr := ⟨0, 0, 0, 0, 0, 0, .ended, 0, 0, false, 0, 0, 0, 0, 0, 0, 0⟩

/-- A continuation record's address in its context: which context, slot handle and offset. A launch completion group is named apart (R45). -/
structure HoldRef where
  handle : BitVec 32
  offset : BitVec 32
  isGroup : Bool
deriving DecidableEq, Repr

/-- An entry of the pending-spawn buffer (R49): a JOIN with its slot, or a SPAWN. -/
structure HeldEntry where
  isJoin : Bool
  cr : Cr
  slotH : BitVec 32
  slotO : BitVec 32
deriving DecidableEq, Repr

/-- A byte that a version holds, of which `mask` tells the bits: a 4-bit element is its nibble alone (R150, R187). -/
structure VByte where
  val : Byte
  mask : Byte
deriving DecidableEq, Repr

/-- Where an element's bytes are: a device address, a scratchpad offset, another node with the byte offset forwarded to it, a pad value, or nowhere (R154,
R158). -/
inductive Place where
  | device (addr : Nat)
  | scratch (off : Nat)
  | remote (node off : Nat)
  | pad (v : Nat)
  | drop
deriving DecidableEq, Repr

/-- One element of an access: its place, its byte offset in the object and the bit within that byte (R150), its width in bits, and the
device address of its residency entry where the object is resident (R156). -/
structure Part where
  place : Place
  off : Nat
  bit : Nat
  width : Nat
  ru : Option Nat
deriving DecidableEq, Repr

/-- What an access of a cluster does at its home (R176 to R182, R184). -/
inductive AccessOp where
  | load (d : BitVec 5) (width : Nat) (signed : Bool)
  | store (v : Nat)
  | atomic (op : AtomOp) (wide : Bool) (v cmp : DWord) (d : Option (BitVec 5)) (signed : Bool)
  | queueRow (q : Nat) (ticket : Nat)
  | notify (slot : Option Nat) (v : DWord)
  | fence (set : BitVec 5)
  | mark
  | arrive (core : Nat) (bar : BitVec 4) (round launch : BitVec 32) (node : Option (BitVec 11))
  | command (fn : BitVec 7) (h : BitVec 32) (ib : DWord) (d : Option (BitVec 5))
deriving DecidableEq, Repr

/-- How far an access has got: not yet performed; sent to another node and not answered; waiting for the residency unit of its metadata
(R211). An access that has been performed is no longer listed. -/
inductive Phase where
  | issued | sent | waiting
deriving DecidableEq, Repr

/-- An entry of a load queue that is reserved (R106, R445): the access that fills it, its row once that has arrived, and the request as an image has it (R308):
handle, byte offset, length, node, qualifier and scope. -/
structure Ticket where
  id : Nat
  row : Option Row
  handle : BitVec 32
  off : Nat
  len : Nat
  node : Nat
  qual : Nat
deriving DecidableEq, Repr

/-- What a word that issued and is then cancelled puts back (R290): which word of its cluster it was, by the number of its first access, the cluster as it stood at it, the scalar
it emptied, and the entries it took from a store queue. -/
structure Before where
  word : Nat
  cl : ClusterState
  dest : Option (BitVec 5 × DWord × Bool)
  rows : Option (Nat × List Row)
deriving DecidableEq, Repr

/-- An access in the queues of a core (R176): who issued it, by which unit (R289) and where, what it does, its elements, its ordering fields (R180), what
Sorrel needs of it (R212), and what its word puts back if it is cancelled; nothing, of a row of a drain or of an image, which no word issues again. -/
structure Access where
  id : Nat
  cluster : Cluster
  unit : Nat
  pc : Int
  code : Nat
  handle : BitVec 32
  coord : List Int
  op : AccessOp
  parts : List Part
  acq : Bool
  rel : Bool
  scope : BitVec 3
  versioned : Bool
  mode : BitVec 2
  checked : Bool
  metaH : BitVec 32
  span : Nat
  phase : Phase
  since : Nat
  before : Option Before
deriving DecidableEq, Repr

/-- The step registers of one array that hold operands (R223, R224). -/
structure StepRegs where
  ma : BitVec 256
  mb : BitVec 256
  mc : BitVec 256
deriving DecidableEq, Repr

/-- Step registers of zero. -/
def StepRegs.zero : StepRegs := ⟨0, 0, 0⟩

/-- The MMUL in the pending slot (R227): its registers, the format entry read for it (R138), its stamp, its place in the order (R234), and whether its checks
have passed, which a saved one makes again (R240); when it entered; its race mode (R215); the steps of B preloaded and the rows of A staged, each with its
scales (R230, R231); whether it waits with a checked read, and since when (R211). -/
structure PendingOp where
  regs : StepRegs
  entry : BitVec 128
  stamp : DWord
  seq : Nat
  pc : Int
  index : Option Nat
  checked : Bool
  entered : Nat
  mode : BitVec 2
  steps : List (List Nat × List Nat)
  staged : List (List Nat × List Nat)
  waiting : Bool
  since : Nat
deriving DecidableEq, Repr

/-- An operation an array works on: an issued MMUL with its latched B by columns, the rows of A staged and the number entered, or a drain with its next row
(R231, R232, R236); its race mode (R215). After a restart B is preloaded again, in steps (R238). -/
structure ArrayOp where
  isDrain : Bool
  regs : StepRegs
  entry : BitVec 128
  seq : Nat
  row : Nat
  b : List (List Nat)
  bScale : List (List Nat)
  ta : BitVec 32
  tb : BitVec 32
  waiting : Bool
  since : Nat
  latched : Bool
  pc : Int
  mode : BitVec 2
  steps : List (List Nat × List Nat)
  staged : List (List Nat × List Nat)
deriving DecidableEq, Repr

/-- One systolic array (R110, R223 to R240), with the cycle of its last array issue, where there was one (R232). -/
structure ArrayState where
  regs : StepRegs
  mf : DWord
  ms : DWord
  mprog : DWord
  pend : Option PendingOp
  ops : List ArrayOp
  issuedAt : Option Nat
deriving DecidableEq, Repr

/-- An array at task start (R114). -/
def ArrayState.start : ArrayState := ⟨.zero, 0, 0, 0, none, [], none⟩

/-- The recorded state of an accumulator (R226, R299): FRESH, the two per-tensor scale patterns, and whether it is known zero. -/
structure AccState where
  fresh : Bool
  ta : BitVec 32
  tb : BitVec 32
  zero : Bool
deriving DecidableEq, Repr

/-- An accumulator at task start. -/
def AccState.start : AccState := ⟨true, 0, 0, true⟩

/-- The vector instruction whose row steps are under way (R105): its OP, selectors and sub field, the shape it started with, its next row,
the scalar it broadcasts and its conversion's descriptor. -/
structure VecOp where
  op : Byte
  d : BitVec 5
  a : BitVec 5
  b : BitVec 5
  sub : BitVec 3
  shape : DWord
  row : Nat
  scal : DWord
  desc : BitVec 16
deriving DecidableEq, Repr

/-- A barrier (R378), with the joined vector clocks of the arrivals of its completed rounds, of round COMPL and of the next (R203). -/
structure Barrier where
  exp : BitVec 16
  arr : BitVec 16
  arrn : BitVec 16
  compl : BitVec 32
  scope : BitVec 3
  err : Bool
  drop : BitVec 32
  isSet : Bool
  joined : Tab Nat
  clocks : Tab Nat
  clocksN : Tab Nat
  last : BitVec 9
deriving DecidableEq, Repr

/-- A barrier at task start (R378). -/
def Barrier.start : Barrier := ⟨0, 0, 0, 0, 0, false, 0, false, .empty, .empty, .empty, 0x1FE⟩

/-- How an engine command, or one member of a multicast, failed (R254, R255): the status, the handle concerned, the cause. -/
structure Failure where
  status : Nat
  handle : BitVec 32
  fcode : Byte
deriving DecidableEq, Repr

/-- An engine command in flight (R246 to R256): its identifier, function, descriptor, issuing cluster's clock, vector clock and race mode;
the nodes it delivers to; its work still to do as (member, destination chunk, elements of the chunk already sent); the bits written by
member; the failures by member; the packets not yet answered; whether it waits at a residency unit or for its metadata's, and since when;
DCC at its issue; above which chunk none has been started; whether it is squashed, and how many chunks that drops (R302). -/
structure Command where
  id : BitVec 16
  fn : BitVec 7
  desc : BitVec 512
  clk : Nat
  vc : Tab Nat
  mode : BitVec 2
  members : List Nat
  work : List (Nat × Nat × Nat)
  bits : Tab Nat
  fails : Tab Failure
  unacked : Nat
  waiting : Option (Nat × Nat × Nat)
  waitMeta : Bool
  waitHandle : BitVec 32
  since : Nat
  issued : Nat
  top : Nat
  finished : Tab Nat
  squash : Bool
  dropped : Nat
deriving DecidableEq, Repr

/-- A reassembly slot (R261): the access it serves and the flits that have arrived. -/
structure Slot32 where
  msg : Nat
  access : Nat
  mask : Byte
  data : Tab (BitVec 512)
deriving DecidableEq, Repr

/-- Elements of another node that an engine command, an array or a word asks for (R154, R270): the request's tag, who asks, the handle, the node, the byte
offset and the bytes, whether the request has gone, and its answer. -/
structure RemoteRead where
  id : Nat
  who : Nat
  handle : BitVec 32
  node : Nat
  off : Nat
  len : Nat
  sent : Bool
  value : Option Nat
  failed : Option Answer
deriving DecidableEq, Repr

/-- How a stop is reported (R296 KIND): a trap, a restartable fault (debug stops alike), a gang stop, a die-bridge discard. -/
inductive StopKind where
  | trap | fault | gang | bridge
deriving DecidableEq, Repr

/-- A stop of the task (R287 to R296): its kind, what TRAPC and TRAPV say, the coordinate and residency unit of the access concerned, and
whether its record has been written, and the engine commands in flight at it. -/
structure Stop where
  kind : StopKind
  trapc : DWord
  trapv : DWord
  coord : List Int
  ru : Nat
  orig : BitVec 6
  dcc : Nat
  debug : Bool
  recorded : Bool
  waitingRing : Bool
  infl : Nat
deriving DecidableEq, Repr

/-- A preemption request pending on a core (R297): the DCC by which a forced save begins. -/
structure Preempt where
  deadline : Nat
  asked : Nat
deriving DecidableEq, Repr

/-- A save in progress (R301): what it names live (R298), how far it has got, and the engine commands in flight at the stop. -/
structure Save where
  forced : Bool
  badList : Bool
  lt : BitVec 16
  ls : BitVec 32
  lq : Byte
  lw : BitVec 4
  ranges : List (Nat × Nat)
  drained : Bool
  drainStart : Nat
  infl : Nat
deriving DecidableEq, Repr

/-- What the core loaded from the context and partition descriptors when the task started or resumed (R316, R317). -/
structure ContextData where
  ctx : BitVec 16
  part : BitVec 16
  root : DWord
  job : BitVec 24
  dl : Nat
  dbg : Bool
  rmode : BitVec 2
  tring : DWord
  rring : DWord
  fsdl : Nat
deriving DecidableEq, Repr

/-- No context. -/
def ContextData.none : ContextData := ⟨0, 0, 0, 0, 0, false, 0, 0, 0, 0⟩

/-- A service call whose reply a core waits for (R319): identifier, service, argument, the context and frame object of its task; and the
answer once it is back. -/
structure SvcWait where
  callId : DWord
  service : BitVec 6
  arg : DWord
  ctx : BitVec 16
  frame : BitVec 32
  answer : Option DWord
deriving DecidableEq, Repr

/-- One core (R16) and the task it runs (R32, R62 to R65, R114). -/
structure Core where
  -- the task
  busy : Bool
  started : Bool
  key : Nat
  launchKey : Nat
  gang : Option (Nat × Nat)
  cr : Cr
  ctx : ContextData
  openJoin : Option HoldRef
  ids : BitVec 256
  tinfo : DWord
  tframe : DWord
  ageus : DWord
  syncto : DWord
  ftb : DWord
  fts : DWord
  trapc : DWord
  trapv : DWord
  rmode : DWord
  csrHist : Tab (List Change)
  vresLines : Nat
  spawn : List HeldEntry
  cmdn : BitVec 16
  cmdClk : Tab Nat
  commits : BitVec 32
  commitDcc : DWord
  -- registers
  scal : Tab Scalar
  clusters : Tab ClusterState
  shp : DWord
  mstat : DWord
  tiles : Tab Row
  loadq : Tab (List Row)
  loadqTickets : Tab (List Ticket)
  storeq : Tab (List Row)
  acc : Tab (BitVec 32)
  accs : Tab AccState
  arrayX : ArrayState
  arrayY : ArrayState
  vop : Option VecOp
  seq : Nat
  barriers : Tab Barrier
  -- memory side
  scratch : Memory
  version : Tab VByte
  versionRu : Tab (List Nat)
  versionOf : Tab (List Nat)
  committing : Option (Tab VByte)
  remoteReads : List RemoteRead
  accesses : List Access
  nextId : Nat
  commands : List Command
  slots : Tab Slot32
  recCache : Tab (BitVec 512)
  ruCache : Tab DWord
  icache : Tab (Word × Nat)
  -- stops
  stop : Option Stop
  pendingTrap : Option Stop
  preempt : Option Preempt
  save : Option Save
  svc : Option SvcWait
  -- debug
  dxw : DWord
  dxwWord : Word
  dxwCluster : BitVec 2
  dxwIssued : Option Nat
  dctl : DWord
  dbuf : BitVec 192
  lostOwed : Bool
  lostFirst : DWord
  lostCount : Nat
  halting : Bool
  haltLate : BitVec 4
  haltAsked : Nat
  viewWrites : List (Nat × Byte)
  sampledAt : Nat
deriving DecidableEq, Repr

/-- A core right after reset: idle; the registers of a task at their start values (R114). -/
def Core.start : Core where
  busy := false
  started := false
  key := 0
  launchKey := 0
  gang := none
  cr := .none
  ctx := .none
  openJoin := none
  ids := 0
  tinfo := 0
  tframe := 0
  ageus := 0x03E8
  syncto := 0x00010000
  ftb := 0
  fts := 0
  trapc := 0
  trapv := 0
  rmode := 0
  csrHist := .empty
  vresLines := 0
  spawn := []
  cmdn := 0
  cmdClk := .empty
  commits := 0
  commitDcc := 0
  scal := .empty
  clusters := .empty
  shp := 0x0000000000001000
  mstat := 0
  tiles := .empty
  loadq := .empty
  loadqTickets := .empty
  storeq := .empty
  acc := .empty
  accs := .empty
  arrayX := .start
  arrayY := .start
  vop := none
  seq := 0
  barriers := .empty
  scratch := .empty
  version := .empty
  versionRu := .empty
  versionOf := .empty
  committing := none
  remoteReads := []
  accesses := []
  nextId := 0
  commands := []
  slots := .empty
  recCache := .empty
  ruCache := .empty
  icache := .empty
  stop := none
  pendingTrap := none
  preempt := none
  save := none
  svc := none
  dxw := 0
  dxwWord := 0
  dxwCluster := 0
  dxwIssued := none
  dctl := 0x0000000100000000
  dbuf := 0x600000000000
  lostOwed := false
  lostFirst := 0
  lostCount := 0
  halting := false
  haltLate := 0
  haltAsked := 0
  viewWrites := []
  sampledAt := 0

/-- The four states of a hardware queue slot (R68). -/
inductive SlotState where
  | free | mapped | unmapping
deriving DecidableEq, Repr

/-- A hardware queue slot (R66 to R73): its SLOTCTL, the mapped queue's parameters, counts and ageing, and the
address of its descriptor. -/
structure QueueSlot where
  desca : Nat
  merr : Bool
  state : SlotState
  head : BitVec 32
  tail : BitVec 32
  err : Byte
  logn : Nat
  ringh : BitVec 32
  readyh : BitVec 32
  readyn : Nat
  ctx : BitVec 16
  qnum : BitVec 16
  basep : Nat
  ageus : Nat
  boost : Nat
  intervalStart : Nat
  mappedAt : Nat
deriving DecidableEq, Repr

/-- A slot at reset (R68): free. -/
def QueueSlot.start : QueueSlot :=
  ⟨0, false, .free, 0, 0, 0, 0, 0, 0, 0, 0, 0, 0, 0, 0, 0, 0⟩

/-- A launch in flight (R35, R45, R84): its queue and record, how many tasks this device has of it and which are expanded, its counts, the status
of its completion record (0 while open) and since when that waits at a residency unit; the level-0 instances of a fabric launch that are this
device's; counts by level-0 group (R313); the dies its tasks have run on. -/
structure Launch where
  slot : Nat
  qnum : BitVec 16
  ctx : BitVec 16
  record : BitVec 1024
  total : Nat
  expanded : List Nat
  alive : Nat
  endedDone : Nat
  trapped : Nat
  status : Nat
  flevel : Nat
  heldSince : Option Nat
  mine : Option (List Nat)
  level0 : Tab Nat
  dieMask : BitVec 2
deriving DecidableEq, Repr

/-- What the device keeps of a saved task that its image has no place for (log 13): the residency entries of its version's lines, and the records they were written through; the
bytes of its version that are nibbles, the clocks of its barriers, its count of commits, the clocks of its engine commands, the stamps of its pending MMULs, and a debug stop that it is owed. -/
structure Kept where
  rus : Tab (List Nat)
  recs : Tab (List Nat)
  nibbles : Tab Byte
  barriers : Tab Barrier
  commits : BitVec 32
  commitDcc : DWord
  cmdClk : Tab Nat
  lastCmds : List Nat
  stamps : List DWord
  owed : Option Stop
deriving DecidableEq, Repr

/-- Nothing kept. -/
def Kept.none : Kept := ⟨.empty, .empty, .empty, .empty, 0, 0, .empty, [], [], Option.none⟩

/-- A Ready continuation record in a queue's ready area (R71, R303): its launch, its gang (instance key and size), its save reference,
whether expansion created it, the core where its gang failed, its slot in the ready area, what is kept of a saved task, and whether another device left
it there (R311). -/
structure ReadyCr where
  key : Nat
  launch : Nat
  cr : Cr
  ctx : BitVec 16
  gang : Option (Nat × Nat)
  saveRef : DWord
  fromExpansion : Bool
  failedGang : Option (BitVec 6)
  slot : Nat
  kept : Kept
  moved : Bool
deriving DecidableEq, Repr

/-- A gang's reservation of cores (R78): the gang, its domain, its die's scheduler, the cores of its unit and those held so far. -/
structure Reservation where
  launch : Nat
  gang : Nat
  domain : Nat
  die : Nat
  unit : List Nat
  cores : List Nat
deriving DecidableEq, Repr

/-- A frame lock (R168): old and new frame, how many frames, whether it has been released and so redirects, the bytes written meanwhile, and the writing
accesses that have arrived, by core and number, in the order they arrived. -/
structure FrameLock where
  old : Nat
  new : Nat
  frames : Nat
  released : Bool
  held : List (Nat × VByte)
  queue : List (Nat × Nat)
deriving DecidableEq, Repr

/-- A service core (R18): RV64IMAC with machine and supervisor modes, and 256 KiB of SRAM of its own, which tasks do not see. What it runs is the service
kernel, which the spec does not give: its acts are events (log 14, log 64). -/
structure ServiceCore where
  running : Bool
  pc : DWord
  regs : Tab DWord
  machine : Bool
  sram : Memory
deriving DecidableEq, Repr

/-- A service core at reset: not started, in machine mode. -/
def ServiceCore.start : ServiceCore := ⟨false, 0, .empty, true, .empty⟩

/-- A slice (R18): its control registers, caches, fault ring and locks, the calls and the other instances'
requests that wait for its instance (R318, R319), the instance's journal (R321), its service core, the LLC ways that have failed and those for race metadata (R31,
R173), and the host's requests that a flip holds (R197). -/
structure Slice where
  frb : DWord
  tinv : DWord
  hbias : DWord
  flipping : Option (Nat × Bool)
  locks : List FrameLock
  records : Tab (BitVec 512)
  rus : Tab DWord
  mailbox : List (Nat × SvcWait)
  requests : List (Nat × SvcWait)
  journal : List (BitVec 256)
  expired : List (BitVec 16 × DWord)
  interrupts : List DWord
  service : ServiceCore
  failedWays : BitVec 16
  metaWays : Nat
  hostHeld : List (Nat × HostReq)
deriving DecidableEq, Repr

/-- A slice at reset. -/
def Slice.start : Slice := ⟨0, 0, 0x2, none, [], .empty, .empty, [], [], [], [], [], .start, 0, 0, []⟩

/-- A port (R262, R263): down, failed lanes, whether it retrains; packets waiting in its escape store, and the last of its slots that is taken, with whether
by a packet in transit of age 16 or more (R274). -/
structure Port where
  down : Bool
  failed : BitVec 4
  retraining : Bool
  escape : List Transit
  slot : Option (Nat × Bool)
deriving DecidableEq, Repr

/-- A port at reset: up, all lanes working. -/
def Port.start : Port := ⟨false, 0, false, [], none⟩

/-- A packet of a delivery context, not yet acknowledged or failed (R265): its number, node, header and payload, its length and that of its data, the command or access it belongs to,
when it was first and last sent, its timeout in µs, since when it has been answered not ready; whether it waits at the source to be sent, and whether its
bytes count as in flight (R281, R282). -/
structure OutPacket where
  psn : BitVec 32
  node : BitVec 11
  packet : Packet
  size : Nat
  data : Nat
  owner : Nat
  isCommand : Bool
  core : Nat
  firstSent : Nat
  sentAt : Nat
  timeout : Nat
  ent : Nat
  notReady : Option Nat
  due : Bool
  counted : Bool
deriving DecidableEq, Repr

/-- A packet delivery context (R281): window, rate, payload bytes in flight, next number, unacknowledged packets, and when its rate lets it send again. -/
structure Pdc where
  isOpen : Bool
  node : BitVec 11
  cwnd : Nat
  rate : Nat
  inflight : Nat
  nextPsn : BitVec 32
  unacked : List OutPacket
  nextAt : Nat
deriving DecidableEq, Repr

/-- A context at reset: not open, the initial window (R281). -/
def Pdc.start : Pdc := ⟨false, 0, 65536, 0, 0, 0, [], 0⟩

/-- A Sage core (R275). -/
structure Sage where
  running : Bool
  stopped : Bool
  failed : Bool
  pc : Int
  regs : Tab DWord
  imem : Memory
  dmem : Memory
  evHead : Nat
  evOcc : Nat
  evDrop : Nat
  lastPop : Nat
  dbgAlloc : Tab Bool
  dbgSending : Tab (Nat × BitVec 32)
  pdown : BitVec 6
  routes : Tab (BitVec 256)
deriving DecidableEq, Repr

/-- A Sage core at reset: not started, nothing queued. -/
def Sage.start : Sage :=
  ⟨false, false, false, 0, .empty, .empty, .empty, 0, 0, 0, 0, .empty, .empty, 0, .empty⟩

/-- What this device has answered to a packet (R264, R265): the answer, of the 64 packets before it those it has answered, and whether the packet came marked. -/
structure Reply where
  packet : Packet
  answer : Answer
  bitmap : BitVec 64
  ecn : Bool
deriving DecidableEq, Repr

/-- An entry of the boot journal (R324): 1 STARTED, 2 DONE, 3 FAILED or 4 SKIPPED, and whether on the alternative path. -/
structure BootEntry where
  state : Nat
  alt : Bool
deriving DecidableEq, Repr

/-- What the device has answered to a party outside it: data or poison to a host read (R315), a response of SPDM with its measurements or the
certificate chain and its two signatures (R325), bytes or the refusal of a debug view (R332), a reply of Huazu (R333). -/
inductive Response where
  | data (bytes : List Byte)
  | poison
  | spdm (challenge : Bool) (request : List Byte) (measurements : List (List Byte)) (chain ecdsa lms : List Byte)
  | view (bytes : List Byte)
  | refused
  | huazu (h : Huazu)
deriving DecidableEq, Repr

/-- A quad's injection throttle (R77, R260): its rate, the one the scheduler sampled; the window of 16 cycles it counts in and the flits injected in
it by attachment and plane; and of its flits delivered since the last update how many there were, how many had been deflected, and whether one reached age 512. -/
structure Throttle where
  rate : Nat
  sampled : Nat
  window : Nat
  sent : Tab Nat
  delivered : Nat
  deflected : Nat
  aged : Bool
deriving DecidableEq, Repr

/-- A throttle at reset: unthrottled (R77). -/
def Throttle.start : Throttle := ⟨16, 16, 0, .empty, 0, 0, false⟩

/-- A router position (R20): die, column, row. -/
structure MeshPos where
  die : Nat
  x : Nat
  y : Nat
deriving DecidableEq, Repr

/-- Where a flit is at its position: waiting at an attachment, in the router, having come in by an input (0 north, 1 east, 2 south, 3 west, 4 local), or
delivered. -/
inductive FlitAt where
  | waiting
  | router (input : Nat)
  | delivered
deriving DecidableEq, Repr

/-- A Chervil flit (R20, R22, R259): where it is; its plane, which it keeps; the destination position, and the die-bridge port it crosses by; the quad that
injected it; its core, message identifier and index, its age, whether it was ever deflected, and its payload. -/
structure Flit where
  pos : MeshPos
  at_ : FlitAt
  plane : Option Nat
  dest : MeshPos
  bridge : Nat
  quad : Option Nat
  core : Option Nat
  msg : Nat
  index : Nat
  age : Nat
  deflected : Bool
  data : BitVec 512
deriving DecidableEq, Repr

/-- The device. -/
structure State where
  -- the model's own: the step number, who moves, and whose word is meant
  steps : Nat
  mover : Mover
  core : Nat
  cluster : Cluster
  sage : Nat
  -- device wide
  dcc : Nat
  node : BitVec 11
  cfence : DWord
  mem : Memory
  cores : Tab Core
  sages : Tab Sage
  slices : Tab Slice
  throttles : Tab Throttle
  flits : List Flit
  planeTurns : Tab Nat
  -- scheduling
  queues : Tab QueueSlot
  queueDescs : Tab Nat
  live : Tab Nat
  launches : Tab Launch
  nextLaunch : Nat
  ready : List ReadyCr
  nextKey : Nat
  reservations : List Reservation
  bindings : List (Nat × Nat × Nat × Nat)
  doorbells : Tab Nat
  contexts : Tab (BitVec 512)
  partitions : Tab (BitVec 512)
  jobs : Tab (BitVec 16)
  vresLimit : Tab Nat
  shadowSlots : Tab Bool
  -- Sorrel
  eraNow : Byte
  clocks : Tab Nat
  vclocks : Tab (Tab Nat)
  commitVector : Tab Nat
  dclk : Tab Nat
  -- fabric and ports
  ports : Tab Port
  pdcs : Tab Pdc
  outbox : List Packet
  replies : List Reply
  held : List (Nat × BitVec 32 × Nat)
  forwarded : List Transit
  -- bias
  hostBias : Tab Bool
  -- summary, debug, boot
  devcmd : DWord
  counters : Tab Nat
  dwp : Tab DWord
  huazu : List (Huazu × Nat)
  responses : List Response
  bootLog : Tab (List BootEntry)
  booted : Tab Bool
  rollback : Nat
  bridgeFailed : Bool
  retired : List Nat
  scratchErrors : Tab Bool
  servo : Int
  clockMHz : Nat
  bitAgents : Tab Nat
  mapBytes : Tab Nat
deriving DecidableEq, Repr

/-- The device right after reset: no task, nothing mapped, memory listing nothing, the boot of die 0 about to begin (R324). A die whose version limit no
kernel has set has one of 64 (R173 gives no reset value: DESIGN CHOICE, log 7). -/
def State.reset : State where
  steps := 0
  mover := .event (.boot 0)
  core := 0
  cluster := .C
  sage := 0
  dcc := 0
  node := 0x7FF
  cfence := 0
  mem := .empty
  cores := .empty
  sages := .empty
  slices := .empty
  throttles := .empty
  flits := []
  planeTurns := .empty
  queues := .empty
  queueDescs := .empty
  live := .empty
  launches := .empty
  nextLaunch := 1
  ready := []
  nextKey := 1
  reservations := []
  bindings := []
  doorbells := .empty
  contexts := .empty
  partitions := .empty
  jobs := .empty
  vresLimit := .empty
  shadowSlots := .empty
  eraNow := 0
  clocks := .empty
  vclocks := .empty
  commitVector := .empty
  dclk := .empty
  ports := .empty
  pdcs := .empty
  outbox := []
  replies := []
  held := []
  forwarded := []
  hostBias := .empty
  devcmd := 0
  counters := .empty
  dwp := .empty
  huazu := []
  responses := []
  bootLog := .empty
  booted := .empty
  rollback := 0
  bridgeFailed := false
  retired := []
  scratchErrors := .empty
  servo := 0
  clockMHz := 1000
  bitAgents := .empty
  mapBytes := .empty

end Sys2Proof.Machine
end

