-- ==== Sys2Proof/Machine/Ops.lean ====
section
/-!
DEFINITION. The named operations over the state: the focused core and cluster, the scalar file (R90 to R96), device memory, the device's
tables, and how a word that cannot complete is told apart (R10, R290).
-/

namespace Sys2Proof.Machine

/-- The number of a cluster (R399): A 0, V 1, M 2, C 3. -/
def clusterIndex : Cluster → Nat
  | .A => 0
  | .V => 1
  | .M => 2
  | .C => 3

/-- The cluster of a two-bit field (R399). -/
def clusterOf (n : BitVec 2) : Cluster :=
  match n.toNat with
  | 0 => .A
  | 1 => .V
  | 2 => .M
  | _ => .C

/-- The four clusters. -/
def allClusters : List Cluster := [.A, .V, .M, .C]

/-- Where a cluster stands in the order C, A, V, M (R96, R291, R393). -/
def clusterRank : Cluster → Nat
  | .C => 0
  | .A => 1
  | .V => 2
  | .M => 3

/-- The core numbered `n`. -/
def State.coreAt (s : State) (n : Nat) : Core := s.cores.get .start n

/-- The state with core `n` replaced. -/
def State.setCoreAt (s : State) (n : Nat) (c : Core) : State := { s with cores := s.cores.put n c }

/-- The core whose word is meant. -/
def State.cur (s : State) : Core := s.coreAt s.core

/-- The state with that core replaced. -/
def State.setCur (s : State) (c : Core) : State := s.setCoreAt s.core c

/-- Cluster `k` of a core. -/
def Core.cl (c : Core) (k : Cluster) : ClusterState := c.clusters.get .start (clusterIndex k)

/-- The core with cluster `k` replaced. -/
def Core.setCl (c : Core) (k : Cluster) (x : ClusterState) : Core :=
  { c with clusters := c.clusters.put (clusterIndex k) x }

/-- The cluster whose word is meant. -/
def State.cl (s : State) : ClusterState := s.cur.cl s.cluster

/-- The state with that cluster replaced. -/
def State.setCl (s : State) (x : ClusterState) : State := s.setCur (s.cur.setCl s.cluster x)

/-- Does cluster `k` see this change in cycle `now`: its own in the next cycle, another's in the one after (R91)? -/
def Change.seenBy (now : Nat) (k : Cluster) (e : Change) : Bool :=
  (e.writer = k && decide (e.cycle < now)) || decide (e.cycle + 2 ≤ now)

/-- What a register is by the first of these changes that is seen; before any it is 0 and full (R114). -/
def readHist (now : Nat) (k : Cluster) : List Change → DWord × Bool
  | [] => (0, true)
  | e :: r => if e.seenBy now k then (e.val, e.full) else readHist now k r

/-- Does WAITF see this change at the register: every change of an earlier cycle; of another cluster's in this very
cycle only those of the fullness `also` names: a take sees takes, a put sees puts (R91, R96)? -/
def Change.atRegister (now : Nat) (k : Cluster) (also : Option Bool) (e : Change) : Bool :=
  decide (e.cycle < now) || (e.writer ≠ k && decide (e.cycle = now) && decide (also = some e.full))

/-- The register as WAITF's reads, takes and puts see it (R91, R96). -/
def readHistNow (now : Nat) (k : Cluster) (also : Option Bool) : List Change → DWord × Bool
  | [] => (0, true)
  | e :: r => if e.atRegister now k also then (e.val, e.full) else readHistNow now k also r

/-- The changes some cluster may still see from cycle `now` on: those up to the first that all see. -/
def pruneHist (now : Nat) : List Change → List Change
  | [] => []
  | e :: r => if e.cycle + 2 ≤ now then [e] else e :: pruneHist now r

/-- Does change `t` take effect after `e`: in a later cycle; and of one cycle by different clusters a write after a take, and of two writes
the one of the cluster first in the order C, A, V, M (R96)? -/
def Change.outlasts (t e : Change) : Bool :=
  decide (e.cycle < t.cycle) ||
    (decide (t.cycle = e.cycle) && decide (t.writer ≠ e.writer) &&
      (if t.full = e.full then decide (clusterRank t.writer < clusterRank e.writer) else t.full))

/-- A change put in its place (R96). -/
def insertChange (e : Change) : List Change → List Change
  | [] => [e]
  | t :: r => if t.outlasts e then t :: insertChange e r else e :: t :: r

/-- Scalar register `r` of a core. -/
def Core.reg (c : Core) (r : BitVec 5) : Scalar := c.scal.get .start r.toNat

/-- Value and full bit of a scalar as cluster `k` reads it in cycle `now`; s0 is 0 and full (R90, R91). -/
def Core.view (c : Core) (now : Nat) (k : Cluster) (r : BitVec 5) : DWord × Bool :=
  if r = 0 then (0, true) else readHist now k (c.reg r).hist

/-- Value and full bit of a scalar at the register itself (R91). -/
def Core.viewNow (c : Core) (now : Nat) (k : Cluster) (also : Option Bool) (r : BitVec 5) : DWord × Bool :=
  if r = 0 then (0, true) else readHistNow now k also (c.reg r).hist

/-- A change of a scalar by cluster `k` in cycle `now`; on s0 it is discarded (R90, R91). -/
def Core.change (c : Core) (now : Nat) (k : Cluster) (r : BitVec 5) (v : DWord) (full : Bool) : Core :=
  if r = 0 then c
  else
    { c with
      scal := c.scal.put r.toNat
        { c.reg r with hist := insertChange ⟨now, k, v, full⟩ (pruneHist now (c.reg r).hist) } }

/-- A long-latency producer issues: its destination empties and has a pending producer; naming s0 it empties nothing (R90, R92). -/
def Core.produce (c : Core) (now : Nat) (k : Cluster) (r : BitVec 5) (divider : Bool) (result : Option DWord) : Core :=
  if r = 0 then c
  else
    let c := c.change now k r (c.view now k r).1 false
    { c with scal := c.scal.put r.toNat { c.reg r with pending := some ⟨k, divider, result⟩ } }

/-- A pending producer's result is known; it is written by PRODUCER_RESULT_WRITTEN (R92). -/
def Core.deliver (c : Core) (r : BitVec 5) (v : DWord) : Core :=
  match (c.reg r).pending with
  | none => c
  | some p => { c with scal := c.scal.put r.toNat { c.reg r with pending := some { p with result := some v } } }

/-- Why a word does not complete: its cause code (R362), subcause (R363), TRAPV, and the access concerned (R296). -/
structure TrapInfo where
  cause : Nat
  sub : Nat
  trapv : DWord
  coord : List Int
  ru : Nat
deriving DecidableEq, Repr

/-- A word that does not complete now: it waits (kind and object for the wait log, R339: 0 none, 1 for a register to be full, 2 WAITA, 3 WAITC, 4
barrier, 5 for a register to be empty, 6 for metadata, 7 WAITD), traps, takes a restartable fault, or is a debug stop (R287). -/
inductive Hold where
  | wait (kind : Nat) (obj : DWord)
  | trap (t : TrapInfo)
  | fault (t : TrapInfo)
  | debug (t : TrapInfo)
  | watch (addrs : List Nat) (write : Bool) (coord : List Int)
deriving DecidableEq, Repr

/-- A trap of a cause with TRAPV 0. -/
def trapOf (cause : Nat) : Hold := .trap ⟨cause, 0, 0, [], 0⟩

/-- ILLEGAL with a subcause (R10, R363). -/
def ilg (sub : Nat) : Hold := .trap ⟨0x01, sub, 0, [], 0⟩

/-- A wait that the wait log does not record. -/
def plainWait : Hold := .wait 0 0

/-- The mode of a source whose format carries no mode bit: true is trap (R94, R95). -/
def State.femodeDef (s : State) : Bool := s.cl.femode.getLsbD 0

/-- A scalar as the issuing cluster reads it now. -/
def State.view (s : State) (r : BitVec 5) : DWord × Bool := s.cur.view s.dcc s.cluster r

/-- The scalars as the issuing cluster's word reads them: as they are, or, once it waits with its operands read, as it read them then. -/
def State.reads (s : State) : List (DWord × Bool) :=
  if s.cl.seen.isEmpty then (List.range 32).map fun r => s.view (BitVec.ofNat 5 r) else s.cl.seen

/-- One scalar as that word reads it: an operand is read once, before what the word waits for by it (R10). -/
def State.operand (s : State) (r : BitVec 5) : DWord × Bool :=
  if r = 0 then (0, true)
  else
    match s.cl.seen[r.toNat]? with
    | some p => p
    | none => s.view r

/-- Src(f, m): the scalar read in mode `m`: it blocks while empty, or traps with FEMPTY (R94, R369). -/
def State.src (s : State) (r : BitVec 5) (m : Bool) : Except Hold DWord :=
  if (s.operand r).2 then .ok (s.operand r).1
  else if m then .error (trapOf 0x02)
  else .error (.wait 1 (r.setWidth 64))

/-- Src(f, FEMODE.DEF). -/
def State.srcDef (s : State) (r : BitVec 5) : Except Hold DWord := s.src r s.femodeDef

/-- Does a MARK of cluster A still hold later words that write a scalar (R177)? -/
def Core.marked (c : Core) : Bool := c.accesses.any fun x => x.op = .mark && x.cluster = .A

/-- A destination with a pending producer is waited for, in block mode always (R93). -/
def State.destFree (s : State) (d : BitVec 5) : Except Hold Unit :=
  if d ≠ 0 ∧ (s.cur.reg d).pending.isSome then .error plainWait else .ok ()

/-- After a MARK cluster A changes no scalar, accesses apart, before the accesses it follows are performed (R177). -/
def State.markFree (s : State) : Except Hold Unit := if s.cluster = .A ∧ s.cur.marked then .error plainWait else .ok ()

/-- The destination of a word that is no access (R93, R177); s0 is not written. -/
def State.aluDest (s : State) (d : BitVec 5) : Except Hold Unit :=
  if d = 0 then .ok () else
    match s.markFree with
    | .ok _ => s.destFree d
    | .error h => .error h

/-- The state with scalar `d` written full by the issuing cluster in this cycle (R91). -/
def State.putScal (s : State) (d : BitVec 5) (v : DWord) : State :=
  s.setCur (s.cur.change s.dcc s.cluster d v true)

/-- The state with `d` emptied for a long-latency producer of the issuing cluster (R92). -/
def State.produce (s : State) (d : BitVec 5) (divider : Bool) (result : Option DWord) : State :=
  s.setCur (s.cur.produce s.dcc s.cluster d divider result)

/-- Predicate `p` of the issuing cluster; p0 reads 1 (R97). -/
def State.predicate (s : State) (p : BitVec 3) : Bool := p = 0 || s.cl.pred.getLsbD p.toNat

/-- A predicate byte with bit `p` set to `v`; bit 0 stays 1 (R97). -/
def withPred (w : Byte) (p : BitVec 3) (v : Bool) : Byte :=
  let m : Byte := 1 <<< p.toNat
  if p = 0 then w else if v then w ||| m else w &&& ~~~m

/-- The state with predicate `p` written (R97). -/
def State.putPred (s : State) (p : BitVec 3) (v : Bool) : State :=
  s.setCl { s.cl with pred := withPred s.cl.pred p v }

/-- Loop `n` of a cluster (R98). -/
def ClusterState.loop (x : ClusterState) (n : Bool) : Loop := if n then x.loop1 else x.loop0

/-- The cluster with loop `n` replaced. -/
def ClusterState.setLoop (x : ClusterState) (n : Bool) (l : Loop) : ClusterState :=
  if n then { x with loop1 := l } else { x with loop0 := l }

/-- LPS.START. -/
def Loop.first (l : Loop) : Nat := (l.lps.extractLsb' 0 32).toNat

/-- LPS.END. -/
def Loop.last (l : Loop) : Nat := (l.lps.extractLsb' 32 32).toNat

/-- LPC.TRIP. -/
def Loop.trip (l : Loop) : Nat := (l.lpc.extractLsb' 0 32).toNat

/-- LPC.COUNT. -/
def Loop.count (l : Loop) : BitVec 32 := l.lpc.extractLsb' 32 32

/-- LPX.ITER. -/
def Loop.iter (l : Loop) : BitVec 32 := l.lpx.extractLsb' 32 32

/-- LPX.ACT. -/
def Loop.act (l : Loop) : Bool := l.lpx.getLsbD 7

/-- LPX.INNER. -/
def Loop.inner (l : Loop) : Bool := l.lpx.getLsbD 6

/-- LPX.STG. -/
def Loop.stg (l : Loop) : Nat := (l.lpx.extractLsb' 0 3).toNat

/-- LPX from its fields (R98). -/
def mkLpx (iter : BitVec 32) (act inner : Bool) (stg : BitVec 3) : DWord :=
  iter ++ 0#24 ++ BitVec.ofBool act ++ BitVec.ofBool inner ++ 0#3 ++ stg

/-- The agent identifier of a cluster of a core (R198). -/
def agentId (core : Nat) (k : Cluster) : Nat := 4 * core + clusterIndex k

/-- The home slice of a core (R26): 8 × DIE + q, its global quad index. -/
def homeSlice (core : Nat) : Nat := core / 4

/-- The die of a core (R15). -/
def dieOf (core : Nat) : Nat := core / 32

/-- The quad of a core (R15). -/
def quadOf (core : Nat) : Nat := core / 4

/-- Slice `n`. -/
def State.slice (s : State) (n : Nat) : Slice := s.slices.get .start n

/-- The state with slice `n` replaced. -/
def State.setSlice (s : State) (n : Nat) (x : Slice) : State := { s with slices := s.slices.put n x }

/-- Sage core `g`. -/
def State.sageAt (s : State) (g : Nat) : Sage := s.sages.get .start g

/-- The state with Sage core `g` replaced. -/
def State.setSageAt (s : State) (g : Nat) (x : Sage) : State := { s with sages := s.sages.put g x }

/-- Queue slot `n` (R68). -/
def State.queue (s : State) (n : Nat) : QueueSlot := s.queues.get .start n

/-- The state with queue slot `n` replaced. -/
def State.setQueue (s : State) (n : Nat) (q : QueueSlot) : State := { s with queues := s.queues.put n q }

/-- A named counter of the device summary raised by one (R322, section 4). -/
def State.count (s : State) (key : Nat) : State :=
  { s with counters := s.counters.set 0 key (s.counters.get 0 key + 1) }

/-- Counter keys: correctable and uncorrectable errors of unit `u` (R326), HOSTREJ, dropped notifies, dropped barrier arrivals, dropped
packets, preemptions, unsynchronised time. -/
def keyCorrectable (u : Nat) : Nat := u
def keyUncorrectable (u : Nat) : Nat := 256 + u
def keyHostRej : Nat := 512
def keyNotifyDrop : Nat := 513
def keyArrivalDrop : Nat := 514
def keyPacketDrop : Nat := 515
def keyPreempt : Nat := 516
def keyUnsync : Nat := 517
def keySageFail : Nat := 518

/-- The journal key of a unit of a boot step of a die (R324). -/
def bootKey (die step unit : Nat) : Nat := 1024 * die + 32 * step + unit

/-- The last entry of the journal under a key (R324). -/
def State.bootLast (s : State) (key : Nat) : Option BootEntry := (s.bootLog.get [] key).head?

/-- Is it of that state? -/
def State.bootIs (s : State) (key state : Nat) : Bool := (s.bootLast key).any fun e => decide (e.state = state)

/-- Was a unit of a boot step skipped at the last start (R324)? -/
def State.bootSkipped (s : State) (die step unit : Nat) : Bool := s.bootIs (bootKey die step unit) 4

/-- Is the expander of global CXL port `x` absent (R23, R324)? Its port is down and its 1,024 GiB are not there. -/
def State.expanderAbsent (s : State) (x : Nat) : Bool := s.bootSkipped (x / 2) 6 (x % 2)

/-- Is HBM stack `x` of the device absent (R324)? -/
def State.stackAbsent (s : State) (x : Nat) : Bool := s.bootSkipped (x / 4) 2 (x % 4)

/-- An interrupt to the service core of a slice (R284, R293), with a value. -/
def State.interrupt (s : State) (slice : Nat) (v : DWord) : State :=
  s.setSlice slice { s.slice slice with interrupts := (s.slice slice).interrupts ++ [v] }

/-- The home slice of a device-memory address (R171) or of a second-tier address (R172). -/
def homeOf (a : Nat) : Nat :=
  if a < 2 ^ 39 then
    8 * (a / 2 ^ 38 % 2) +
      ((a / 2 ^ 12 % 8) ^^^ (a / 2 ^ 15 % 8) ^^^ (a / 2 ^ 18 % 8) ^^^ (a / 2 ^ 21 % 8))
  else
    let x := (a - 2 ^ 42) / 2 ^ 40
    8 * (x / 2) + 4 * (x % 2)

/-- The redirection or lock of a frame in force at the home of `a` (R168): the lock covering the address. -/
def State.lockOn (s : State) (a : Nat) : Option FrameLock :=
  (s.slice (homeOf a)).locks.find? fun l => l.old ≤ a / 65536 && a / 65536 < l.old + l.frames

/-- Where an access that arrives at `a` is performed (R168): a released lock redirects it to the new frame. -/
def State.redirect (s : State) (a : Nat) : Nat :=
  match s.lockOn a with
  | some l => if l.released then a - l.old * 65536 + l.new * 65536 else a
  | none => a

/-- A byte as its home reads it (R174): for a host-bias frame the host, which reads the same memory through its coherent caches (R196). -/
def State.homeByte (s : State) (a : Nat) : Byte := s.mem.byte (s.redirect a)

/-- `n` bytes as their homes read them. -/
def State.homeBytes (s : State) (a : Nat) : Nat → List Byte
  | 0 => []
  | n + 1 => s.homeByte a :: s.homeBytes (a + 1) n

/-- The byte `b` with the bits that `v` holds in place of its own (R150). -/
def VByte.over (v : VByte) (b : Byte) : Byte := (v.val &&& v.mask) ||| (b &&& ~~~v.mask)

/-- A byte held whole. -/
def VByte.whole (b : Byte) : VByte := ⟨b, 0xFF⟩

/-- A lock with one more write held, where it is the one of frame `old`. -/
def FrameLock.hold (l : FrameLock) (old a : Nat) (b : VByte) : FrameLock :=
  if l.old = old then { l with held := l.held ++ [(a, b)] } else l

/-- A byte written at its home (R174); under a lock that has not been released the write is held (R168). -/
def State.setHomeByte (s : State) (a : Nat) (b : Byte) : State :=
  match s.lockOn a with
  | some l =>
    if l.released then
      { s with mem := s.mem.setByte (a - l.old * 65536 + l.new * 65536) b }
    else
      let x := s.slice (homeOf a)
      s.setSlice (homeOf a) { x with locks := x.locks.map fun k => k.hold l.old a (.whole b) }
  | none => { s with mem := s.mem.setByte a b }

/-- Bits of a byte written at its home as one update (R150), or held there (R168). -/
def State.setHomeBits (s : State) (a : Nat) (v : VByte) : State :=
  if v.mask = 0xFF then s.setHomeByte a v.val
  else
    match s.lockOn a with
    | some l =>
      if l.released then s.setHomeByte a (v.over (s.homeByte a))
      else
        let x := s.slice (homeOf a)
        s.setSlice (homeOf a) { x with locks := x.locks.map fun k => k.hold l.old a v }
    | none => s.setHomeByte a (v.over (s.homeByte a))

/-- Bytes written at their homes. -/
def State.setHomeBytes (s : State) (a : Nat) : List Byte → State
  | [] => s
  | b :: r => (s.setHomeByte a b).setHomeBytes (a + 1) r

/-- The little-endian value of `n` bytes at their homes (R3). -/
def State.homeRead (s : State) (a n : Nat) : Nat := natOfBytes (s.homeBytes a n)

/-- A value stored in `n` bytes at their homes. -/
def State.homeWrite (s : State) (a n v : Nat) : State := s.setHomeBytes a (bytesOfNat n v)

/-- A cached residency entry with DIRTY set (R164). -/
def dirtied (t : Tab DWord) (a : Nat) : Tab DWord :=
  match t.find a with
  | some w => t.put a (w ||| 0x40)
  | none => t

/-- DIRTY set in a residency entry, in the table and in the copies of it (R164, R166). -/
def State.setDirty (s : State) (a : Nat) : State :=
  let s := s.homeWrite a 1 (s.homeRead a 1 % 2 ^ 8 ||| 0x40)
  { s with
    cores := s.cores.mapValues fun c => { c with ruCache := dirtied c.ruCache a }
    slices := s.slices.mapValues fun x => { x with rus := dirtied x.rus a } }

/-- Bits `hi:lo` of a record. -/
def bitsAt (w lo n : Nat) : Nat := w / 2 ^ lo % 2 ^ n

/-- A coordinate that stands as 32 bits, signed (R154). -/
def signed32 (n : Nat) : Int := (BitVec.ofNat 32 n).toInt

end Sys2Proof.Machine
end

