-- ==== Sys2Proof/Machine/Chervil.lean ====
section
/-!
DEFINITION. Chervil (R17, R20 to R22, R77, R259, R260): router positions and what attaches there, how a flit goes from router to router, and how quads
inject.
-/

namespace Sys2Proof.Machine

/-- What attaches to a router position, by local number (R21). -/
inductive Attachment where
  | slice (n : Nat)
  | sage (n : Nat)
  | bridge (n : Nat)
  | quad (n : Nat)
  | cxl (n : Nat)
  | host
  | control
  | through
deriving DecidableEq, Repr

/-- The attachment at a position (R21). -/
def attachmentAt (p : MeshPos) : Attachment :=
  match p.y with
  | 0 => .slice (p.x / 2)
  | 1 => if p.x < 2 then .sage p.x else if p.x < 6 then .bridge (p.x - 2) else .sage (p.x - 4)
  | 2 => .quad p.x
  | 3 => .quad p.x
  | 4 => match p.x with
    | 0 => .cxl 0
    | 1 => if p.die = 0 then .host else .through
    | 2 => .control
    | 7 => .cxl 1
    | _ => .through
  | _ => .slice (4 + p.x / 2)

/-- Where a core attaches (R17): cores 0 and 1 of a quad at its upper position, which is the row of the lesser y (DEDUCED, log 67), 2 and 3 at the lower. -/
def corePos (core : Nat) : MeshPos := ⟨dieOf core, quadOf core % 8, if core % 4 < 2 then 2 else 3⟩

/-- One of the two positions of a slice (R21); which of them a flit takes is not given. -/
def slicePos (slice pick : Nat) : MeshPos := ⟨slice / 8, 2 * (slice % 4) + pick % 2, if slice % 8 < 4 then 0 else 5⟩

/-- Where a Sage core attaches (R21). -/
def sagePos (g : Nat) : MeshPos := ⟨g / 4, if g % 4 < 2 then g % 4 else g % 4 + 4, 1⟩

/-- Where a CXL port attaches (R21). -/
def cxlPos (x : Nat) : MeshPos := ⟨x / 2, 7 * (x % 2), 4⟩

/-- The column of die-bridge port `b` (R21): port `b` of one die joins port `b` of the other (R22). -/
def bridgeColumn (b : Nat) : Nat := 2 + b % 4

/-- The position of a unit, as other traffic numbers it (log 67). -/
def unitPos (u pick : Nat) : MeshPos :=
  if u < 64 then corePos u else if u < 80 then slicePos (u - 64) pick else if u < 88 then sagePos (u - 80) else if u < 92 then cxlPos (u - 88)
  else ⟨0, 1, 4⟩

/-- Has a router an output on that side (R20): 0 north, 1 east, 2 south, 3 west? North is towards the lesser y (DEDUCED, log 67). -/
def MeshPos.hasSide (p : MeshPos) : Nat → Bool
  | 0 => decide (0 < p.y)
  | 1 => decide (p.x < 7)
  | 2 => decide (p.y < 5)
  | _ => decide (0 < p.x)

/-- The outputs of a router. -/
def MeshPos.sides (p : MeshPos) : List Nat := (List.range 4).filter p.hasSide

/-- The next position on a side. -/
def MeshPos.next (p : MeshPos) : Nat → MeshPos
  | 0 => { p with y := p.y - 1 }
  | 1 => { p with x := p.x + 1 }
  | 2 => { p with y := p.y + 1 }
  | _ => { p with x := p.x - 1 }

/-- The column and row a flit makes for on its die: its destination's, or those of the bridge port it crosses by (R22). -/
def Flit.target (f : Flit) : Nat × Nat := if f.dest.die = f.pos.die then (f.dest.x, f.dest.y) else (bridgeColumn f.bridge, 1)

/-- Is an output productive: does it bring the flit nearer? -/
def Flit.productive (f : Flit) : Nat → Bool
  | 0 => decide (f.target.2 < f.pos.y)
  | 1 => decide (f.pos.x < f.target.1)
  | 2 => decide (f.pos.y < f.target.2)
  | _ => decide (f.target.1 < f.pos.x)

/-- Is the flit in this router? -/
def Flit.inRouter (f : Flit) (p : MeshPos) (plane : Nat) : Bool :=
  f.pos = p && f.plane = some plane && (match f.at_ with
    | .router _ => true
    | _ => false)

/-- The place of an input in the order of ties at `cycle` (R259): north, east, south, west, local, rotating by one every 1,024 cycles. -/
def tieRank (cycle : Nat) (a : FlitAt) : Nat :=
  match a with
  | .router i => (i + 5 - cycle / 1024 % 5) % 5
  | _ => 5

/-- Is `f` granted before `g` (R259): oldest first, ties by input? -/
def Flit.before (cycle : Nat) (f g : Flit) : Bool :=
  decide (g.age < f.age) || (decide (f.age = g.age) && decide (tieRank cycle f.at_ < tieRank cycle g.at_))

/-- A flit put in its place among those sorted. -/
def insertFlit (cycle : Nat) (f : Flit) : List Flit → List Flit
  | [] => [f]
  | g :: r => if g.before cycle f then g :: insertFlit cycle f r else f :: g :: r

/-- A flit that leaves by a side: one router older (R259), at the next position. -/
def Flit.leave (f : Flit) (side : Nat) : Flit :=
  { f with
    pos := f.pos.next side, at_ := .router ((side + 2) % 4), age := min 1023 (f.age + 1), deflected := f.deflected || !f.productive side }

/-- The flits of a router in the order of their grants: those that find a productive output free take it; the others are left, with the outputs still
free (R259). -/
def grantProductive (pick : Nat) : List Nat → List Flit → List Flit × List Flit × List Nat
  | free, [] => ([], [], free)
  | free, f :: r =>
    let good := free.filter f.productive
    match good[pick % good.length]? with
    | some side =>
      let (gone, left, free) := grantProductive (pick / 4) (free.erase side) r
      (f.leave side :: gone, left, free)
    | none =>
      let (gone, left, free) := grantProductive (pick / 4) free r
      (gone, f :: left, free)

/-- The flits left leave by any free output (R259): the router stores nothing. -/
def deflect (pick : Nat) : List Nat → List Flit → List Flit
  | _, [] => []
  | free, f :: r =>
    match free[pick % free.length]? with
    | some side => f.leave side :: deflect (pick / 4) (free.erase side) r
    | none => f :: deflect pick free r

/-- A flit that is at the end of its way on this die: delivered, or across the bridge, where it enters by the same port on its plane (R22). -/
def Flit.arrive (f : Flit) : Flit :=
  let age := min 1023 (f.age + 1)
  if f.dest.die = f.pos.die then { f with at_ := .delivered, age := age }
  else { f with pos := { f.pos with die := f.dest.die }, at_ := .waiting, age := age }

/-- One cycle of one router on one plane (R259): flits addressed to its attachment leave the mesh, the others move on. -/
def routerCycle (pick cycle : Nat) (p : MeshPos) (fs : List Flit) : List Flit :=
  let (home, rest) := fs.partition fun f => f.target = (p.x, p.y)
  let sorted := rest.foldl (fun l f => insertFlit cycle f l) []
  let (gone, left, free) := grantProductive pick p.sides sorted
  home.map Flit.arrive ++ gone ++ deflect pick free left

/-- A position as a number. -/
def MeshPos.key (p : MeshPos) : Nat := 64 * p.die + 8 * p.y + p.x

/-- One cycle of every router that holds a flit. -/
def meshMoves (step cycle : Nat) (fs : List Flit) : List Flit :=
  let moving := fs.filter fun f => match f.at_ with
    | .router _ => true
    | _ => false
  let routers := (moving.map fun f => (f.pos, f.plane)).eraseDups
  (fs.filter fun f => !moving.contains f) ++
    (routers.map fun r => routerCycle (Config.choice step (8 * r.1.key + r.2.getD 0)) cycle r.1 (moving.filter fun f => f.pos = r.1 && f.plane = r.2)).flatten

/-- The throttle of a global quad (R77). -/
def State.throttle (s : State) (quad : Nat) : Throttle := s.throttles.get .start quad

/-- An attachment of a quad and a plane as one number: a quad has two positions (R17, R260). -/
def laneOf (p : MeshPos) (plane : Nat) : Nat := 8 * (p.y % 2) + plane

/-- Flits that one of a quad's attachments injected on a plane in the window of this cycle (R260). -/
def Throttle.injected (t : Throttle) (cycle lane : Nat) : Nat := if t.window = cycle / 16 then t.sent.get 0 lane else 0

/-- The throttle after one more injection. -/
def Throttle.inject (t : Throttle) (cycle lane : Nat) : Throttle :=
  let sent := if t.window = cycle / 16 then t.sent else .empty
  { t with window := cycle / 16, sent := sent.set 0 lane (t.injected cycle lane + 1) }

/-- The throttle after a flit of its quad has been delivered (R260). -/
def Throttle.saw (t : Throttle) (f : Flit) : Throttle :=
  { t with delivered := t.delivered + 1, deflected := t.deflected + f.deflected.toNat, aged := t.aged || decide (512 ≤ f.age) }

/-- May a flit enter the router of its position on a plane now: a slot there that no flit in transit takes, and, at its quad's attachment, within its rate
(R260)? One that has come over the bridge is not injected by its quad again. -/
def State.planeFree (s : State) (f : Flit) (plane : Nat) : Bool :=
  let here := s.flits.filter fun g => g.inRouter f.pos plane
  decide (here.length < f.pos.sides.length) && (here.all fun g => g.at_ ≠ .router 4) &&
    (match f.plane, f.quad with
     | none, some q => decide ((s.throttle q).injected s.dcc (laneOf f.pos plane) < (s.throttle q).rate)
     | _, _ => true)

/-- The plane an attachment chooses: in rotation among the free ones (R260); a flit that came over the bridge keeps its own (R20, R22). -/
def State.choosePlane (s : State) (f : Flit) : Option Nat :=
  match f.plane with
  | some p => if s.planeFree f p then some p else none
  | none => ((List.range 8).map fun i => (s.planeTurns.get 0 f.pos.key + i) % 8).find? (s.planeFree f)

/-- A waiting flit injected, where it may be (R260). -/
def State.injectFlit (s : State) (f : Flit) : State :=
  match s.choosePlane f with
  | none => s
  | some p =>
    { s with
      flits := s.flits.erase f ++ [{ f with at_ := .router 4, plane := some p }]
      planeTurns := if f.plane.isNone then s.planeTurns.set 0 f.pos.key ((p + 1) % 8) else s.planeTurns
      throttles := match f.plane, f.quad with
        | none, some q => s.throttles.put q ((s.throttle q).inject s.dcc (laneOf f.pos p))
        | _, _ => s.throttles }

/-- A flit of another message that a unit asks for (R259; log 67). -/
def trafficFlit (pick : Nat) (e : Nat × Nat) : Flit :=
  { pos := unitPos e.1 pick, at_ := .waiting, plane := none, dest := unitPos e.2 (pick / 2), bridge := pick, quad := if e.1 < 64 then some (quadOf e.1) else none,
    core := none, msg := 0, index := 0, age := 0, deflected := false, data := 0 }

/-- Has a flit of another message been delivered? -/
def Flit.spent (f : Flit) : Bool := f.at_ = .delivered && f.core.isNone

/-- One cycle of Chervil (R259, R260): flits move, those delivered are counted for their quads, and attachments inject. -/
def State.meshCycle (s : State) : State :=
  let fs := meshMoves s.steps s.dcc s.flits
  let new := fs.filter fun (f : Flit) => f.at_ = .delivered && !s.flits.contains f
  let throttles := new.foldl (fun t f => match f.quad with
    | some q => t.put q ((t.get .start q).saw f)
    | none => t) s.throttles
  let s := { s with flits := fs.filter (fun (f : Flit) => !f.spent) ++ (Config.traffic s.steps).map (trafficFlit (Config.choice s.steps 1024)), throttles := throttles }
  (s.flits.filter fun (f : Flit) => f.at_ = .waiting).foldl State.injectFlit s

/-- A flit of a reply to a core, from a position (R259, R261). -/
def State.replyFlit (s : State) (pos : MeshPos) (core msg index : Nat) (data : BitVec 512) : State :=
  { s with
    flits := s.flits ++
      [{ pos := pos, at_ := .waiting, plane := none, dest := corePos core, bridge := Config.choice s.steps 1025, quad := none, core := some core,
         msg := msg, index := index, age := 0, deflected := false, data := data }] }

/-- The flit of a message that has been delivered to a core (R259). -/
def State.deliveredFlit (s : State) (core msg index : Nat) : Option Flit :=
  s.flits.find? fun f => f.at_ = .delivered && f.core = some core && decide (f.msg = msg) && decide (f.index = index)

/-- Were more than a quarter of a quad's flits that have been delivered deflected (R260)? -/
def Throttle.crowded (t : Throttle) : Bool := decide (t.delivered < 4 * t.deflected)

/-- The rate a quad gets (R260): 0 while its cores are all fenced (log 67); halved, to no less than 1, where more than a quarter of its delivered flits had
been deflected or one reached age 512; else one more, up to 16. -/
def State.nextRate (s : State) (quad : Nat) : Nat :=
  let t := s.throttle quad
  if (List.range 4).all fun i => s.cfence.getLsbD (4 * quad + i) then 0
  else if t.crowded ∨ t.aged then max 1 (t.rate / 2)
  else min 16 (t.rate + 1)

/-- A quad's throttle updated (R260): the scheduler samples the rate (R76), and the counts start again. -/
def State.updateThrottle (s : State) (quad : Nat) : State :=
  let rate := s.nextRate quad
  { s with throttles := s.throttles.put quad { s.throttle quad with rate := rate, sampled := rate, delivered := 0, deflected := 0, aged := false } }

end Sys2Proof.Machine
end

