-- ==== Sys2Proof/Machine/Doorbell.lean ====
section
/-!
DEFINITION. The notify registers of the hardware queue slots (R69, R70).
-/

namespace Sys2Proof.Machine

/-- A notify write that meets a slot being unmapped goes to the queue's descriptor (R70). -/
def State.pendNotify (s : State) (desca : Nat) (v : BitVec 32) : State :=
  let flags := s.homeRead (desca + 24) 1
  let old := BitVec.ofNat 32 (s.homeRead (desca + 28) 4)
  let s := if flags % 2 = 0 ∨ (v - old).toNat < 2 ^ 31 then s.homeWrite (desca + 28) 4 v.toNat else s
  s.homeWrite (desca + 24) 1 (flags / 2 * 2 + 1)

/-- A queue slot's error: consumption stops (R67). -/
def State.queueError (s : State) (slot : Nat) (e : Byte) : State :=
  let q := s.queue slot
  (s.setQueue slot { q with err := e }).homeWrite (q.mappedAt + 40) 1 e.toNat

/-- A notify value taken by a mapped slot (R69). -/
def State.takeNotify (s : State) (slot : Nat) (v : BitVec 32) : State :=
  let q := s.queue slot
  if v - q.tail = 0 ∨ 2 ^ 31 ≤ (v - q.tail).toNat then s
  else if (v - q.head).toNat ≤ 2 ^ q.logn then s.setQueue slot { q with tail := v }
  else s.queueError slot 0x01

/-- A notify write to a slot (R69, R70). -/
def State.notify (s : State) (slot : Nat) (v : DWord) : State :=
  match (s.queue slot).state with
  | .free => s.count keyNotifyDrop
  | .unmapping => s.pendNotify (s.queue slot).mappedAt (v.extractLsb' 0 32)
  | .mapped => s.takeNotify slot (v.extractLsb' 0 32)

/-- NOTIFY_WRITE (R69, R314): a doubleword that the host writes at a byte offset of BAR2. Its 64 KiB page tells the slot, every aligned doubleword of the page
being the notify register; one of die 1 is reached through the die bridge alone (R14). -/
def execNotifyWrite (offset : Nat) (v : BitVec 64) (s : State) : Host.Outcome State Fault Refusal :=
  .next (
    let slot := offset / 65536
    if offset % 8 = 0 ∧ (slot < 64 ∨ (slot < 128 ∧ !s.bridgeFailed)) then s.notify slot v else s)

end Sys2Proof.Machine
end

