-- ==== Sys2Proof/Machine/Fp.lean ====
section
/-!
DEFINITION. Number formats and exact arithmetic (R117 to R131, R144): a code of any format is read as an exact number, arithmetic is exact,
and one rounding writes the result back.
-/

namespace Sys2Proof.Machine

/-- An exact number with a sign tag (R123): a NaN with its sign and its 23-bit FP32 fraction (R126), an infinity, or (−1)^neg × m × 2^e. -/
inductive Num where
  | nan (neg : Bool) (frac : Nat)
  | inf (neg : Bool)
  | fin (neg : Bool) (m : Nat) (e : Int)
deriving DecidableEq, Repr, Inhabited

/-- The default NaN of R119, in every format. -/
def Num.defaultNan : Num := .nan false 0x400000

/-- +0. -/
def Num.zero : Num := .fin false 0 0

/-- 1.0. -/
def Num.one : Num := .fin false 1 0

/-- An integer as an exact number; 0 is +0. -/
def Num.ofInt (i : Int) : Num := .fin (decide (i < 0)) i.natAbs 0

/-- Is it a NaN? -/
def Num.isNan : Num → Bool
  | .nan _ _ => true
  | _ => false

/-- Is it an infinity? -/
def Num.isInf : Num → Bool
  | .inf _ => true
  | _ => false

/-- Is it a zero of either sign? -/
def Num.isZero : Num → Bool
  | .fin _ 0 _ => true
  | _ => false

/-- Its sign tag. -/
def Num.isNeg : Num → Bool
  | .nan n _ => n
  | .inf n => n
  | .fin n _ _ => n

/-- A NaN with its quiet bit set (R119); anything else as it is. -/
def Num.quiet : Num → Num
  | .nan n f => .nan n (f ||| 0x400000)
  | x => x

/-- The same magnitude with the other sign. -/
def Num.negate : Num → Num
  | .nan n f => .nan (!n) f
  | .inf n => .inf (!n)
  | .fin n m e => .fin (!n) m e

/-- The magnitude. -/
def Num.magnitude : Num → Num
  | .nan _ f => .nan false f
  | .inf _ => .inf false
  | .fin _ m e => .fin false m e

/-- The signed significand of a finite number over the common exponent `e0`, which is at most its own. -/
def Num.scaled (e0 : Int) : Num → Int
  | .fin n m e => (if n then -1 else 1) * ((m <<< (e - e0).toNat : Nat) : Int)
  | _ => 0

/-- The exponent of a finite number's significand. -/
def Num.expo : Num → Int
  | .fin _ _ e => e
  | _ => 0

/-- The exact sum of two numbers (R119): Inf − Inf is invalid, an exact zero sum of opposite signs is +0. NaN operands are settled before. -/
def Num.add : Num → Num → Num
  | .inf a, .inf b => if a = b then .inf a else .defaultNan
  | .inf a, _ => .inf a
  | _, .inf b => .inf b
  | .fin na ma ea, .fin nb mb eb =>
    let e := min ea eb
    let t := Num.scaled e (.fin na ma ea) + Num.scaled e (.fin nb mb eb)
    if t = 0 then .fin (na && nb) 0 e else .fin (decide (t < 0)) t.natAbs e
  | a, b => if a.isNan then a else b

/-- The exact product (R119): its sign is the exclusive or of the operands'; 0 × Inf is invalid. -/
def Num.mul : Num → Num → Num
  | .fin na ma ea, .fin nb mb eb => .fin (na != nb) (ma * mb) (ea + eb)
  | .inf na, .inf nb => .inf (na != nb)
  | .inf na, .fin nb mb _ => if mb = 0 then .defaultNan else .inf (na != nb)
  | .fin na ma _, .inf nb => if ma = 0 then .defaultNan else .inf (na != nb)
  | a, b => if a.isNan then a else b

/-- The first NaN among the operands, in their order, with its quiet bit set; otherwise the value (R119). -/
def Num.withNan (ops : List Num) (v : Num) : Num :=
  match ops.find? Num.isNan with
  | some x => x.quiet
  | none => v

/-- a < b on numbers that are no NaN; −0 and +0 are equal. -/
def Num.lt : Num → Num → Bool
  | .inf a, .inf b => a && !b
  | .inf a, .fin _ _ _ => a
  | .fin _ _ _, .inf b => !b
  | .fin na ma ea, .fin nb mb eb =>
    let e := min ea eb
    decide (Num.scaled e (.fin na ma ea) < Num.scaled e (.fin nb mb eb))
  | _, _ => false

/-- a = b on numbers that are no NaN; −0 and +0 are equal. -/
def Num.eq : Num → Num → Bool
  | .nan _ _, _ => false
  | _, .nan _ _ => false
  | a, b => !a.lt b && !b.lt a

/-- floor(log2 |x|) of a finite number that is not zero (R141). -/
def Num.top : Num → Int
  | .fin _ m e => (Nat.log2 m : Int) + e
  | _ => 0

/-- A floating-point format: sign bit, exponent and mantissa width, specials policy, bias (R121); a wide format's NaN keeps the top
fraction bits, a narrow one's the bits below the quiet bit (R127, R128). -/
structure FpFormat where
  sign : Bool
  ew : Nat
  mw : Nat
  sp : Nat
  bias : Int
  wide : Bool
deriving DecidableEq, Repr

/-- FP32 (R117). -/
def fp32 : FpFormat := ⟨true, 8, 23, 0, 127, true⟩

/-- FP16 (R117). -/
def fp16 : FpFormat := ⟨true, 5, 10, 0, 15, true⟩

/-- BF16 (R118). -/
def bf16 : FpFormat := ⟨true, 8, 7, 0, 127, true⟩

/-- The format a 16-bit descriptor names (R121). -/
def FpFormat.ofDesc (d : BitVec 16) : FpFormat :=
  ⟨d.getLsbD 15, (d.extractLsb' 12 3).toNat, (d.extractLsb' 9 3).toNat, (d.extractLsb' 7 2).toNat, (d.extractLsb' 0 7).toInt, false⟩

/-- The block scales' format, E4M3 (R125, R132). -/
def e4m3 : FpFormat := .ofDesc 0xC687

/-- The code width w (R121). -/
def FpFormat.width (f : FpFormat) : Nat := f.sign.toNat + f.ew + f.mw

/-- The magnitude code of the largest finite value: the largest that is neither Inf nor NaN (R123). -/
def FpFormat.maxCode (f : FpFormat) : Nat :=
  if f.sp = 0 then ((2 ^ f.ew - 1) <<< f.mw) - 1
  else if f.sp = 1 then 2 ^ (f.ew + f.mw) - 2
  else 2 ^ (f.ew + f.mw) - 1

/-- The exponent of the format's smallest spacing (R123). -/
def FpFormat.minQuantum (f : FpFormat) : Int := if f.ew = 0 then -f.bias else 1 - f.bias - f.mw

/-- The exponent of the spacing at its largest exponent (R127). -/
def FpFormat.maxQuantum (f : FpFormat) : Int :=
  if f.ew = 0 then -f.bias else (max (f.maxCode >>> f.mw) 1 : Nat) - f.bias - f.mw

/-- The exact value of a code (R123, R126). -/
def FpFormat.decode (f : FpFormat) (c : Nat) : Num :=
  let m := c % 2 ^ f.mw
  let e := (c >>> f.mw) % 2 ^ f.ew
  let s := f.sign && (c >>> (f.ew + f.mw)) % 2 = 1
  let top := e = 2 ^ f.ew - 1
  let nanFrac := if f.wide then m <<< (23 - f.mw) else 0x400000 ||| (m <<< (22 - f.mw))
  if f.sp = 1 ∧ top ∧ m = 2 ^ f.mw - 1 then .nan s nanFrac
  else if f.sp = 0 ∧ top then (if m = 0 then .inf s else .nan s nanFrac)
  else if f.ew = 0 then .fin s m (-f.bias)
  else if e = 0 then .fin s m f.minQuantum
  else .fin s (2 ^ f.mw + m) (e - f.bias - f.mw)

/-- m × 2^e rounded to a multiple of 2^q (R119, R127): the multiplier, by RNE or RTZ. -/
def roundTo (rtz : Bool) (m : Nat) (e q : Int) : Nat :=
  if q ≤ e then m <<< (e - q).toNat
  else
    let sh := (q - e).toNat
    let lo := m >>> sh
    let r := m - (lo <<< sh)
    let half := 1 <<< (sh - 1)
    if !rtz && (half < r || (r = half && lo % 2 = 1)) then lo + 1 else lo

/-- The magnitude code of m × 2^e rounded onto the format's grid, which goes on above the largest finite value with the spacing of its
largest exponent (R127). Where MW = 0 no mantissa field tells which neighbour of a tie is even: the significand 1 counts as odd, so a tie between
two normal values goes up (DESIGN CHOICE, log 79). -/
def FpFormat.roundCode (f : FpFormat) (rtz : Bool) (m : Nat) (e : Int) : Nat :=
  if m = 0 then 0
  else
    let q := min f.maxQuantum (max f.minQuantum ((Nat.log2 m : Int) + e - f.mw))
    ((q - f.minQuantum).toNat <<< f.mw) + roundTo rtz m e q

/-- A magnitude code with its sign bit; a format without one drops it. -/
def FpFormat.signed (f : FpFormat) (neg : Bool) (c : Nat) : Nat :=
  if f.sign && neg then 2 ^ (f.ew + f.mw) + c else c

/-- The code of a NaN (R127, R128). -/
def FpFormat.nanCode (f : FpFormat) (neg : Bool) (frac : Nat) : Nat :=
  if f.sp = 0 then
    let m := if f.wide then (frac >>> (23 - f.mw)) % 2 ^ f.mw else (frac >>> (22 - f.mw)) % 2 ^ f.mw
    f.signed neg (((2 ^ f.ew - 1) <<< f.mw) + if m = 0 then 2 ^ (f.mw - 1) else m)
  else if f.sp = 1 then f.signed neg (2 ^ (f.ew + f.mw) - 1)
  else f.signed neg 0

/-- A number as a code of the format (R127, R128, R119), by rounding mode and saturation; and whether a value was saturated as MSTAT.DSAT
counts it (R127). -/
def FpFormat.encode (f : FpFormat) (rtz sat : Bool) : Num → Nat × Bool
  | .nan n fr => (f.nanCode n fr, decide (f.sp = 2))
  | .inf n =>
    if !f.sign && n then (0, false)
    else if f.sp = 0 then (f.signed n ((2 ^ f.ew - 1) <<< f.mw), false)
    else if f.sp = 2 then (f.signed n f.maxCode, true)
    else if sat then (f.signed n f.maxCode, true)
    else (f.nanCode n 0, false)
  | .fin n m e =>
    if !f.sign && n then (0, false)
    else
      let c := f.roundCode rtz m e
      if c ≤ f.maxCode then (f.signed n c, false)
      else if f.sp = 2 then (f.signed n f.maxCode, true)
      else if sat then (f.signed n f.maxCode, true)
      else if rtz then (f.signed n f.maxCode, false)
      else if f.sp = 0 then (f.signed n ((2 ^ f.ew - 1) <<< f.mw), false)
      else (f.nanCode n 0, false)

/-- Does the value lie below `b` in magnitude order of finite codes? Used by R122: m × 2^e ≤ m' × 2^e'. -/
def dyadicLe (m : Nat) (e : Int) (m' : Nat) (e' : Int) : Bool :=
  let e0 := min e e'
  decide (m <<< (e - e0).toNat ≤ m' <<< (e' - e0).toNat)

/-- Why a descriptor is not valid: the reason of the first row of R122 that fails; 0 when it is valid. -/
def descReason (d : BitVec 16) : Nat :=
  let f := FpFormat.ofDesc d
  let rangeOk : Bool :=
    match f.decode f.maxCode, f.decode 1 with
    | .fin _ m e, .fin _ m' e' =>
      dyadicLe m e (2 ^ 24 - 1) 104 && (f.maxCode = 0 || dyadicLe 1 (-126) m' e')
    | _, _ => true
  if f.width < 2 ∨ 8 < f.width then 1
  else if f.sp ≠ 3 ∧ rangeOk = false then 2
  else if f.sp = 3 then 3
  else if f.sp = 0 ∧ (f.ew < 2 ∨ f.mw < 1) then 4
  else if f.ew = 0 ∧ f.sp = 0 then 4
  else 0

/-- A value clamped to a range. -/
def clampInt (lo hi v : Int) : Int := if v < lo then lo else if hi < v then hi else v

/-- A number rounded to an integer and clamped (R129): NaN gives 0. -/
def Num.toIntClamped (rtz : Bool) (lo hi : Int) : Num → Int
  | .nan _ _ => 0
  | .inf n => if n then lo else hi
  | .fin n m e =>
    let r : Int := roundTo rtz m e 0
    clampInt lo hi (if n then -r else r)

/-- An element format (R104): a floating format, an integer of some width, or a narrow format. -/
inductive Fmt where
  | fp (f : FpFormat)
  | int (width : Nat)
  | nat (width : Nat)
deriving DecidableEq, Repr

/-- The format of a code of SHP.FMT with descriptor `desc` (R104); none for 0x9 to 0xE. -/
def Fmt.ofCode (c : BitVec 4) (desc : BitVec 16) : Option Fmt :=
  match c.toNat with
  | 0 => some (.fp fp32)
  | 1 => some (.fp fp16)
  | 2 => some (.fp bf16)
  | 3 => some (.int 32)
  | 4 => some (.int 16)
  | 5 => some (.int 8)
  | 6 => some (.nat 32)
  | 7 => some (.nat 16)
  | 8 => some (.nat 8)
  | 15 => some (.fp (.ofDesc desc))
  | _ => none

/-- The bits one element occupies in a row (R104, R124). -/
def Fmt.slot : Fmt → Nat
  | .int w => w
  | .nat w => w
  | .fp f => if f.wide then 1 + f.ew + f.mw else if f.width ≤ 4 then 4 else 8

/-- The bits of an element's code. -/
def Fmt.codeWidth : Fmt → Nat
  | .int w => w
  | .nat w => w
  | .fp f => f.width

/-- The elements of a 512-byte row (R104). -/
def Fmt.perRow (f : Fmt) : Nat := 4096 / f.slot

/-- Is it a floating format (narrow ones included)? -/
def Fmt.isFp : Fmt → Bool
  | .fp _ => true
  | _ => false

/-- Is it a narrow format? -/
def Fmt.isNarrow : Fmt → Bool
  | .fp f => !f.wide
  | _ => false

/-- The least and the greatest value of an integer format. -/
def Fmt.bounds : Fmt → Int × Int
  | .int w => (-(2 ^ (w - 1) : Nat), (2 ^ (w - 1) : Nat) - 1)
  | .nat w => (0, (2 ^ w : Nat) - 1)
  | .fp _ => (0, 0)

/-- The integer an integer code stands for (R120). -/
def Fmt.codeInt : Fmt → Nat → Int
  | .int w, c => (BitVec.ofNat w c).toInt
  | _, c => c

/-- The exact number a code stands for (R126, R129). -/
def Fmt.decode (f : Fmt) (c : Nat) : Num :=
  match f with
  | .fp g => g.decode (c % 2 ^ g.width)
  | _ => Num.ofInt (f.codeInt c)

/-- The code of an integer modulo the width (R120). -/
def wrapCode (w : Nat) (i : Int) : Nat := (BitVec.ofInt w i).toNat

/-- A number as a code, and whether it was saturated in MSTAT.DSAT's sense (R127 to R129). -/
def Fmt.encode (f : Fmt) (rtz sat : Bool) (x : Num) : Nat × Bool :=
  match f with
  | .fp g => g.encode rtz sat x
  | .int w => (wrapCode w (x.toIntClamped rtz f.bounds.1 f.bounds.2), false)
  | .nat w => (wrapCode w (x.toIntClamped rtz f.bounds.1 f.bounds.2), false)

/-- An FP32 word's number. -/
def num32 (w : BitVec 32) : Num := fp32.decode w.toNat

/-- RoundNE to FP32 (R140, R144). -/
def roundNE32 (x : Num) : BitVec 32 := BitVec.ofNat 32 (fp32.encode false false x).1

/-- FP32 a + b, one RNE rounding, NaN by R119. -/
def fadd32 (a b : BitVec 32) : BitVec 32 :=
  roundNE32 (Num.withNan [num32 a, num32 b] ((num32 a).add (num32 b)))

/-- The largest r with r × r ≤ n, found bit by bit from bit k − 1 down. -/
def isqrtFrom (n : Nat) : Nat → Nat → Nat
  | 0, r => r
  | k + 1, r => if (r + 2 ^ k) * (r + 2 ^ k) ≤ n then isqrtFrom n k (r + 2 ^ k) else isqrtFrom n k r

/-- The integer square root. -/
def isqrt (n : Nat) : Nat := isqrtFrom n (Nat.log2 n / 2 + 1) 0

end Sys2Proof.Machine
end

