-- ==== Sys2Proof/Machine/Checks.lean ====
section
/-!
DEFINITION. The checks of R361 that a word alone decides, in their order; the clusters an opcode is valid in (R359); and the words that may
not stand at a loop's end (R100) or in DXW (R330).
-/

namespace Sys2Proof.Machine

/-- Is the OP valid in the cluster (R359)? -/
def opAllowed (op : Nat) (k : Cluster) : Bool :=
  if op < 0x40 then true
  else if op < 0x80 then k = .A
  else if op < 0xC0 then k = .V
  else if op < 0xE0 then k = .M
  else if op < 0xED then k = .C
  else true

/-- The lowest OP of a core instruction's words (R359); 0 for a Sage word or an event, which no cluster issues. -/
def opOf : Instr → Nat
  | .illegal _ => 0x00
  | .nop => 0x01
  | .add _ _ _ _ _ _ => 0x02
  | .sub _ _ _ _ _ _ => 0x03
  | .mul _ _ _ _ _ _ => 0x04
  | .mulh _ _ _ _ _ _ => 0x05
  | .mulhu _ _ _ _ _ _ => 0x06
  | .div _ _ _ _ _ _ => 0x07
  | .divu _ _ _ _ _ _ => 0x08
  | .rem _ _ _ _ _ _ => 0x09
  | .remu _ _ _ _ _ _ => 0x0A
  | .and _ _ _ _ _ => 0x0B
  | .andn _ _ _ _ _ => 0x0C
  | .or _ _ _ _ _ => 0x0D
  | .xor _ _ _ _ _ => 0x0E
  | .sll _ _ _ _ _ _ => 0x0F
  | .srl _ _ _ _ _ _ => 0x10
  | .sra _ _ _ _ _ _ => 0x11
  | .min _ _ _ _ _ _ => 0x12
  | .max _ _ _ _ _ _ => 0x13
  | .minu _ _ _ _ _ _ => 0x14
  | .maxu _ _ _ _ _ _ => 0x15
  | .mov _ _ _ => 0x16
  | .sel _ _ _ _ _ _ _ => 0x17
  | .cmp _ _ _ _ _ _ _ => 0x18
  | .pset _ _ _ _ => 0x19
  | .addi _ _ _ => 0x1A
  | .muli _ _ _ => 0x1B
  | .andi _ _ _ => 0x1C
  | .ori _ _ _ => 0x1D
  | .xori _ _ _ => 0x1E
  | .slli _ _ _ => 0x1F
  | .srli _ _ _ => 0x20
  | .srai _ _ _ => 0x21
  | .mini _ _ _ => 0x22
  | .maxi _ _ _ => 0x23
  | .minui _ _ _ => 0x24
  | .maxui _ _ _ => 0x25
  | .cmpiEq _ _ _ => 0x26
  | .cmpiNe _ _ _ => 0x27
  | .cmpiLt _ _ _ => 0x28
  | .cmpiGe _ _ _ => 0x29
  | .cmpiLe _ _ _ => 0x2A
  | .cmpiGt _ _ _ => 0x2B
  | .cmpiLtu _ _ _ => 0x2C
  | .cmpiGeu _ _ _ => 0x2D
  | .cmpiLeu _ _ _ => 0x2E
  | .cmpiGtu _ _ _ => 0x2F
  | .li _ _ => 0x30
  | .lih _ _ => 0x31
  | .b _ _ _ => 0x32
  | .bz _ _ => 0x33
  | .bnz _ _ => 0x34
  | .jmp _ _ => 0x35
  | .call _ _ => 0x36
  | .callr _ _ _ => 0x37
  | .ret _ _ => 0x38
  | .loop _ _ _ _ => 0x39
  | .loopi _ _ _ _ => 0x3A
  | .csrr _ _ => 0x3B
  | .csrw _ _ => 0x3C
  | .waitfRead _ _ => 0x3D
  | .waitfTake _ _ => 0x3D
  | .waitfPut _ _ => 0x3D
  | .waitfEmpty _ => 0x3D
  | .fence _ _ => 0x3E
  | .rdv => 0x3F
  | .ld _ _ _ _ _ _ _ _ => 0x40
  | .ldAcq _ _ _ _ _ _ _ _ => 0x44
  | .st _ _ _ _ _ _ _ => 0x48
  | .stRel _ _ _ _ _ _ _ => 0x4C
  | .ldo _ _ _ _ => 0x50
  | .ldoS _ _ _ _ => 0x54
  | .stoB _ _ _ => 0x57
  | .stoH _ _ _ => 0x58
  | .stoW _ _ _ => 0x59
  | .sto _ _ _ => 0x5A
  | .aaddW _ _ _ _ _ _ _ _ => 0x5B
  | .aadd _ _ _ _ _ _ _ _ => 0x5C
  | .afadd _ _ _ _ _ _ _ _ => 0x5D
  | .aandW _ _ _ _ _ _ _ _ => 0x5E
  | .aand _ _ _ _ _ _ _ _ => 0x5F
  | .aorW _ _ _ _ _ _ _ _ => 0x60
  | .aor _ _ _ _ _ _ _ _ => 0x61
  | .axorW _ _ _ _ _ _ _ _ => 0x62
  | .axor _ _ _ _ _ _ _ _ => 0x63
  | .aminW _ _ _ _ _ _ _ _ => 0x64
  | .amin _ _ _ _ _ _ _ _ => 0x65
  | .aminuW _ _ _ _ _ _ _ _ => 0x66
  | .aminu _ _ _ _ _ _ _ _ => 0x67
  | .amaxW _ _ _ _ _ _ _ _ => 0x68
  | .amax _ _ _ _ _ _ _ _ => 0x69
  | .amaxuW _ _ _ _ _ _ _ _ => 0x6A
  | .amaxu _ _ _ _ _ _ _ _ => 0x6B
  | .axchgW _ _ _ _ _ _ _ _ => 0x6C
  | .axchg _ _ _ _ _ _ _ _ => 0x6D
  | .acasW _ _ _ _ _ _ _ _ => 0x6E
  | .acas _ _ _ _ _ _ _ _ => 0x6F
  | .qrd _ _ _ _ _ _ _ _ => 0x70
  | .qwr _ _ _ _ _ _ _ _ => 0x74
  | .hinfo _ _ _ _ _ _ => 0x78
  | .pub _ _ _ => 0x79
  | .copy _ _ _ _ => 0x7A
  | .send _ _ _ _ => 0x7A
  | .mcast _ _ _ _ => 0x7A
  | .redw _ _ _ _ => 0x7A
  | .brarv _ _ _ _ _ => 0x7B
  | .mark => 0x7C
  | .waita _ _ _ _ _ => 0x7D
  | .waitc _ _ _ => 0x7E
  | .waitct _ _ _ _ _ => 0x7F
  | .vadd _ _ _ _ _ => 0x80
  | .vsub _ _ _ _ _ => 0x81
  | .vmul _ _ _ _ _ => 0x82
  | .vfma _ _ _ _ _ => 0x83
  | .vfms _ _ _ _ _ => 0x84
  | .vfnma _ _ _ _ _ => 0x85
  | .vadds _ _ _ _ _ => 0x86
  | .vsubs _ _ _ _ _ => 0x87
  | .vmuls _ _ _ _ _ => 0x88
  | .vdiv _ _ _ _ _ => 0x89
  | .vabs _ _ _ _ => 0x8A
  | .vneg _ _ _ _ => 0x8B
  | .vmin _ _ _ _ _ => 0x8C
  | .vmax _ _ _ _ _ => 0x8D
  | .vclamp _ _ _ _ _ => 0x8E
  | .vrint _ _ _ _ => 0x8F
  | .vcvt _ _ _ _ _ _ _ => 0x90
  | .vcvtN _ _ _ _ _ _ => 0x99
  | .vexp _ _ _ => 0x9A
  | .vexp2 _ _ _ => 0x9B
  | .vlog _ _ _ => 0x9C
  | .vlog2 _ _ _ => 0x9D
  | .vrcp _ _ _ => 0x9E
  | .vrsqrt _ _ _ => 0x9F
  | .vsqrt _ _ _ => 0xA0
  | .vtanh _ _ _ => 0xA1
  | .vsigm _ _ _ => 0xA2
  | .vsin _ _ _ => 0xA3
  | .vcos _ _ _ => 0xA4
  | .vcmp _ _ _ _ _ => 0xA5
  | .vsel _ _ _ _ => 0xA6
  | .vand _ _ _ _ => 0xA7
  | .vor _ _ _ _ => 0xA8
  | .vxor _ _ _ _ => 0xA9
  | .vandn _ _ _ _ => 0xAA
  | .vnot _ _ _ => 0xAB
  | .vsll _ _ _ _ => 0xAC
  | .vsrl _ _ _ _ => 0xAD
  | .vsra _ _ _ _ => 0xAE
  | .vrsum _ _ _ => 0xAF
  | .vrsumsq _ _ _ => 0xB0
  | .vrmax _ _ _ => 0xB1
  | .vrmin _ _ _ => 0xB2
  | .vramax _ _ _ => 0xB3
  | .vscan _ _ _ => 0xB4
  | .vscanmax _ _ _ => 0xB5
  | .vscanseg _ _ _ _ => 0xB6
  | .vperm _ _ _ _ => 0xB7
  | .vrote _ _ _ _ => 0xB8
  | .vbcast _ _ _ _ => 0xB9
  | .vmov _ _ _ => 0xBA
  | .vget _ _ _ _ _ => 0xBB
  | .vput _ _ _ _ _ => 0xBC
  | .vshp _ _ _ => 0xBD
  | .vshpr _ _ => 0xBE
  | .vpopc _ _ _ => 0xBF
  | .mseta _ _ _ _ _ _ _ => 0xC0
  | .msetac _ _ _ => 0xC2
  | .minca _ _ _ => 0xC4
  | .msetb _ _ _ _ _ _ _ => 0xC6
  | .msetbc _ _ _ => 0xC8
  | .mincb _ _ _ => 0xCA
  | .msetc _ _ _ _ _ => 0xCC
  | .msetcc _ _ _ => 0xCE
  | .mincc _ _ _ => 0xD0
  | .mfmt _ _ _ => 0xD2
  | .mstamp _ _ => 0xD4
  | .mmul _ => 0xD6
  | .mzero _ _ => 0xD8
  | .mdrain _ => 0xDA
  | .mwait _ _ => 0xDC
  | .mprog _ _ => 0xDE
  | .fork _ _ => 0xE0
  | .done => 0xE1
  | .spawn _ _ _ _ _ _ => 0xE2
  | .join _ _ _ _ _ _ => 0xE3
  | .phint _ _ _ _ => 0xE4
  | .svc _ _ _ _ _ _ => 0xE5
  | .iinv _ _ => 0xE6
  | .commit => 0xE7
  | .bset _ _ _ => 0xE8
  | .barv _ _ => 0xE9
  | .bwait _ _ => 0xEA
  | .bsync _ _ => 0xEB
  | .bstat _ _ _ => 0xEC
  | .csrs _ _ _ => 0xED
  | .csrc _ _ _ => 0xEE
  | .waitd _ _ _ => 0xEF
  | .trap _ _ => 0xF0
  | .brk _ => 0xFF
  | _ => 0

/-- The subcause of the first condition that holds (R361). -/
def firstFail : List (Bool × Nat) → Option Nat
  | [] => none
  | (c, sub) :: r => if c then some sub else firstFail r

/-- A scope field of 6 or 7 (R179, R361 order 6). -/
def badScope (c : BitVec 3) : Bool := decide (6 ≤ c.toNat)

/-- A VR source selector that R108 does not allow. -/
def badSource (a : BitVec 5) : Bool := decide (24 ≤ a.toNat ∧ a.toNat ≤ 27) || decide (30 ≤ a.toNat)

/-- A VR destination selector that R108 does not allow. -/
def badDest (d : BitVec 5) : Bool := decide (16 ≤ d.toNat ∧ d.toNat ≤ 23) || decide (28 ≤ d.toNat)

/-- Is the selector no tile (R464: a destination that is also read)? -/
def notTile (d : BitVec 5) : Bool := decide (16 ≤ d.toNat)

/-- A bsc field without a selector 29 to use it (R356). -/
def strayBsc (a b x : BitVec 5) : Bool := a ≠ 29 && b ≠ 29 && x ≠ 0

/-- The word checks of a VR word with two sources (R356, R108). -/
def checkVR (d a b x : BitVec 5) : Option Nat :=
  firstFail [(strayBsc a b x, 0x04), (badDest d || badSource a || badSource b, 0x05)]

/-- The same of a word whose destination is read as well (R464). -/
def checkVRD (d a b x : BitVec 5) : Option Nat :=
  firstFail [(strayBsc a b x, 0x04), (badDest d || notTile d || badSource a || badSource b, 0x05)]

/-- The same of a word with one source. -/
def checkV1 (d a x : BitVec 5) : Option Nat := checkVR d a 0 x

/-- An atomic without a returned value names no destination (R371); its scope is a scope. -/
def checkAtomic (d : BitVec 5) (c : BitVec 3) (r : Bool) : Option Nat :=
  firstFail [(!r && d ≠ 0, 0x04), (badScope c, 0x0C)]

/-- An XC word without a reply names no destination (R246). -/
def checkXc (d : BitVec 5) (r : Bool) : Option Nat := firstFail [(!r && d ≠ 0, 0x04)]

/-- MSETA and MSETB: without QSRC no queue, with it no handle (R431). -/
def checkMset (a : BitVec 5) (n : BitVec 3) (q : Bool) : Option Nat :=
  firstFail [((!q && n ≠ 0) || (q && a ≠ 0), 0x04)]

/-- An accumulator of the other array (R110). -/
def otherArray (y : Bool) (c : BitVec 4) : Bool := c.getLsbD 3 != y

/-- A SPAWN or JOIN domain that is not assigned (R355, R457). -/
def badDomain (o : BitVec 3) : Bool := o = 0 || o = 6 || o = 7

/-- The subcause of the first word check of R361, orders 3 to 8, that a decoded word fails: the conditions on its fields that are left when
the bits defined as zero are zero. -/
def fieldCheck : Instr → Option Nat
  | .pset _ a b o => firstFail [(decide (6 ≤ o.toNat) && (a ≠ 0 || b ≠ 0), 0x04)]
  | .cmp _ _ _ _ _ _ c => firstFail [(decide (10 ≤ c.toNat), 0x03)]
  | .fence e c => firstFail [(badScope c, 0x0C), (e = 0, 0x0D)]
  | .ld w _ _ _ _ _ c x => firstFail [(x && w = 3, 0x04), (badScope c, 0x0C)]
  | .ldAcq w _ _ _ _ _ c x => firstFail [(x && w = 3, 0x04), (badScope c, 0x0C)]
  | .st _ _ _ _ _ _ c => firstFail [(badScope c, 0x0C)]
  | .stRel _ _ _ _ _ _ c => firstFail [(badScope c, 0x0C)]
  | .aaddW d _ _ _ _ c _ r => checkAtomic d c r
  | .aadd d _ _ _ _ c _ r => checkAtomic d c r
  | .afadd d _ _ _ _ c _ r => checkAtomic d c r
  | .aandW d _ _ _ _ c _ r => checkAtomic d c r
  | .aand d _ _ _ _ c _ r => checkAtomic d c r
  | .aorW d _ _ _ _ c _ r => checkAtomic d c r
  | .aor d _ _ _ _ c _ r => checkAtomic d c r
  | .axorW d _ _ _ _ c _ r => checkAtomic d c r
  | .axor d _ _ _ _ c _ r => checkAtomic d c r
  | .aminW d _ _ _ _ c _ r => checkAtomic d c r
  | .amin d _ _ _ _ c _ r => checkAtomic d c r
  | .aminuW d _ _ _ _ c _ r => checkAtomic d c r
  | .aminu d _ _ _ _ c _ r => checkAtomic d c r
  | .amaxW d _ _ _ _ c _ r => checkAtomic d c r
  | .amax d _ _ _ _ c _ r => checkAtomic d c r
  | .amaxuW d _ _ _ _ c _ r => checkAtomic d c r
  | .amaxu d _ _ _ _ c _ r => checkAtomic d c r
  | .axchgW d _ _ _ _ c _ r => checkAtomic d c r
  | .axchg d _ _ _ _ c _ r => checkAtomic d c r
  | .acasW _ _ _ _ _ c _ _ => firstFail [(badScope c, 0x0C)]
  | .acas _ _ _ _ _ c _ _ => firstFail [(badScope c, 0x0C)]
  | .qrd _ _ _ _ _ _ c _ => firstFail [(badScope c, 0x0C)]
  | .qwr _ _ _ _ _ _ c _ => firstFail [(badScope c, 0x0C)]
  | .hinfo _ _ b _ n i => firstFail [(i ≠ 0x11 && (b ≠ 0 || n), 0x04), (decide (0x12 ≤ i.toNat), 0x03)]
  | .copy d _ _ r => checkXc d r
  | .send d _ _ r => checkXc d r
  | .mcast d _ _ r => checkXc d r
  | .redw d _ _ r => checkXc d r
  | .brarv _ _ _ _ c => firstFail [(badScope c, 0x0C)]
  | .vadd d a b _ x => checkVR d a b x
  | .vsub d a b _ x => checkVR d a b x
  | .vmul d a b _ x => checkVR d a b x
  | .vfma d a b _ x => checkVRD d a b x
  | .vfms d a b _ x => checkVRD d a b x
  | .vfnma d a b _ x => checkVRD d a b x
  | .vadds d a b _ x => checkVR d a b x
  | .vsubs d a b _ x => checkVR d a b x
  | .vmuls d a b _ x => checkVR d a b x
  | .vdiv d a b _ x => checkVR d a b x
  | .vabs d a _ x => checkV1 d a x
  | .vneg d a _ x => checkV1 d a x
  | .vmin d a b _ x => checkVR d a b x
  | .vmax d a b _ x => checkVR d a b x
  | .vclamp d a b _ x => checkVRD d a b x
  | .vrint d a _ x => checkV1 d a x
  | .vcvt _ d a _ _ _ x => checkV1 d a x
  | .vcvtN d a _ _ _ _ => firstFail [(badDest d || badSource a, 0x05)]
  | .vexp d a x => checkV1 d a x
  | .vexp2 d a x => checkV1 d a x
  | .vlog d a x => checkV1 d a x
  | .vlog2 d a x => checkV1 d a x
  | .vrcp d a x => checkV1 d a x
  | .vrsqrt d a x => checkV1 d a x
  | .vsqrt d a x => checkV1 d a x
  | .vtanh d a x => checkV1 d a x
  | .vsigm d a x => checkV1 d a x
  | .vsin d a x => checkV1 d a x
  | .vcos d a x => checkV1 d a x
  | .vcmp d a b _ x => checkVR d a b x
  | .vsel d a b x => checkVRD d a b x
  | .vand d a b x => checkVR d a b x
  | .vor d a b x => checkVR d a b x
  | .vxor d a b x => checkVR d a b x
  | .vandn d a b x => checkVR d a b x
  | .vnot d a x => checkV1 d a x
  | .vsll d a b x => checkVR d a b x
  | .vsrl d a b x => checkVR d a b x
  | .vsra d a b x => checkVR d a b x
  | .vrsum d a x => checkV1 d a x
  | .vrsumsq d a x => checkV1 d a x
  | .vrmax d a x => checkV1 d a x
  | .vrmin d a x => checkV1 d a x
  | .vramax d a x => checkV1 d a x
  | .vscan d a x => checkV1 d a x
  | .vscanmax d a x => checkV1 d a x
  | .vscanseg d a b x => checkVR d a b x
  | .vperm d a b x => checkVR d a b x
  | .vrote d a b x => checkVR d a b x
  | .vbcast d a b x => checkVR d a b x
  | .vmov d a x => checkV1 d a x
  | .vpopc d a x => checkV1 d a x
  | .vget _ a _ _ _ => firstFail [(badSource a || a = 29, 0x05)]
  | .vput _ a _ _ _ => firstFail [(notTile a, 0x05)]
  | .mseta _ a _ n q _ _ => checkMset a n q
  | .msetb _ a _ n q _ _ => checkMset a n q
  | .msetc y _ _ _ c => firstFail [(otherArray y c, 0x05)]
  | .mzero y c => firstFail [(otherArray y c, 0x05)]
  | .mwait y b => firstFail [(y && b, 0x04)]
  | .spawn _ _ _ _ _ o => firstFail [(badDomain o, 0x03)]
  | .join _ _ _ _ _ o => firstFail [(badDomain o, 0x03)]
  | .bset c _ _ => firstFail [(badScope c, 0x0C)]
  | _ => none

/-- The subcause of ILLEGAL that the word alone decides in a cluster (R361), if any. -/
def checkWord (k : Cluster) (i : Instr) : Option Nat :=
  if opAllowed (opOf i) k then fieldCheck i else some 0x02

/-- The words that may not be the end word of an active loop (R100). -/
def endForbidden : Instr → Bool
  | .b _ _ _ => true
  | .bz _ _ => true
  | .bnz _ _ => true
  | .jmp _ _ => true
  | .call _ _ => true
  | .callr _ _ _ => true
  | .ret _ _ => true
  | .loop _ _ _ _ => true
  | .loopi _ _ _ _ => true
  | .fork _ _ => true
  | .rdv => true
  | .done => true
  | _ => false

/-- The words that DXW may not execute (R330). -/
def dxwForbidden : Instr → Bool
  | .brk _ => true
  | i => endForbidden i

end Sys2Proof.Machine
end

