-- ==== Sys2Proof/Machine/Record.lean ====
section
/-!
DEFINITION. The record buffer of a core (R335 to R339): its records, their placement, and the wait log.
-/

namespace Sys2Proof.Machine

/-- CRC-8 with polynomial 0x07 over one byte's bits, high bit first (R337). -/
def crc8Bits : Nat → Byte → Byte
  | 0, c => c
  | n + 1, c => crc8Bits n (if c.getLsbD 7 then (c <<< 1) ^^^ 0x07#8 else c <<< 1)

/-- CRC-8 over bytes (R337). -/
def crc8 : Byte → List Byte → Byte
  | c, [] => c
  | c, b :: r => crc8 (crc8Bits 8 (c ^^^ b)) r

/-- A record's header without its CRC (R337). -/
def recordHeader (core len type : Nat) : Nat := core % 64 * 2 ^ 32 + len % 256 * 2 ^ 16 + type % 256 * 2 ^ 8 + 0xA5

/-- The bytes of a record: header with CRC, then the body (R337). -/
def recordBytes (core type : Nat) (body : List DWord) : List Byte :=
  let h := recordHeader core (body.length + 1) type
  let rest := (body.map fun w => bytesOfNat 8 w.toNat).flatten
  let crc := crc8 0 (bytesOfNat 8 h ++ rest)
  bytesOfNat 8 (h + crc.toNat * 2 ^ 24) ++ rest

/-- A PAD record's header over `n` bytes: its CRC covers the header only (R337). -/
def padBytes (core n : Nat) : List Byte :=
  let h := recordHeader core (n / 8) 0x01
  bytesOfNat 8 (h + (crc8 0 (bytesOfNat 8 h)).toNat * 2 ^ 24)

/-- The innermost active loop of a cluster (R337): of two active ones that with INNER set. -/
def ClusterState.innermost (x : ClusterState) : Option Bool :=
  if x.loop0.act && x.loop1.act then some x.loop1.inner
  else if x.loop0.act then some false
  else if x.loop1.act then some true
  else none

/-- A cluster word of a SAMPLE or STOP record (R337). -/
def ClusterState.word (x : ClusterState) : DWord :=
  let inner := x.innermost.getD false
  let iter : BitVec 32 := match x.innermost with
    | some n => (x.loop n).iter
    | none => 0
  iter.extractLsb' 0 20 ++ BitVec.ofBool x.syncWait ++ BitVec.ofBool x.running ++ x.pred.extractLsb' 1 7 ++
    BitVec.ofBool inner ++ BitVec.ofBool x.loop1.act ++ BitVec.ofBool x.loop0.act ++ BitVec.ofInt 32 x.pc

/-- The four cluster words of a core, in order A, V, M, C (R337). -/
def Core.clusterWords (c : Core) : List DWord := allClusters.map fun k => (c.cl k).word

/-- WRP after a record of `n` bytes, and the tail bytes a PAD fills before it (R338). -/
def placeRecord (size wrp n : Nat) : Nat × Nat :=
  let off := wrp % size
  let pad := if off + n > size then size - off else 0
  (wrp + pad + n, pad)

/-- One record's bytes written at `wrp`, after a PAD where it would cross the end (R338). -/
def State.placeBytes (s : State) (core base size wrp : Nat) (bs : List Byte) : State × Nat :=
  let (w, pad) := placeRecord size wrp bs.length
  let s := if pad = 0 then s else s.setHomeBytes (base + wrp % size) (padBytes core pad)
  (s.setHomeBytes (base + (wrp + pad) % size) bs, w)

/-- A record written to a core's buffer, or dropped and counted; an owed LOST record goes first (R338). -/
def State.emit (s : State) (n type : Nat) (body : List DWord) : State :=
  let c := s.coreAt n
  let base := (c.dbuf.extractLsb' 12 31).toNat * 4096
  let size := 2 ^ (c.dbuf.extractLsb' 43 5).toNat
  let wrp := (c.dbuf.extractLsb' 64 32).toNat
  let rdp := (c.dbuf.extractLsb' 128 32).toNat
  let bs := recordBytes n type body
  let lost := recordBytes n 0x02 [BitVec.ofNat 64 c.lostCount, c.lostFirst]
  let (w1, _) := if c.lostOwed then placeRecord size wrp lost.length else (wrp, 0)
  let (w2, _) := placeRecord size w1 bs.length
  if (w2 + 2 ^ 32 - rdp) % 2 ^ 32 > size then
    let drop := (c.dbuf.extractLsb' 160 32) + 1
    s.setCoreAt n
      { c with
        dbuf := drop ++ c.dbuf.extractLsb' 0 160
        lostOwed := true
        lostFirst := if c.lostOwed then c.lostFirst else BitVec.ofNat 64 s.dcc
        lostCount := c.lostCount + 1 }
  else
    let (s, w) := if c.lostOwed then s.placeBytes n base size wrp lost else (s, wrp)
    let (s, w) := s.placeBytes n base size w bs
    s.setCoreAt n
      { c with
        dbuf := c.dbuf.extractLsb' 96 96 ++ BitVec.ofNat 32 w ++ c.dbuf.extractLsb' 0 64
        lostOwed := false
        lostCount := 0 }

/-- DCTL.WMIN (R335). -/
def Core.wmin (c : Core) : Nat := (c.dctl.extractLsb' 32 32).toNat

/-- The cluster whose change of a register ended a wait for it to be full, or empty: the last of an earlier cycle (R91, R339). -/
def Core.changer (c : Core) (now : Nat) (r : BitVec 5) (full : Bool) : Option Cluster :=
  ((c.reg r).hist.find? fun e => decide (e.cycle < now) && decide (e.full = full)).map Change.writer

/-- The agent that satisfied a wait of that kind (R339): the cluster that filled the register, or emptied it, the agent that set the chunk's bit, the copy
engine, the last arrival. -/
def State.satisfier (s : State) (n kind : Nat) (obj : DWord) : Nat :=
  let c := s.coreAt n
  let byCluster := fun full => ((c.changer s.dcc (obj.extractLsb' 0 5) full).map (agentId n)).getD 0x1FE
  match kind with
  | 1 => byCluster true
  | 2 => s.bitAgents.get 0x1FE obj.toNat % 512
  | 3 => 0x100 + n
  | 5 => byCluster false
  | _ => (c.barriers.get .start (obj.extractLsb' 0 4).toNat).last.toNat

/-- The kind of a wait as the log has it (R339); 0 for one that it does not record. -/
def loggedKind (kind : Nat) : Nat := if kind = 5 then 1 else if kind ≤ 4 then kind else 0

/-- The WAIT record of a wait of cluster `k` that ends now, where it lasted WMIN cycles and records are on (R339). -/
def State.logWait (s : State) (n : Nat) (k : Cluster) (isOpen : Bool) : State :=
  let c := s.coreAt n
  let x := c.cl k
  match x.since with
  | none => s
  | some _ =>
    let t := x.waitFrom
    if loggedKind x.waitKind ≠ 0 ∧ c.dctl.getLsbD 2 ∧ c.wmin ≤ s.dcc - t then
      let agent := if isOpen then 0x1FE else s.satisfier n x.waitKind x.waitObj
      let cause : DWord :=
        BitVec.ofNat 32 (s.dcc - t) ++ BitVec.ofNat 9 agent ++ BitVec.ofNat 4 (loggedKind x.waitKind) ++
          BitVec.ofNat 2 (clusterIndex k) ++ BitVec.ofBool isOpen ++ 0#16
      s.emit n 0x04 [BitVec.ofNat 64 s.dcc, cause, x.waitObj]
    else s

/-- A SAMPLE record (R337): DCC, context and launch, the cluster words. -/
def State.logSample (s : State) (n : Nat) : State :=
  let c := s.coreAt n
  let ids : DWord := c.ctx.ctx ++ 0#16 ++ c.cr.launch
  s.emit n 0x03 (BitVec.ofNat 64 s.dcc :: ids :: c.clusterWords)

/-- A STOP record (R337), where DCTL.STEN is set (R335). -/
def State.logStop (s : State) (n : Nat) (trapc trapv : DWord) : State :=
  let c := s.coreAt n
  if c.dctl.getLsbD 3 then s.emit n 0x06 (BitVec.ofNat 64 s.dcc :: trapc :: trapv :: c.clusterWords) else s

/-- A WATCH record (R341): DCC, device address, agent word. -/
def State.logWatch (s : State) (n : Nat) (addr agent : Nat) (precise write : Bool) : State :=
  let c := s.coreAt n
  if c.dctl.getLsbD 3 then
    s.emit n 0x07 [BitVec.ofNat 64 s.dcc, BitVec.ofNat 64 addr,
      BitVec.ofNat 64 (agent % 512 + precise.toNat * 512 + write.toNat * 1024)]
  else s

end Sys2Proof.Machine
end

