-- ==== Sys2Proof/Machine/Stops.lean ====
section
/-!
DEFINITION. Taking a stop (R287 to R293): one shared operation for traps, restartable faults and debug stops. The return from one is in
Machine/Resume.lean.
-/

namespace Sys2Proof.Machine

/-- TRAPC (R289). -/
def mkTrapc (pc : BitVec 32) (unit : Nat) (impr : Bool) (sub cause : Nat) : DWord :=
  pc ++ 0#8 ++ BitVec.ofNat 4 unit ++ BitVec.ofBool impr ++ 0#3 ++ BitVec.ofNat 8 sub ++ BitVec.ofNat 8 cause

/-- A cluster stopped at its instruction boundary (R290): a word that had begun to wait is abandoned and issues again, WAITD with the
same target (R476); the sync count keeps its value (R61). -/
def ClusterState.halted (x : ClusterState) (now : Nat) : ClusterState :=
  { x with
    reex := x.reex || x.since.isSome || decide (x.stage ≠ 0)
    syncCount := x.syncCount + match x.syncSince with
      | some t => now - t
      | none => 0
    syncSince := none
    since := none
    waitKind := 0
    stage := 0
    seen := if x.waitKind = 7 then x.seen else []
    found := [] }

/-- A core with every cluster stopped at its boundary (R290). A vector word whose row steps have begun has issued: its steps go on. What a word has asked
another node for it asks again. -/
def Core.haltAll (c : Core) (now : Nat) : Core :=
  let c := { c with remoteReads := c.remoteReads.filter fun x => decide (x.who < 131072) }
  let d := allClusters.foldl (fun d k => d.setCl k ((d.cl k).halted now)) c
  if c.vop.isSome then d.setCl .V { d.cl .V with stage := 1, reex := (c.cl .V).reex } else d

/-- Every cluster of core `n` stopped at its boundary; waits that were open are logged (R290, R339). -/
def State.stopClusters (s : State) (n : Nat) : State :=
  let s := allClusters.foldl (fun s k => s.logWait n k true) s
  s.setCoreAt n ((s.coreAt n).haltAll s.dcc)

/-- The bytes of a commit written at their homes, DIRTY set before where their object is resident (R166, R187). -/
def State.writeVersion (s : State) (rus : Tab (List Nat)) : List (Nat × VByte) → State
  | [] => s
  | (a, b) :: r =>
    let s := (rus.get [] (a / 64)).foldl State.setDirty s
    (s.setHomeBits a b).writeVersion rus r

/-- A commit in progress completes at once (R189, R293 step 2). -/
def State.finishCommit (s : State) (n : Nat) : State :=
  let c := s.coreAt n
  match c.committing with
  | none => s
  | some v =>
    let s := s.writeVersion c.versionRu v.cells
    s.setCoreAt n { s.coreAt n with committing := none, commits := c.commits + 1, commitDcc := BitVec.ofNat 64 s.dcc }

/-- The lines of device memory that an access has still to perform. -/
def Access.deviceLines (x : Access) : List Nat := (x.parts.filterMap fun p => match p.place with
  | .device a => some (a / 64)
  | _ => none).eraseDups

/-- Is it an atomic (R184)? -/
def AccessOp.isAtomic : AccessOp → Bool
  | .atomic _ _ _ _ _ _ => true
  | _ => false

/-- Does an access count as a load, for FENCE (R181)? -/
def AccessOp.isLoad : AccessOp → Bool
  | .load _ _ _ => true
  | .queueRow _ _ => true
  | .atomic _ _ _ _ _ _ => true
  | _ => false

/-- Does an access count as a store, for FENCE (R181)? -/
def AccessOp.isStore : AccessOp → Bool
  | .store _ => true
  | .notify _ _ => true
  | .atomic _ _ _ _ _ _ => true
  | _ => false

/-- Is it an entry of the queues that performs nothing itself? -/
def AccessOp.isMarker : AccessOp → Bool
  | .fence _ => true
  | .mark => true
  | _ => false

/-- Is it a barrier arrival? -/
def AccessOp.isArrival : AccessOp → Bool
  | .arrive _ _ _ _ _ => true
  | _ => false

/-- Is it an engine command that waits to be accepted (R390, R421)? -/
def AccessOp.isCommand : AccessOp → Bool
  | .command _ _ _ _ => true
  | _ => false

/-- Is it a row for a load queue (R106)? -/
def AccessOp.isRow : AccessOp → Bool
  | .queueRow _ _ => true
  | _ => false

/-- The scalar that waits for an access (R92). -/
def AccessOp.dest : AccessOp → Option (BitVec 5)
  | .load d _ _ => some d
  | .atomic _ _ _ _ d _ => d
  | .command _ _ _ d => d
  | _ => none

/-- Does an atomic that has issued, after access `id`, still have to be performed in a line? It commits what the version holds of it (R185). -/
def Core.atomicIn (c : Core) (line id : Nat) : Bool :=
  c.accesses.any fun z => z.op.isAtomic && decide (id ≤ z.id) && z.deviceLines.contains line

/-- Does a trap discard an access (R189, R293): an engine command not yet accepted; or one that would enter the version, but for what an atomic of an earlier word will have committed (R185)? The
other accesses of words that have issued are performed still (R290). -/
def Core.discards (c : Core) (x : Access) : Bool := x.op.isCommand || x.versioned && !x.deviceLines.any fun l => c.atomicIn l x.id

/-- What a trap leaves of the version: the lines that atomics which stand are to commit (R185, R189). -/
def Core.keptVersion (c : Core) : Tab VByte := ⟨c.version.cells.filter fun e => c.atomicIn (e.1 / 64) 0⟩

/-- The results that are known written: words that have issued complete, and a division lands before a trap's discard (R290, R395). -/
def Core.landed (c : Core) (now : Nat) : Core :=
  (List.range 32).foldl (fun c r =>
    match (c.reg (BitVec.ofNat 5 r)).pending with
    | some ⟨k, _, some v⟩ =>
      let c := c.change now k (BitVec.ofNat 5 r) v true
      { c with scal := c.scal.put r { c.reg (BitVec.ofNat 5 r) with pending := none } }
    | _ => c) c

/-- What a trap discards (R293): the version, the pending-spawn buffer, the queues, the accumulators, the arrays' operations, the engine
commands, the reassembly slots, and the accesses that do not complete. -/
def Core.discard (c : Core) : Core :=
  { c with
    remoteReads := []
    version := c.keptVersion
    openJoin := if c.spawn.any HeldEntry.isJoin then none else c.openJoin
    spawn := []
    loadq := .empty
    loadqTickets := .empty
    storeq := .empty
    acc := .empty
    accs := .empty
    arrayX := { c.arrayX with pend := none, ops := [] }
    arrayY := { c.arrayY with pend := none, ops := [] }
    vop := none
    commands := []
    slots := .empty
    svc := none
    save := none
    preempt := none
    accesses := c.accesses.filter fun x => !c.discards x }

/-- DXW after the word it executed has completed: BUSY clears (R330). -/
def dxwDone (w : DWord) : DWord := w &&& 0xFFFFFFFBFFFFFFFF#64

/-- DXW after a stop of the word it executed: BUSY clears, ERR is set (R330). -/
def dxwStopped (w : DWord) : DWord := if w.getLsbD 34 then (w &&& 0xFFFFFFFBFFFFFFFF#64) ||| 0x0000000800000000#64 else w

/-- Is a trap pending: an imprecise one that is owed and not yet taken (R291)? -/
def Core.trapOwed (c : Core) : Bool :=
  match c.pendingTrap with
  | some st => decide (st.kind ≠ .fault)
  | none => false

/-- Has the task of the core ended by a trap? -/
def Core.trapped (c : Core) : Bool :=
  match c.stop with
  | some st => decide (st.kind ≠ .fault)
  | none => false

/-- Is a stop of this kind discarded: nothing runs, the task has ended by a trap, or it is a fault while a trap is pending, a stop stands or the task is
being saved (R291)? The word of DXW may fault while the task is stopped (R330). -/
def Core.ignoresStop (c : Core) (kind : StopKind) : Bool :=
  (decide (kind = .fault) && c.trapOwed) ||
  match c.stop with
  | some st => decide (st.kind ≠ .fault) || (decide (kind = .fault) && !c.dxw.getLsbD 34)
  | none => !c.busy || (decide (kind = .fault) && c.save.isSome)

/-- Does a trap wait: an imprecise one while the task is being saved (R306 PTV), or any before the record of the stop that stands is written
(R294)? -/
def Core.defersStop (c : Core) (kind : StopKind) (impr : Bool) : Bool :=
  decide (kind ≠ .fault) && (match c.stop with
    | some st => !st.recorded
    | none => c.save.isSome && impr)

/-- A stop that falls due but waits; of several the first trap counts, else the first debug stop (R291). -/
def State.deferStop (s : State) (n : Nat) (st : Stop) : State :=
  let c := s.coreAt n
  if c.trapOwed || (c.pendingTrap.isSome && decide (st.kind = .fault)) then s else s.setCoreAt n { c with pendingTrap := some st }

/-- A stop of core `n` taken (R290 to R293): TRAPC and TRAPV take it, every cluster stops, and a trap completes the commit in progress and
discards what R293 lists. -/
def State.stopWith (s : State) (n : Nat) (st : Stop) : State :=
  let s := if st.kind = .fault then s else s.finishCommit n
  let s := s.stopClusters n
  let c := (s.coreAt n).landed s.dcc
  let infl := c.commands.length
  let c := if st.kind = .fault then c else c.discard
  let c :=
    { c with
      trapc := st.trapc
      trapv := st.trapv
      cr := { c.cr with state := if st.kind = .fault then .suspended else .ended }
      dxw := dxwStopped c.dxw
      dxwIssued := none
      halting := c.halting && decide (st.kind = .fault) && decide (st.trapc.extractLsb' 0 8 ≠ 0x1D#8)
      stop := some { st with dcc := s.dcc, infl := infl } }
  (s.setCoreAt n c).logStop n st.trapc st.trapv

/-- Has the commit of the task's DONE begun (R396)? The task then ends by DONE. -/
def Core.finishing (c : Core) : Bool := decide ((c.cl .C).stage = 8)

/-- Does a stop come too late: an imprecise cause found once the commit of DONE has begun (R396)? A member of a gang that fails does not end by DONE even
then (R312). -/
def Core.tooLate (c : Core) (kind : StopKind) (impr : Bool) : Bool :=
  impr && c.finishing && decide (kind ≠ .gang) && !(decide (kind = .trap) && c.gang.isSome)

/-- A stop of core `n` (R287, R290, R291). -/
def State.takeStop (s : State) (n : Nat) (kind : StopKind) (unit : Nat) (pc : BitVec 32) (impr debug : Bool)
    (t : TrapInfo) (orig : BitVec 6) : State :=
  let c := s.coreAt n
  let st : Stop := ⟨kind, mkTrapc pc unit impr t.sub t.cause, t.trapv, t.coord, t.ru, orig, s.dcc, debug, false, false, 0⟩
  if c.ignoresStop kind || c.tooLate kind impr then s
  else if c.defersStop kind impr then s.deferStop n st
  else s.stopWith n st

/-- A Ready member of a gang that has failed at core `orig` (R312). -/
def ReadyCr.failWith (g orig : Nat) (x : ReadyCr) : ReadyCr :=
  match x.gang with
  | some (k, _) => if k = g then { x with failedGang := some (BitVec.ofNat 6 orig) } else x
  | none => x

/-- The other members of the gang of core `n`'s task trap with GANGF, running ones now and saved ones when they resume (R312). -/
def State.failMembers (s : State) (n g : Nat) : State :=
  let s := { s with ready := s.ready.map (ReadyCr.failWith g n) }
  (List.range 64).foldl (fun s m =>
    match (s.coreAt m).gang with
    | some (k, _) =>
      if k = g ∧ m ≠ n ∧ (s.coreAt m).busy then
        s.takeStop m .gang 7 0 true false ⟨0x1B, 0, BitVec.ofNat 64 n, [], 0⟩ (BitVec.ofNat 6 n)
      else s
    | none => s) s

/-- An uncorrectable error of a unit (R326) reported to the task of core `n`: UNCORR, and the failure of its gang (R288, R312). -/
def State.uncorrectable (s : State) (n unit : Nat) : State :=
  if !(s.coreAt n).busy then s
  else
    let t := s.takeStop n .trap 7 0 true false ⟨0x1A, 0, BitVec.ofNat 64 unit, [], 0⟩ 0
    match (s.coreAt n).gang with
    | some (g, _) => t.failMembers n g
    | none => t

/-- An uncorrectable error that an array meets (R239, R425, R428): the record names the array as its unit and, by the coordinates, the row; or, at its MMUL
before array issue, that word. -/
def State.uncorrectableAt (s : State) (n unit : Nat) (pc : BitVec 32) (impr : Bool) (t : TrapInfo) : State :=
  let u := s.takeStop n .trap unit pc impr false t 0
  match (s.coreAt n).gang with
  | some (g, _) => u.failMembers n g
  | none => u

/-- Does a failed die bridge part core `n` from the home of a device address (R313): on the other die; or, of a host-bias frame, the host, which die 1 reaches
by the bridge alone (R14, R196)? -/
def State.cutOff (s : State) (n a : Nat) : Bool :=
  s.bridgeFailed && (decide (homeOf a / 8 ≠ dieOf n) || (decide (dieOf n = 1) && s.hostBias.get false (a / 65536)))

/-- The UNCORR of an access across the failed bridge (R313, R326). -/
def bridgeError : Hold := .trap ⟨0x1A, 0, 6, [], 0⟩

/-- The stopping cluster re-executes its word on resumption: where it was a word of a lockstep group, alone, with its sync wait counted as satisfied (R291). The
word counts as the faulting one, not as one that was abandoned (R290, R479). -/
def ClusterState.rearmed (x : ClusterState) : ClusterState :=
  { x with reex := false, satisfied := x.lock || x.satisfied, lock := false, syncWait := false }

/-- The state with the focused cluster so. -/
def State.rearm (s : State) : State := s.setCl s.cl.rearmed

/-- A precise stop at the word of the focused cluster (R290). -/
def State.stopPrecise (s : State) (kind : StopKind) (debug : Bool) (t : TrapInfo) : State :=
  let s' := s.takeStop s.core kind (clusterIndex s.cluster) (BitVec.ofInt 32 s.cl.pc) false debug t 0
  if kind = StopKind.fault ∧ s'.cur.stop.isSome then s'.rearm else s'

/-- An imprecise trap of core `n`: every cluster stops and no word counts as the stopping word (R290, R291). -/
def State.trapImprecise (s : State) (n : Nat) (kind : StopKind) (unit : Nat) (t : TrapInfo) (orig : BitVec 6) : State :=
  s.takeStop n kind unit 0 true false t orig

end Sys2Proof.Machine
end

