-- ==== Sys2Proof/Machine/Issue.lean ====
section
/-!
DEFINITION. How a core word completes or does not: the loop end action (R100), the advance of the program counter (R55), the targets of
branches (R101), and `runWord`, through which every core word's meaning goes.
-/

namespace Sys2Proof.Machine

/-- LPX and LPC after one end action of a loop, and whether the body runs again (R100). -/
def Loop.step (l : Loop) : Loop × Bool :=
  let iter := l.iter + 1
  let count := l.count - 1
  let again := count ≠ 0
  ({ l with
     lpc := count ++ l.lpc.extractLsb' 0 32
     lpx := mkLpx iter (l.act && again) l.inner (l.lpx.extractLsb' 0 3) }, again)

/-- The stage predicates p1 to pk rotated, p1 telling whether a trip starts (R100). -/
def rotatePreds (p : Byte) (k : Nat) (starts : Bool) : Byte :=
  if k = 0 then p
  else
    let moved := BitVec.ofNat 8 ((p.toNat >>> 1 <<< 2) % 2 ^ (k + 1))
    let kept := BitVec.ofNat 8 (p.toNat >>> (k + 1) <<< (k + 1))
    moved ||| kept ||| (if starts then 3 else 1)

/-- The end action of loop `n` of a cluster; whether the body runs again (R100). -/
def ClusterState.endAction (x : ClusterState) (n : Bool) : ClusterState × Bool :=
  let (l, again) := (x.loop n).step
  let x := { x.setLoop n l with pred := rotatePreds x.pred l.stg (decide (l.iter.toNat < l.trip)) }
  if again then ({ x with pc := l.first }, true) else ({ x with pc := l.last + 4 }, false)

/-- Is the cluster's word the end word of its active loop `n` (R100)? -/
def ClusterState.atEnd (x : ClusterState) (n : Bool) : Bool := (x.loop n).act && decide (x.pc = (x.loop n).last)

/-- The cluster after a word that changes no program counter of its own: the loop end actions, or the next word; and whether it went back
to START (R55, R100). Where both loops end here with equal INNER bits, which CSR writes allow and R100 does not order, loop 1 is tested first if its
INNER is 1, else loop 0 (DESIGN CHOICE, log 50). -/
def ClusterState.advance (x : ClusterState) : ClusterState × Bool :=
  if x.atEnd false && x.atEnd true then
    let n := x.loop1.inner
    let (y, again) := x.endAction n
    if again then (y, true) else y.endAction (!n)
  else if x.atEnd false then x.endAction false
  else if x.atEnd true then x.endAction true
  else ({ x with pc := x.pc + 4 }, false)

/-- The waits of a word that has issued are over (R61, R94). -/
def ClusterState.issued (x : ClusterState) : ClusterState :=
  { x with
    stage := 0, since := none, waitKind := 0, syncSince := none, syncCount := 0, satisfied := false, reex := false, syncWait := false, seen := []
    found := [] }

/-- A debug halt lands just after an end action that goes back to START, or at the next boundary without an active loop (R331). -/
def ClusterState.landed (x : ClusterState) (back : Bool) : ClusterState :=
  if x.haltDue && (back || !(x.loop0.act || x.loop1.act)) then { x with haltDue := false } else x

/-- Does the core execute DXW's word in cluster `k` (R330)? Not once it has issued. -/
def Core.executes (c : Core) (k : Cluster) : Bool :=
  c.dxw.getLsbD 34 && c.dxwIssued.isNone && clusterOf c.dxwCluster = k && (match c.stop with
    | some st => st.kind = .fault
    | none => false)

/-- May cluster `k` of a core issue words: its task has started and is not stopped, being saved or halted at a boundary (R55, R290, R331)? -/
def Core.issues (c : Core) (k : Cluster) : Bool :=
  c.busy && c.started && c.stop.isNone && c.save.isNone && (!c.halting || (c.cl k).haltDue) && (c.cl k).running

/-- A debug halt that every cluster has landed for stops the task (R331): TRAPV tells the clusters that reached no boundary. -/
def State.landHalt (s : State) (n : Nat) : State :=
  let c := s.coreAt n
  if c.halting && c.stop.isNone && allClusters.all fun k => !((c.cl k).haltDue && (c.cl k).running) then
    s.takeStop n .fault 7 0 true true ⟨0x1D, 0, c.haltLate.setWidth 64, [], 0⟩ 0
  else s

/-- The core after the word of DXW has issued in cluster `k`: it has completed, unless accesses of the cluster are still to be performed (R330). -/
def Core.dxwRetired (c : Core) (k : Cluster) : Core :=
  if c.executes k && c.accesses.any (fun x => x.cluster = k && !x.op.isMarker) then { c with dxwIssued := some c.nextId }
  else if c.executes k then { c with dxw := dxwDone c.dxw }
  else c

/-- The state after the word of the focused cluster has issued: its wait is logged and its program counter advances (R55, R100, R339). -/
def State.retire (s : State) : State :=
  let s := s.logWait s.core s.cluster false
  let (x, back) := s.cl.advance
  let s := s.setCl (x.issued.landed back)
  (s.setCur (s.cur.dxwRetired s.cluster)).landHalt s.core

/-- Does the loop's body contain byte offset `t` (R101)? -/
def Loop.contains (l : Loop) (t : Int) : Bool := decide ((l.first : Int) ≤ t ∧ t ≤ l.last)

/-- A loop whose body does not contain the target ends (R101). -/
def Loop.leave (l : Loop) (t : Int) : Loop :=
  if l.act && !l.contains t then { l with lpx := l.lpx &&& 0xFFFFFFFFFFFFFF7F#64 } else l

/-- The state after the word of the focused cluster has issued and the cluster continues at byte offset `t`. -/
def State.goTo (s : State) (t : Int) : State :=
  let s := s.logWait s.core s.cluster false
  let s := s.setCl (({ s.cl with pc := t } : ClusterState).issued.landed false)
  (s.setCur (s.cur.dxwRetired s.cluster)).landHalt s.core

/-- A taken branch or jump to `t`: the loops whose bodies do not contain it end (R101). -/
def State.branchTo (s : State) (t : Int) : State :=
  (s.setCl { s.cl with loop0 := s.cl.loop0.leave t, loop1 := s.cl.loop1.leave t }).goTo t

/-- Has a word that waits so read its operands: it waits for what they name? -/
def operandsRead (kind : Nat) : Bool := decide (2 ≤ kind) && decide (kind ≠ 5)

/-- The state with the focused word waiting: since when, and what the wait log calls it (R94, R339). A word whose earlier wait was of another kind
waits anew from now on, and that wait is logged; block-mode reads of both sources, one after the other, are one wait (log 55). Operands that have been read
are not read again (R474 to R476). -/
def State.waited (s : State) (kind : Nat) (obj : DWord) : State :=
  match s.cl.since with
  | some t =>
    if s.cl.waitKind = kind then s
    else
      let s := s.logWait s.core s.cluster false
      s.setCl { s.cl with
        since := some t, waitKind := kind, waitObj := obj, waitFrom := s.dcc, seen := if operandsRead kind then s.reads else s.cl.seen }
  | none => s.setCl { s.cl with
      since := some s.dcc, waitKind := kind, waitObj := obj, waitFrom := s.dcc, seen := if operandsRead kind then s.reads else s.cl.seen }

/-- What becomes of a word: its next state, or its wait, trap, fault or debug stop (R10, R290). UNCORR is imprecise (R288). -/
def State.settle (s : State) : Except Hold State → State
  | .ok t => t
  | .error (.wait kind obj) => s.waited kind obj
  | .error (.trap t) => if t.cause = 0x1A then s.uncorrectable s.core t.trapv.toNat else s.stopPrecise .trap false t
  | .error (.fault t) => s.stopPrecise .fault false t
  | .error (.debug t) => s.stopPrecise .fault true t
  | .error (.watch a w coord) =>
    (a.foldl (fun s b => s.logWatch s.core b (agentId s.core s.cluster) true w) s).stopPrecise .fault true ⟨0x1E, 0, 0, coord, 0⟩

/-- Does the word stand at the end of an active loop, where some words may not (R100)? -/
def State.atLoopEnd (s : State) : Bool := s.cl.atEnd false || s.cl.atEnd true

/-- The checks at issue: those of the word alone (R361), then the loop end (R100) and, under DXW, the words it may not execute (R330). -/
def State.gate (s : State) (i : Instr) : Except Hold Unit :=
  match checkWord s.cluster i with
  | some sub => .error (ilg sub)
  | none =>
    if endForbidden i && s.atLoopEnd then .error (ilg 0x07)
    else if dxwForbidden i && s.cur.dxw.getLsbD 34 then .error (ilg 0x10)
    else .ok ()

/-- A core word: the checks, then its plan; a stop or a wait is settled, so that the machine always goes on. -/
def runWord (i : Instr) (s : State) (plan : State → Except Hold State) : Host.Outcome State Fault Refusal :=
  .next (s.settle (match s.gate i with
    | .ok _ => plan s
    | .error h => .error h))

end Sys2Proof.Machine
end

