-- ==== Sys2Proof/Machine/Objects.lean ====
section
/-!
DEFINITION. Object records and translation (R145 to R165): the record's fields, its checks, the caches, element offsets, shape and padding,
striping and residency.
-/

namespace Sys2Proof.Machine

/-- An object record's fields (R148). -/
structure ObjRec where
  gen : Nat
  valid : Bool
  mode : Bool
  hv : Bool
  st : Bool
  sh : Bool
  rc : Bool
  peers : BitVec 32
  metaH : BitVec 32
  amap : BitVec 32
  scale : BitVec 32
  padv : Nat
  padp : Nat
  perm : BitVec 4
  kind : Nat
  layout : Nat
  rank : Nat
  rulog : Nat
  chunk : List Nat
  fmt : BitVec 4
  fdesc : BitVec 16
  str : List Nat
  dim : List Nat
  shb : Nat
  base : Nat
  isScratch : Bool
deriving DecidableEq, Repr

/-- The fields of the 64 bytes of a record (R148). -/
def ObjRec.ofBits (w : BitVec 512) : ObjRec where
  gen := (w.extractLsb' 480 12).toNat
  valid := w.getLsbD 479
  mode := w.getLsbD 478
  hv := w.getLsbD 477
  st := w.getLsbD 476
  sh := w.getLsbD 475
  rc := w.getLsbD 474
  peers := w.extractLsb' 442 32
  metaH := w.extractLsb' 410 32
  amap := w.extractLsb' 378 32
  scale := w.extractLsb' 346 32
  padv := (w.extractLsb' 314 32).toNat
  padp := (w.extractLsb' 312 2).toNat
  perm := w.extractLsb' 308 4
  kind := (w.extractLsb' 306 2).toNat
  layout := (w.extractLsb' 304 2).toNat
  rank := (w.extractLsb' 302 2).toNat + 1
  rulog := (w.extractLsb' 298 4).toNat
  chunk := (List.range 4).map fun k => (w.extractLsb' (282 + 4 * k) 4).toNat
  fmt := w.extractLsb' 278 4
  fdesc := w.extractLsb' 262 16
  str := (List.range 3).map fun k => (w.extractLsb' (154 + 36 * k) 36).toNat
  dim := (List.range 4).map fun k => (w.extractLsb' (74 + 20 * k) 20).toNat
  shb := (w.extractLsb' 37 37).toNat
  base := (w.extractLsb' 0 37).toNat
  isScratch := false

/-- The fixed record of index 0xF_FFFF: the whole scratchpad as bytes (R147). -/
def ObjRec.scratchpad : ObjRec where
  gen := 0
  valid := true
  mode := false
  hv := false
  st := false
  sh := false
  rc := false
  peers := 0
  metaH := 0
  amap := 0
  scale := 0
  padv := 0
  padp := 0
  perm := 7
  kind := 0
  layout := 0
  rank := 2
  rulog := 0
  chunk := [0, 0, 0, 0]
  fmt := 8
  fdesc := 0
  str := [4096, 0, 0]
  dim := [4096, 1024, 1, 1]
  shb := 0
  base := 0
  isScratch := true

/-- The extent of dimension `k`. -/
def ObjRec.ext (r : ObjRec) (k : Nat) : Nat := r.dim.getD k 1

/-- The chunk extent of dimension `k`. -/
def ObjRec.chunkExt (r : ObjRec) (k : Nat) : Nat := 2 ^ r.chunk.getD k 0

/-- The chunks along dimension `k` (R150). -/
def ObjRec.chunksAlong (r : ObjRec) (k : Nat) : Nat := (r.ext k + r.chunkExt k - 1) / r.chunkExt k

/-- The chunks of the object (R408 item 0x10). -/
def ObjRec.chunkCount (r : ObjRec) : Nat :=
  r.chunksAlong 0 * r.chunksAlong 1 * r.chunksAlong 2 * r.chunksAlong 3

/-- The elements a chunk holds, out-of-shape ones included. -/
def ObjRec.chunkSize (r : ObjRec) : Nat := r.chunkExt 0 * r.chunkExt 1 * r.chunkExt 2 * r.chunkExt 3

/-- The element format (R104, R148). -/
def ObjRec.format (r : ObjRec) : Option Fmt := Fmt.ofCode r.fmt r.fdesc

/-- The element width in bits (R150). -/
def ObjRec.eb (r : ObjRec) : Nat :=
  match r.format with
  | some f => f.slot
  | none => 8

/-- Coordinate `k`. -/
def crd (c : List Nat) (k : Nat) : Nat := c.getD k 0

/-- The chunk index G of an element (R150). -/
def ObjRec.chunkIndex (r : ObjRec) (c : List Nat) : Nat :=
  let g := fun k => crd c k / r.chunkExt k
  g 0 + r.chunksAlong 0 * (g 1 + r.chunksAlong 1 * (g 2 + r.chunksAlong 2 * g 3))

/-- The chunk-internal index U of an element (R150). -/
def ObjRec.innerIndex (r : ObjRec) (c : List Nat) : Nat :=
  let u := fun k => crd c k % r.chunkExt k
  u 0 + r.chunkExt 0 * (u 1 + r.chunkExt 1 * (u 2 + r.chunkExt 2 * u 3))

/-- ElementBitOffset (R150). -/
def ObjRec.bitOffset (r : ObjRec) (c : List Nat) : Nat :=
  if r.layout = 0 then
    crd c 0 * r.eb + 8 * (crd c 1 * r.str.getD 0 0 + crd c 2 * r.str.getD 1 0 + crd c 3 * r.str.getD 2 0)
  else (r.chunkIndex c * r.chunkSize + r.innerIndex c) * r.eb

/-- The span in bytes (R151). -/
def ObjRec.span (r : ObjRec) : Nat :=
  if r.layout = 0 then
    (r.bitOffset [r.ext 0 - 1, r.ext 1 - 1, r.ext 2 - 1, r.ext 3 - 1] + r.eb + 7) / 8
  else (r.chunkCount * r.chunkSize * r.eb + 7) / 8

/-- Is coordinate `c` of every dimension inside the shape; the first that is not otherwise (R154). -/
def ObjRec.outside (r : ObjRec) (c : List Int) : Option Nat :=
  (List.range 4).find? fun k => decide (c.getD k 0 < 0 ∨ (r.ext k : Int) ≤ c.getD k 0)

/-- The coordinates of a linear element index (R369). -/
def ObjRec.linear (r : ObjRec) (x : Nat) : List Int :=
  [((x % r.ext 0 : Nat) : Int), ((x / r.ext 0 % r.ext 1 : Nat) : Int), ((x / (r.ext 0 * r.ext 1) % r.ext 2 : Nat) : Int),
    ((x / (r.ext 0 * r.ext 1 * r.ext 2) : Nat) : Int)]

/-- Coordinates inside the shape as naturals. -/
def natCoords (c : List Int) : List Nat := c.map Int.toNat

/-- A bit offset of linear element `x`, as ALIGN checks use it (R415): also of elements out of shape. -/
def ObjRec.linearBit (r : ObjRec) (x : Nat) : Nat := r.bitOffset (natCoords (r.linear x))

/-- Do `span` bytes from `a` lie in one tier (R149)? -/
def inOneTier (a span : Nat) : Bool :=
  decide (a + span ≤ 2 ^ 39) || (decide (2 ^ 42 ≤ a) && decide (a + span ≤ 2 ^ 43))

/-- Do `span` bytes from `a` lie in one tier, and behind no port whose expander is absent (R23, R149)? -/
def State.inTiers (s : State) (a span : Nat) : Bool :=
  inOneTier a span && (List.range 4).all fun x =>
    !s.expanderAbsent x || decide (a + span ≤ 2 ^ 42 + x * 2 ^ 40) || decide (2 ^ 42 + (x + 1) * 2 ^ 40 ≤ a)

/-- Does none of `span` bytes from `a` stand in a stack that is absent (R18, R171, R324)? Of a longer range, the first and the last 16 granules of 4 KiB
reach every slice that the range reaches. -/
def State.stacksThere (s : State) (a span : Nat) : Bool :=
  (List.range 8).all (fun x => !s.stackAbsent x) || decide (2 ^ 39 ≤ a) ||
    (let first := a / 4096
     let n := (a + span - 1) / 4096 + 1 - first
     (List.range (min n 16)).all fun i =>
       !s.stackAbsent (homeOf ((first + i) * 4096) / 2) && !s.stackAbsent (homeOf ((first + n - 1 - i) * 4096) / 2))

/-- Are `span` bytes from `a` offered (R23, R149, R324)? -/
def State.offered (s : State) (a span : Nat) : Bool := s.inTiers a span && s.stacksThere a span

/-- The index of a handle (R145). -/
def handleIndex (h : BitVec 32) : Nat := (h.extractLsb' 12 20).toNat

/-- The generation of a handle (R145). -/
def handleGen (h : BitVec 32) : Nat := (h.extractLsb' 0 12).toNat

/-- Who translates: a core's clusters and engine, through its caches and its task's table root; or a port, for a context (R154). A word that issues names
its cluster, whose own stores to a scratch record come first (R147). -/
structure Viewer where
  core : Nat
  isCore : Bool
  root : DWord
  word : Option Cluster
deriving DecidableEq, Repr

/-- The viewer of core `n`. -/
def State.viewer (s : State) (n : Nat) : Viewer := ⟨n, true, (s.coreAt n).ctx.root, none⟩

/-- The viewer of the word of the focused cluster. -/
def State.here (s : State) : Viewer := ⟨s.core, true, s.cur.ctx.root, some s.cluster⟩

/-- Is a store to scratch record `i` by this cluster of core `n` still queued? What the cluster issues later uses the new contents, and so waits for it
(R147; log 68). -/
def State.recordHeld (s : State) (n : Nat) (k : Option Cluster) (i : Nat) : Bool :=
  decide (0xFFF00 ≤ i ∧ i < 0xFFFFF) && (s.coreAt n).accesses.any fun x => some x.cluster = k && (match x.op with
    | .store _ | .atomic _ _ _ _ _ _ => true
    | _ => false) && x.parts.any fun p => match p.place with
    | .scratch o => decide (o / 64 = 0xFF00 + (i - 0xFFF00))
    | _ => false

/-- The device address of record `i` of a table (R146). -/
def recordAddr (root : DWord) (i : Nat) : Nat := (root.extractLsb' 6 37).toNat * 64 + 64 * i

/-- The records of a table root (R146). -/
def rootLength (root : DWord) : Nat := 2 ^ (root.extractLsb' 43 5).toNat

/-- A table word as a translation cache or memory gives it: a copy in the core's cache or in the home slice's may serve, and which ones
they hold is not given (R164). -/
def State.cachedWord {n : Nat} (s : State) (near far : Option (BitVec n)) (fresh : BitVec n) : BitVec n :=
  match near, far with
  | some w, _ => if Config.cacheServes (4 * s.steps) then w else
      match far with
      | some w' => if Config.cacheServes (4 * s.steps + 1) then w' else fresh
      | none => fresh
  | none, some w => if Config.cacheServes (4 * s.steps + 1) then w else fresh
  | none, none => fresh

/-- A table record as the viewer reads it (R154 TableRecord, R164). -/
def State.tableBits (s : State) (v : Viewer) (i : Nat) : BitVec 512 :=
  let a := recordAddr v.root i
  s.cachedWord (if v.isCore then (s.coreAt v.core).recCache.find a else none) ((s.slice (homeOf a)).records.find a)
    (BitVec.ofNat 512 (s.homeRead a 64))

/-- The record of an index: a scratch record of the core, or a record of the table (R147, R154). -/
def State.record (s : State) (v : Viewer) (i : Nat) : ObjRec :=
  if i = 0xFFFFF then .scratchpad
  else if 0xFFF00 ≤ i then
    { ObjRec.ofBits (BitVec.ofNat 512 ((s.coreAt v.core).scratch.read (0x3FC000 + 64 * (i - 0xFFF00)) 64)) with isScratch := true }
  else ObjRec.ofBits (s.tableBits v i)

/-- A residency entry's fields (R156). -/
structure RuEntry where
  sframe : Nat
  frame : Nat
  tier : Nat
  moving : Bool
  dirty : Bool
  present : Bool
deriving DecidableEq, Repr

/-- The fields of a residency entry (R156). -/
def RuEntry.ofBits (w : DWord) : RuEntry where
  sframe := (w.extractLsb' 37 27).toNat
  frame := (w.extractLsb' 10 27).toNat
  tier := (w.extractLsb' 8 2).toNat
  moving := w.getLsbD 7
  dirty := w.getLsbD 6
  present := w.getLsbD 5

/-- The device address of the residency entry of RU `n` (R156). -/
def ruAddr (r : ObjRec) (n : Nat) : Nat := r.base * 64 + 8 * n

/-- A residency entry as the viewer reads it (R156, R164). -/
def State.ruBits (s : State) (v : Viewer) (a : Nat) : DWord :=
  s.cachedWord (if v.isCore then (s.coreAt v.core).ruCache.find a else none) ((s.slice (homeOf a)).rus.find a)
    (BitVec.ofNat 64 (s.homeRead a 8))

/-- Is a frame number of a residency entry valid in its tier (R156), and behind an expander that is there (R23)? -/
def State.frameOk (s : State) (rulog tier f : Nat) : Bool :=
  decide (f ≠ 0) && decide (f % 2 ^ rulog = 0) && s.inTiers (f * 65536) (2 ^ rulog * 65536) && decide ((tier = 0) ↔ (f < 2 ^ 23))

/-- May a frame field name this node for a unit of TIER 2 (R156)? -/
def State.peerOk (s : State) (f : Nat) : Bool := decide (f ≤ 1057) && decide (f ≠ s.node.toNat)

/-- Is a residency entry valid (R156)? An entry that is not present is not checked. -/
def State.entryOk (s : State) (rulog : Nat) (e : RuEntry) : Bool :=
  if !e.present then true
  else if e.tier = 3 then false
  else if e.tier = 2 then s.peerOk e.frame && (decide (e.sframe = 0) || s.peerOk e.sframe)
  else s.frameOk rulog e.tier e.frame && (decide (e.sframe = 0) || s.frameOk rulog e.tier e.sframe)

/-- TRAPV of the causes of translation (R155). -/
def mkTrapv (h : BitVec 32) (reason acc dim : Nat) : DWord :=
  h ++ BitVec.ofNat 8 reason ++ BitVec.ofNat 4 acc ++ BitVec.ofNat 2 dim ++ 0#18

/-- A stop of translation (R155): cause, reason, access code, dimension, and the coordinates for the record (R296). -/
def xlateInfo (cause : Nat) (h : BitVec 32) (reason acc dim : Nat) (c : List Int) (ru : Nat) : TrapInfo :=
  ⟨cause, 0, mkTrapv h reason acc dim, c, ru⟩

/-- A trap of translation. -/
def xlateTrap (cause : Nat) (h : BitVec 32) (reason acc : Nat) : Hold := .trap (xlateInfo cause h reason acc 0 [] 0)

/-- Is `n` a prime from 3 to 1,057 (R163)? By trial division. -/
def isPeerPrime (n : Nat) : Bool :=
  decide (3 ≤ n) && decide (n ≤ 1057) && (List.range 31).all fun k => decide (n = k + 2) || decide (n % (k + 2) ≠ 0)

/-- Is `n` a power of two from 1 to 1,024 (R163)? -/
def isPeerPower (n : Nat) : Bool := (List.range 11).any fun k => decide (n = 2 ^ k)

/-- A direct or resident object's byte at offset `off`, without striping: its address, where the unit is present and local (R154). -/
def State.plainAddr (s : State) (v : Viewer) (r : ObjRec) (off : Nat) : Option Nat :=
  if !r.mode then some (r.base * 64 + off)
  else
    let size := 2 ^ (16 + r.rulog)
    let e := RuEntry.ofBits (s.ruBits v (ruAddr r (off / size)))
    if e.present && decide (e.tier < 2) then some (e.frame * 65536 + off % size) else none

/-- An unsigned value of `n` bytes at byte offset `off` of an object, as tables of the object's own are read (PEERS, arrival maps, member
lists); nothing where it is not present. -/
def State.objRead (s : State) (v : Viewer) (r : ObjRec) (off n : Nat) : Option Nat :=
  if r.isScratch then some ((s.coreAt v.core).scratch.read (r.base * 64 + off) n)
  else (s.plainAddr v r off).map fun a => s.homeRead a n

/-- Does a handle name a record there is, of its generation (R145, R154)? A scratch record is there for its own core alone (R147). -/
def State.namesRecord (s : State) (v : Viewer) (h : BitVec 32) : Bool :=
  let i := handleIndex h
  decide (i ≠ 0) && (if 0xFFF00 ≤ i then v.isCore else v.root.getLsbD 63 && decide (i < rootLength v.root)) &&
    decide (handleGen h = (s.record v i).gen)

/-- The reason of the first failing row of R152, 0 when the record passes, given whether the peer set of a striped record fails R163. Reasons 13 and 14 are
found by the instructions that need them. -/
def State.reasonGiven (s : State) (v : Viewer) (i : Nat) (r : ObjRec) (peersBad : Bool) : Nat :=
  if !r.valid then 1
  else if (List.range 4).any (fun k => decide (r.ext k = 0) ||
      (decide (r.rank ≤ k) && (decide (r.ext k ≠ 1) || decide (r.chunk.getD k 0 ≠ 0)))) then 2
  else if (Fmt.ofCode r.fmt r.fdesc).isNone || (r.fmt = 0xF && decide (descReason r.fdesc ≠ 0)) then 3
  else if decide (2 ≤ r.layout) || (decide (r.layout = 1) && decide (r.chunkSize * r.eb < 512)) then 4
  else if decide (2 ^ 40 < r.span) || (!r.mode && !r.isScratch && !s.inTiers (r.base * 64) r.span) then 5
  else if decide (8 < r.rulog) then 6
  else if r.padp = 3 then 7
  else if r.st && (r.sh || r.hv || !r.mode || peersBad) then 8
  else if decide (r.kind = 3) || (decide (r.kind = 1) && !(r.fmt = 8 && decide (r.rank = 2) && decide (r.ext 1 = 4))) ||
      (decide (r.kind = 2) && (r.isScratch || !s.doorbells.has (recordAddr v.root i))) then 9
  else if r.isScratch && (r.mode || r.hv || r.st || r.sh || r.rc || decide (0x400000 < r.base * 64 + r.span)) then 10
  else if r.hv && (!r.mode || decide (r.rulog ≠ 0)) then 12
  else 0

/-- The node numbers a peer list names (R162): none through a handle that names no such list, or whose record fails R152. A list whose bytes are not present,
or that is itself striped, names no valid peer set (DESIGN CHOICE, log 71). -/
def State.peerList (s : State) (v : Viewer) (h : BitVec 32) : List Nat :=
  let r := s.record v (handleIndex h)
  if s.namesRecord v h && !r.st && decide (s.reasonGiven v (handleIndex h) r true = 0) && r.fmt = 7 && decide (r.rank = 1) then
    (List.range (r.ext 0)).map fun p => (s.objRead v r (r.bitOffset [p, 0, 0, 0] / 8) 2).getD 0xFFFF
  else []

/-- Is a peer set valid (R163)? -/
def peersOk (l : List Nat) : Bool :=
  (isPeerPower l.length || isPeerPrime l.length) && (l.all fun n => decide (n ≤ 1057)) && decide l.Nodup

/-- The reason of the first failing row of R152, 0 when the record passes. -/
def State.recordReason (s : State) (v : Viewer) (i : Nat) (r : ObjRec) : Nat :=
  s.reasonGiven v i r (r.st && !peersOk (s.peerList v r.peers))

/-- The permission bit an access code needs (R153, R155): read, write, atomic, execute. -/
def needOf (acc : Nat) : Nat :=
  if acc = 1 ∨ acc = 8 ∨ acc = 9 then 1
  else if acc = 2 then 2
  else if acc = 3 then 3
  else 0

/-- Does the record permit the access (R153)? A fetch needs a code object; nothing but its stores reaches a doorbell (R152). -/
def permitted (r : ObjRec) (acc : Nat) : Bool :=
  r.perm.getLsbD (needOf acc) && (if acc = 3 then decide (r.kind = 1) else decide (r.kind ≠ 2) || decide (acc = 1))

/-- The steps of Translate up to the record's check: HNULL, HRANGE, HINV (R154). A table in no tier is the hole of R149. -/
def State.findRecord (s : State) (v : Viewer) (h : BitVec 32) (acc : Nat) : Except Hold ObjRec :=
  let i := handleIndex h
  if i = 0 then .error (xlateTrap 0x10 h 0 acc)
  else if i < 0xFFF00 ∧ (v.root.getLsbD 63 = false ∨ rootLength v.root ≤ i) then .error (xlateTrap 0x11 h 0 acc)
  else if s.recordHeld v.core v.word i then .error plainWait
  else if i < 0xFFF00 ∧ !s.offered (recordAddr v.root i) 64 then .error (xlateTrap 0x12 h 5 acc)
  else
    let r := s.record v i
    let reason := s.recordReason v i r
    if reason ≠ 0 then .error (xlateTrap 0x12 h reason acc) else .ok r

/-- The same with the generation check (R154, R408). -/
def State.freshRecord (s : State) (v : Viewer) (h : BitVec 32) (acc : Nat) : Except Hold ObjRec := do
  let r ← s.findRecord v h acc
  if handleGen h ≠ r.gen then .error (xlateTrap 0x13 h 0 acc) else .ok r

/-- Lookup(h): Translate up to and including the permission check (R369). -/
def State.lookup (s : State) (v : Viewer) (h : BitVec 32) (acc : Nat) : Except Hold ObjRec := do
  let r ← s.freshRecord v h acc
  if permitted r acc then .ok r else .error (xlateTrap 0x14 h 0 acc)

/-- Lookup of a handle whose generation was checked when the operation that uses it was issued: a PUB since then does not stop it (R160, R161, R239). -/
def State.latched (s : State) (v : Viewer) (h : BitVec 32) (acc : Nat) : Except Hold ObjRec := do
  let r ← s.findRecord v h acc
  if permitted r acc then .ok r else .error (xlateTrap 0x14 h 0 acc)

/-- Lookup for writes of data: a doorbell object takes notify writes alone (R152). -/
def State.lookupData (s : State) (v : Viewer) (h : BitVec 32) : Except Hold ObjRec := do
  let r ← s.lookup v h 1
  if r.kind = 2 then .error (xlateTrap 0x14 h 0 1) else .ok r

/-- An outcome whose trap names the coordinates of its access (R155, R296). -/
def withCoords {α : Type} (c : List Int) : Except Hold α → Except Hold α
  | .error (.trap t) => .error (.trap (if t.coord = [] then { t with coord := c } else t))
  | o => o

/-- The coordinates of element `x` of the object of a handle; where no record gives it a shape, `x` stands as coordinate 0 (DESIGN CHOICE, log 69). -/
def State.coordsAt (s : State) (v : Viewer) (h : BitVec 32) (acc x : Nat) : List Int :=
  match s.findRecord v h acc with
  | .ok r => r.linear x
  | .error _ => [(x : Int), 0, 0, 0]

/-- Lookup for an access to element `x`, whose coordinates its stop names (R155, R369). -/
def State.lookupAt (s : State) (v : Viewer) (h : BitVec 32) (acc x : Nat) : Except Hold ObjRec :=
  withCoords (s.coordsAt v h acc x) (s.lookup v h acc)

/-- The peer of a stripe block (R163). -/
def stripePeer (p b : Nat) : Nat :=
  if isPeerPower p then (b ^^^ (b >>> 11) ^^^ (b >>> 22)) % p else b % p

/-- Does an element belong to another node? -/
def Part.isRemote (p : Part) : Bool :=
  match p.place with
  | .remote _ _ => true
  | _ => false

/-- Where byte offset `off` of an object is (R154, after the shape check): its place, and the residency entry. An address in the hole of R149 is one that a
shadow base or a residency table names; the span of a direct object's own bytes has been checked with its record. A byte in a stack that is absent is not
offered (R324; log 66). -/
def State.placeOf (s : State) (v : Viewer) (r : ObjRec) (h : BitVec 32) (acc : Nat) (c : List Int) (off : Nat) (shadow : Bool) :
    Except Hold (Place × Option Nat) :=
  let peers := if r.st then s.peerList v r.peers else []
  let p := stripePeer peers.length (off / 256)
  let target := peers.getD p 0
  if r.st ∧ target ≠ s.node.toNat then .ok (.remote target off, none)
  else
    let off := if r.st then 256 * (off / 256 / peers.length) + off % 256 else off
    if r.isScratch then .ok (.scratch (r.base * 64 + off), none)
    else if !r.mode then
      let a := (if shadow then r.shb else r.base) * 64 + off
      if s.offered a 1 then .ok (.device a, none) else .error (.trap (xlateInfo 0x12 h 5 acc 0 c 0))
    else
      let size := 2 ^ (16 + r.rulog)
      let n := off / size
      let a := ruAddr r n
      let e := RuEntry.ofBits (s.ruBits v a)
      if !s.offered a 8 then .error (.trap (xlateInfo 0x12 h 5 acc 0 c n))
      else if !s.entryOk r.rulog e then .error (.trap (xlateInfo 0x12 h 11 acc 0 c n))
      else if !e.present || (shadow && decide (e.sframe = 0)) then .error (.fault (xlateInfo 0x16 h 0 acc 0 c n))
      else
        let f := if shadow then e.sframe else e.frame
        if e.tier = 2 then .ok (.remote (f % 2 ^ 11) off, some a)
        else if s.stacksThere (f * 65536 + off % size) 1 then .ok (.device (f * 65536 + off % size), some a)
        else .error (.trap (xlateInfo 0x12 h 5 acc 0 c n))

/-- The service kernel instance that homes the residency table of the object of a handle is signalled (R157). -/
def State.signalUnit (s : State) (v : Viewer) (h : BitVec 32) : State := s.interrupt (homeOf ((s.record v (handleIndex h)).base * 64)) 0

/-- The same for the metadata region of the object of a handle (R211). -/
def State.signalMeta (s : State) (v : Viewer) (h : BitVec 32) : State := s.signalUnit v (s.record v (handleIndex h)).metaH

/-- Is the access code a write that padding may drop (R158)? -/
def isWriteCode (acc : Nat) : Bool := decide (needOf acc = 1)

/-- One element translated (R154, R158): out of shape it traps, reads as the pad value, or is dropped. -/
def State.locate (s : State) (v : Viewer) (r : ObjRec) (h : BitVec 32) (acc : Nat) (c : List Int) (shadow : Bool) :
    Except Hold Part :=
  match r.outside c with
  | some d =>
    if acc ≠ 3 ∧ acc ≠ 2 ∧ (r.padp = 1 ∨ (r.padp = 2 ∧ !isWriteCode acc)) then
      if isWriteCode acc then .ok ⟨.drop, 0, 0, r.eb, none⟩ else .ok ⟨.pad r.padv, 0, 0, r.eb, none⟩
    else .error (.trap (xlateInfo 0x15 h 0 acc d c 0))
  | none =>
    let bit := r.bitOffset (natCoords c)
    match s.placeOf v r h acc c (bit / 8) shadow with
    | .ok (p, ru) => .ok ⟨p, bit / 8, bit % 8, r.eb, ru⟩
    | .error e => .error e

/-- Every element of an access translated, in order: the first that fails decides (R158). -/
def State.locateAll (s : State) (v : Viewer) (r : ObjRec) (h : BitVec 32) (acc : Nat) : List (List Int) → Except Hold (List Part)
  | [] => .ok []
  | c :: cs =>
    match s.locate v r h acc c false with
    | .error e => .error e
    | .ok p =>
      match s.locateAll v r h acc cs with
      | .error e => .error e
      | .ok ps => .ok (p :: ps)

/-- A word entered in a translation cache of `size` places: another makes room where there is none; which one is not given (R164). -/
def cacheWord {α : Type} (size pick : Nat) (t : Tab α) (a : Nat) (w : α) : Tab α :=
  let t := t.erase a
  let t := match t.keys[pick % t.keys.length]? with
    | some b => if t.keys.length < size then t else t.erase b
    | none => t
  t.put a w

/-- A slice's second-level cache, of 8,192 entries for records and residency entries together, with room for one more: which one makes room is not given
(R164). -/
def Slice.room (x : Slice) (pick : Nat) : Slice :=
  let n := x.records.keys.length
  let m := x.rus.keys.length
  if n + m < 8192 then x
  else
    match x.records.keys[pick % (n + m)]?, x.rus.keys[pick % (n + m) - n]? with
    | some a, _ => { x with records := x.records.erase a }
    | none, some a => { x with rus := x.rus.erase a }
    | none, none => x

/-- A residency entry entered in the caches it is served by: the core's 512 entries, and its home slice's (R164). -/
def State.cacheEntry (s : State) (v : Viewer) (a : Nat) : State :=
  let w := s.ruBits v a
  let pick := Config.choice s.steps 2048
  let x := s.slice (homeOf a)
  let x := { x with rus := x.rus.erase a }.room pick
  let s := s.setSlice (homeOf a) { x with rus := x.rus.put a w }
  if v.isCore then s.setCoreAt v.core { s.coreAt v.core with ruCache := cacheWord 512 pick (s.coreAt v.core).ruCache a w } else s

/-- The state with the record of a handle, and the residency entries its access used, in the caches (R164): 64 records of a core. -/
def State.cacheUse (s : State) (v : Viewer) (h : BitVec 32) (parts : List Part) : State :=
  let i := handleIndex h
  let s := ((parts.filterMap Part.ru).eraseDups).foldl (fun s a => s.cacheEntry v a) s
  if i = 0 ∨ 0xFFF00 ≤ i ∨ !v.root.getLsbD 63 ∨ rootLength v.root ≤ i then s
  else
    let a := recordAddr v.root i
    let w := s.tableBits v i
    let pick := Config.choice s.steps 2048
    let x := s.slice (homeOf a)
    let x := { x with records := x.records.erase a }.room pick
    let s := s.setSlice (homeOf a) { x with records := x.records.put a w }
    if v.isCore then s.setCoreAt v.core { s.coreAt v.core with recCache := cacheWord 64 pick (s.coreAt v.core).recCache a w } else s

/-- Who asks another node: the fetch of a cluster. -/
def askFetch (k : Cluster) : Nat := 131080 + clusterIndex k

/-- The address that stands for a word which another node holds: no instruction cache keeps it. -/
def farWord : Nat := 2 ^ 44

/-- The residency unit of a byte offset, by the record of a handle (R155, R156). -/
def State.unitAt (s : State) (v : Viewer) (h : BitVec 32) (off : Nat) : Nat :=
  let r := s.record v (handleIndex h)
  if r.mode then off / 2 ^ (16 + r.rulog) else 0

/-- The stop that a failure at another node means to an access with code `acc` (R155, R265, R266, R270): XMISS and RESID are restartable, a node that cannot
be reached is NETERR. -/
def answerHold (h : BitVec 32) (acc node : Nat) (coord : List Int) (ru : Nat) : Answer → Hold
  | .fault c r g => if c = 0x16 ∨ c = 0x17 then .fault (xlateInfo c g r acc 0 coord ru) else .trap (xlateInfo c g r acc 0 coord ru)
  | .notReady => .fault (xlateInfo 0x16 h 0 acc 0 coord ru)
  | .stale => .fault (xlateInfo 0x17 h 0 acc 0 coord ru)
  | _ => .trap ⟨0x19, 0, BitVec.ofNat 64 node, coord, 0⟩

/-- The code object's record of a core's task, where its handle still passes (R34, R346). -/
def State.codeRecord (s : State) (n : Nat) (k : Option Cluster) : Except Hold ObjRec :=
  s.lookup { s.viewer n with word := k } (s.coreAt n).cr.ch 3

/-- The length L of the sections of the task's code object (R346); 0 without one. -/
def Core.sectionLength (c : Core) (s : State) : Nat :=
  match s.lookup ⟨s.core, true, c.ctx.root, none⟩ c.cr.ch 3 with
  | .ok r => r.ext 0
  | .error _ => 0

/-- The word of cluster `k` at byte offset `pc` (R34, R55, R346): the checks of R34 in their order, an offset that is no multiple of 4 among them;
its translation as a fetch, padding ignored; then the instruction cache's copy, where one serves, or the word at its home (R170, R410). A word that
another node holds is asked for with a load request (R154, R270; DEDUCED, log 52); an offset that is no multiple of 4 stops with ALIGN, at a later
fetch as at the first (DEDUCED, log 63). -/
def State.fetch (s : State) (n : Nat) (k : Cluster) (pc : Int) : Except Hold (Nat × Word) := do
  let h := (s.coreAt n).cr.ch
  let c := [pc, (clusterIndex k : Int), 0, 0]
  let r ← withCoords c (s.codeRecord n (some k))
  if pc % 4 ≠ 0 then .error (trapOf 0x09) else
  let p ← s.locate (s.viewer n) r h 3 c false
  match p.place with
  | .device a =>
    if s.cutOff n a then .error bridgeError else
    let fresh := BitVec.ofNat 32 (s.homeRead a 4)
    .ok (a, match (s.coreAt n).icache.find a with
      | some (w, _) => if Config.cacheServes (4 * s.steps + 2) then w else fresh
      | none => fresh)
  | .scratch o => .ok (2 ^ 43 + o, BitVec.ofNat 32 ((s.coreAt n).scratch.read o 4))
  | .remote g off =>
    match (s.coreAt n).remoteReads.find? fun e => e.who = askFetch k && e.handle = h && e.node = g && e.off = off with
    | some e => match e.value, e.failed with
      | some v, _ => .ok (farWord, BitVec.ofNat 32 v)
      | none, some a => .error (answerHold h 3 g c (s.unitAt (s.viewer n) h off) a)
      | none, none => .error plainWait
    | none => .error plainWait
  | _ => .error plainWait

/-- An object as the instruction caches tell it apart: by the address of its record. -/
def objectKey (root : DWord) (h : BitVec 32) : Nat := if handleIndex h < 0xFFF00 then recordAddr root (handleIndex h) else 2 ^ 43 + handleIndex h

/-- The code object of a core's task, so. -/
def State.codeKey (s : State) (n : Nat) : Nat := objectKey (s.coreAt n).ctx.root (s.coreAt n).cr.ch

/-- Where the next word of cluster `k` is, if another node holds it: the node and the byte offset. -/
def State.farFetch (s : State) (n : Nat) (k : Cluster) : Option (Nat × Nat) :=
  let h := (s.coreAt n).cr.ch
  match s.codeRecord n (some k) with
  | .error _ => none
  | .ok r =>
    match s.locate (s.viewer n) r h 3 [((s.coreAt n).cl k).pc, (clusterIndex k : Int), 0, 0] false with
    | .ok p => match p.place with
      | .remote g off => some (g, off)
      | _ => none
    | .error _ => none

end Sys2Proof.Machine
end

