-- ==== Sys2Proof/Machine/Sorrel.lean ====
section
/-!
DEFINITION. Sorrel (R198 to R222): clocks and vector clocks, line metadata and its check, snapshots, race records.
-/

namespace Sys2Proof.Machine

/-- Index of the port group's clock and vector entry (R198). -/
def portGroup : Nat := 512

/-- The clock of an agent (R200). -/
def State.clockOf (s : State) (x : Nat) : Nat := s.clocks.get 0 x

/-- The state with an agent's clock one higher (R201). -/
def State.tick (s : State) (x : Nat) : State := { s with clocks := s.clocks.set 0 x ((s.clockOf x + 1) % 2 ^ 24) }

/-- The vector clock of an agent: its own entry is its own clock (R200). -/
def State.vectorOf (s : State) (x : Nat) : Tab Nat := (s.vclocks.get .empty x).set 0 x (s.clockOf x)

/-- The state with an agent's vector clock replaced. -/
def State.setVector (s : State) (x : Nat) (v : Tab Nat) : State := { s with vclocks := s.vclocks.put x v }

/-- The larger value, entry by entry (R202). -/
def joinVectors (v : Tab Nat) : List (Nat × Nat) → Tab Nat
  | [] => v
  | (i, c) :: r => joinVectors (v.set 0 i (max (v.get 0 i) c)) r

/-- The state after an agent's vector clock has joined another (R202, R203). -/
def State.joinInto (s : State) (x : Nat) (w : Tab Nat) : State := s.setVector x (joinVectors (s.vectorOf x) w.cells)

/-- Is `other` a party of the scope of `issuer` (R179, R202)? Agents that are no clusters are parties of device and fabric scope. -/
def isParty (issuer scope other : Nat) : Bool :=
  if 4 ≤ scope then true
  else if 256 ≤ issuer ∨ 256 ≤ other then false
  else if scope = 0 then decide (issuer = other)
  else if scope = 1 then decide (issuer / 4 = other / 4)
  else if scope = 2 then decide (issuer / 16 = other / 16)
  else decide (issuer / 128 = other / 128)

/-- The metadata of a line (R208). -/
structure Meta where
  slot : Nat
  wagent : Nat
  wclk : Nat
  wera : Nat
  wscope : Nat
  weng : Bool
  wsync : Bool
  ragent : Nat
  rclk : Nat
  rera : Nat
  rsync : Bool
  reng : Bool
deriving DecidableEq, Repr

/-- The empty line (R208). -/
def Meta.empty : Meta := ⟨0, 0x1FE, 0, 0, 0, false, false, 0x1FE, 0, 0, false, false⟩

/-- The parity of a 128-bit line over bits 127:0, its own bit included: 0 when it verifies (R208). -/
def parityOf : Nat → Nat → Nat
  | 0, _ => 0
  | n + 1, w => (w % 2 + parityOf n (w / 2)) % 2

/-- The fields of a metadata line; all zero reads as empty (R208). -/
def Meta.ofNat (w : Nat) : Meta :=
  if w = 0 then .empty
  else
    { slot := bitsAt w 112 16, wagent := bitsAt w 103 9, wclk := bitsAt w 79 24, wera := bitsAt w 71 8, wscope := bitsAt w 68 3,
      weng := bitsAt w 67 1 = 1, wsync := bitsAt w 66 1 = 1, ragent := bitsAt w 55 9, rclk := bitsAt w 31 24,
      rera := bitsAt w 23 8, rsync := bitsAt w 22 1 = 1, reng := bitsAt w 21 1 = 1 }

/-- The 128 bits of a metadata line with its parity (R208). -/
def Meta.toNat (m : Meta) : Nat :=
  let w := m.slot * 2 ^ 112 + m.wagent * 2 ^ 103 + m.wclk * 2 ^ 79 + m.wera * 2 ^ 71 + m.wscope * 2 ^ 68 +
    m.weng.toNat * 2 ^ 67 + m.wsync.toNat * 2 ^ 66 + m.ragent * 2 ^ 55 + m.rclk * 2 ^ 31 + m.rera * 2 ^ 23 +
    m.rsync.toNat * 2 ^ 22 + m.reng.toNat * 2 ^ 21
  w + parityOf 128 w

/-- Who makes a checked access, and what of it the check and the report need (R204, R212, R217). -/
structure Accessor where
  agent : Nat
  ident : Nat
  report : Nat
  own : Nat
  clk : Nat
  scope : Nat
  write : Bool
  acq : Bool
  rel : Bool
  sync : Bool
  eng : Bool
  checked : Bool
  precise : Bool
  rpt : Bool
  stops : Bool
  acc : Nat
  handle : BitVec 32
  coord : List Int
  pc : Int
  ctx : BitVec 16
  launch : BitVec 32
  ring : DWord
deriving DecidableEq, Repr

/-- HappensBefore of R204. -/
def happensBefore (era a : Nat) (eng : Bool) (c e : Nat) (v : Tab Nat) (own : Nat) : Bool :=
  if e ≠ era ∨ a = 0x1FE then true
  else if a = 0x1FF then false
  else
    let i := if 0x140 ≤ a ∧ a < 0x170 then portGroup else if eng then 256 + a else a
    decide (i = own) || decide (c ≤ v.get 0 i)

/-- The kind of race an access makes with a line, and the recorded party's agent, clock and scope: the first that R212 reaches. -/
def raceOf (era : Nat) (k : Accessor) (v : Tab Nat) (m : Meta) : Option (Nat × Nat × Nat × Nat) :=
  let w : Option (Nat × Nat × Nat × Nat) :=
    if happensBefore era m.wagent m.weng m.wclk m.wera v k.own then none
    else if !(k.sync && m.wsync) then some (if k.write then 2 else 1, m.wagent, m.wclk, m.wscope)
    else if !(isParty k.agent k.scope m.wagent && isParty m.wagent m.wscope k.agent) then some (4, m.wagent, m.wclk, m.wscope)
    else none
  match w with
  | some r => some r
  | none =>
    if k.write && m.ragent != 0x1FF && !happensBefore era m.ragent m.reng m.rclk m.rera v k.own && !(k.sync && m.rsync) then
      some (3, m.ragent, m.rclk, 0)
    else none

/-- The line's metadata after the access (R212). -/
def Meta.record (m : Meta) (era : Nat) (k : Accessor) (v : Tab Nat) : Meta :=
  if k.write then
    { m with wagent := k.ident, wclk := k.clk, wera := era, wscope := k.scope, weng := k.eng, wsync := k.sync, ragent := 0x1FE }
  else if m.ragent = 0x1FE || happensBefore era m.ragent m.reng m.rclk m.rera v k.own then
    { m with ragent := k.ident, rclk := k.clk, rera := era, rsync := k.sync, reng := k.eng }
  else { m with ragent := 0x1FF, rera := era }

/-- A counter of a ring's header, 32 bits at byte `off`, raised by one modulo 2^32 (R216). -/
def State.bumpRing (s : State) (ring : DWord) (off : Nat) : State :=
  s.homeWrite (ring.toNat + off) 4 ((s.homeRead (ring.toNat + off) 4 + 1) % 2 ^ 32)

/-- A race record written to the ring, or dropped and counted (R216 to R218); its SEQ, and whether it was dropped. -/
def State.writeRace (s : State) (k : Accessor) (kind oagent oclk oscope : Nat) : State × Nat × Bool :=
  let a := k.ring.toNat
  let prod := s.homeRead a 4
  let cons := s.homeRead (a + 4) 4
  let logn := s.homeRead (a + 28) 4 % 32
  if (prod + 2 ^ 32 - cons) % 2 ^ 32 = 2 ^ logn then (s.bumpRing k.ring 8, prod, true)
  else
    let c := fun j => (BitVec.ofInt 32 (k.coord.getD j 0)).toNat
    let body :=
      s.dcc * 2 ^ 448 + k.handle.toNat * 2 ^ 416 + (c 3 * 2 ^ 96 + c 2 * 2 ^ 64 + c 1 * 2 ^ 32 + c 0) * 2 ^ 288 +
      (if k.precise then (BitVec.ofInt 32 k.pc).toNat else 0) * 2 ^ 256 + k.report * 2 ^ 247 + oagent * 2 ^ 238 +
      k.clk * 2 ^ 214 + oclk * 2 ^ 190 + s.eraNow.toNat * 2 ^ 182 + k.scope * 2 ^ 179 + oscope * 2 ^ 176 + kind * 2 ^ 172 +
      k.acc * 2 ^ 168 + k.precise.toNat * 2 ^ 167 + k.rpt.toNat * 2 ^ 166 + k.ctx.toNat * 2 ^ 148 + k.launch.toNat * 2 ^ 116 +
      prod * 2 ^ 84
    let s := s.homeWrite (a + 64 * (1 + prod % 2 ^ logn)) 64 body
    (s.homeWrite a 4 ((prod + 1) % 2 ^ 32), prod, false)

/-- TRAPV of RACE (R219). -/
def raceTrapv (seq kind : Nat) (lost precise : Bool) : DWord :=
  BitVec.ofNat 64 (seq * 2 ^ 32 + kind * 16 + lost.toNat * 8 + precise.toNat * 4)

/-- Where bytes of a metadata region are: at a device address, with its residency entry, in a unit that is not present, or nowhere (R166, R207, R211). -/
inductive MetaAt where
  | at (addr : Nat) (ru : Option Nat)
  | wait
  | none
deriving DecidableEq, Repr

/-- Bytes `off` to `off + n - 1` of the region a META handle names (R207, R211). The lookup asks for R, and a region that is a scratch object, or of which
another node holds the bytes, is none (DESIGN CHOICE, log 92). -/
def State.metaAt (s : State) (v : Viewer) (h : BitVec 32) (off n : Nat) : MetaAt :=
  match s.lookup v h 0 with
  | .error _ => .none
  | .ok r =>
    if r.span < off + n then .none
    else
      match s.placeOf v r h 0 [] off false with
      | .ok (.device a, ru) => .at a ru
      | .ok _ => .none
      | .error (.fault _) => .wait
      | .error _ => .none

/-- The byte offset of the line metadata of line `n` (R207). -/
def lineOffset (n : Nat) : Nat := 16 * n

/-- The byte offset of snapshot slot `k` in the region of an object of that span (R207). -/
def slotOffset (span k : Nat) : Nat := (16 * ((span + 63) / 64) + 2047) / 2048 * 2048 + 2048 * (k - 1)

/-- The entries of a snapshot slot at a device address, where its era is current (R202, R209). -/
def State.readSlot (s : State) (a : Nat) : List (Nat × Nat) :=
  if s.homeRead (a + 1539) 1 = s.eraNow.toNat then (List.range 513).map fun i => (i, s.homeRead (a + 3 * i) 3) else []

/-- DIRTY set before Sorrel writes into a resident metadata region (R166, R211). -/
def State.dirtyMeta (s : State) (ru : Option Nat) : State :=
  match ru with
  | some e => s.setDirty e
  | none => s

/-- A vector clock and the era written into a snapshot slot (R202, R209). -/
def State.writeSlot (s : State) (a : Nat) (ru : Option Nat) (v : Tab Nat) : State :=
  (s.dirtyMeta ru).setHomeBytes a ((((List.range 513).map fun i => bytesOfNat 3 (v.get 0 i)).flatten) ++ bytesOfNat 1 s.eraNow.toNat)

/-- The reserved bits of a metadata line: read as zero, never written (R7, R208). -/
def metaReserved (raw : Nat) : Nat := bitsAt raw 64 2 * 2 ^ 64 + bitsAt raw 1 20 * 2

/-- Does a line's parity fail (R208, R210)? -/
def metaBroken (raw : Nat) : Bool := decide (parityOf 128 (raw - metaReserved raw) = 1)

/-- A line's metadata as a check takes it: empty where its parity fails, its SLOT too (DEDUCED, log 75), and no access of another era (R210, R212). -/
def Meta.current (era raw : Nat) : Meta :=
  let m := Meta.ofNat (if metaBroken raw then 0 else raw - metaReserved raw)
  let m := if m.wera ≠ era then { m with wagent := 0x1FE } else m
  if m.rera ≠ era then { m with ragent := 0x1FE } else m

/-- A line rewritten: SLOT and the reserved bits stay as they were (R7, R208). -/
def Meta.rewrite (m : Meta) (raw : Nat) : Nat := { m with slot := bitsAt raw 112 16 }.toNat + metaReserved raw

/-- Where a line's snapshot slot is (R207). -/
def State.slotAt (s : State) (viewer : Viewer) (metaH : BitVec 32) (span : Nat) (m : Meta) : MetaAt :=
  if m.slot = 0 then .none else s.metaAt viewer metaH (slotOffset span m.slot) 2048

/-- The snapshot that an access joins as an acquire (R202): none where there is nothing to join. Of a slot that is not present or beyond the region an acquire
joins nothing, and it does not wait (DESIGN CHOICE, log 89). -/
def State.snapshotFor (s : State) (k : Accessor) (m : Meta) (slot : MetaAt) : List (Nat × Nat) :=
  if k.acq && m.wagent != 0x1FE && isParty m.wagent m.wscope k.agent && isParty k.agent k.scope m.wagent then
    match slot with
    | .at b _ => s.readSlot b
    | _ => []
  else []

/-- A line's check (R202, R210, R212): the state, the accessor's vector clock, and the report made: its kind, SEQ and loss. `quiet`: the parity of some
line of the access fails, so that it reports no race. -/
def State.checkLine (s : State) (k : Accessor) (viewer : Viewer) (metaH : BitVec 32) (span : Nat) (quiet : Bool) (v : Tab Nat) (at_ : Nat × Option Nat) :
    State × Tab Nat × Option (Nat × Nat × Bool) :=
  let a := at_.1
  let raw := s.homeRead a 16
  let s := if metaBroken raw then s.bumpRing k.ring 16 else s
  let era := s.eraNow.toNat
  let m := Meta.current era raw
  let slot := s.slotAt viewer metaH span m
  let v := joinVectors v (s.snapshotFor k m slot)
  let race := if k.checked && !quiet then raceOf era k v m else none
  let (s, rep) :=
    match race with
    | some (kind, oa, oc, os) =>
      let (s, seq, lost) := s.writeRace k kind oa oc os
      (s, some (kind, seq, lost))
    | none => (s, none)
  if rep.isSome && k.stops then (s, v, rep)
  else
    let s :=
      if k.write && k.rel then
        match slot with
        | .at b ru => s.writeSlot b ru v
        | _ => s.bumpRing k.ring 20
      else s
    (if k.checked then (s.dirtyMeta at_.2).homeWrite a 16 ((m.record era k v).rewrite raw) else s, v, rep)

/-- The checks of lines in turn; the first report's TRAPV (R212, R219). -/
def State.checkEach (s : State) (k : Accessor) (viewer : Viewer) (metaH : BitVec 32) (span : Nat) (quiet : Bool) (v : Tab Nat) (first : Option DWord) :
    List (Nat × Option Nat) → State × Tab Nat × Option DWord
  | [] => (s, v, first)
  | a :: as =>
    let (s, v, rep) := s.checkLine k viewer metaH span quiet v a
    let first :=
      match first, rep with
      | none, some (kind, seq, lost) => some (raceTrapv seq kind lost k.precise)
      | f, _ => f
    s.checkEach k viewer metaH span quiet v first as

/-- The check of an access of these lines (R210, R212, R219). -/
def State.checkLines (s : State) (k : Accessor) (viewer : Viewer) (metaH : BitVec 32) (span : Nat) (v : Tab Nat)
    (lines : List (Nat × Option Nat)) : State × Tab Nat × Option DWord :=
  s.checkEach k viewer metaH span (lines.any fun a => metaBroken (s.homeRead a.1 16)) v none lines

/-- Does the check join a snapshot (R201, R202)? -/
def State.joinsSnapshot (s : State) (k : Accessor) (viewer : Viewer) (metaH : BitVec 32) (span : Nat) (lines : List (Nat × Option Nat)) : Bool :=
  lines.any fun a =>
    let m := Meta.current s.eraNow.toNat (s.homeRead a.1 16)
    !(s.snapshotFor k m (s.slotAt viewer metaH span m)).isEmpty

/-- What stands in the way of a check: nothing, with the lines' metadata addresses; a unit not present; or the access is performed
unchecked (R211). -/
inductive CheckPlan where
  | go (lines : List (Nat × Option Nat))
  | wait
  | unchecked
deriving DecidableEq, Repr

/-- The metadata addresses of the lines an access touches, with their residency entries (R199, R211); a release's snapshot slots are looked up too. -/
def State.planCheck (s : State) (viewer : Viewer) (metaH : BitVec 32) (span : Nat) (rel : Bool) : List Nat → CheckPlan
  | [] => .go []
  | n :: ns =>
    match s.metaAt viewer metaH (lineOffset n) 16 with
    | .none => .unchecked
    | .wait => .wait
    | .at a ru =>
      if rel ∧ s.slotAt viewer metaH span (Meta.current s.eraNow.toNat (s.homeRead a 16)) = .wait then .wait
      else
        match s.planCheck viewer metaH span rel ns with
        | .go as => .go ((a, ru) :: as)
        | r => r

/-- The lines of an object that the elements in device and second-tier memory touch, each once, rising (R199); remote ones are checked at
their own device (R210). -/
def linesOf (parts : List Part) : List Nat :=
  let ns := (parts.filter fun p => match p.place with
      | .device _ => true
      | _ => false).map fun p => (p.off / 64, (p.off + (p.bit + p.width + 7) / 8 - 1) / 64)
  (((ns.map fun n => (List.range (n.2 + 1 - n.1)).map (· + n.1)).flatten).foldl (fun t n => t.put n ()) (Tab.empty : Tab Unit)).keys

/-- The join of a WAITA success or of an acquire load of a map byte that finds a bit set (R203). -/
def State.joinMap (s : State) (x : Nat) : State :=
  let v := (s.vectorOf x).set 0 portGroup (s.clockOf portGroup)
  s.setVector x (joinVectors v (s.dclk.cells.map fun (e : Nat × Nat) => (256 + e.1, e.2)))

/-- The join of a completion of a command that cluster `k` issued at clock `c` (R203). -/
def State.joinCommand (s : State) (x issuer c : Nat) : State :=
  s.setVector x (joinVectors (s.vectorOf x) [(256 + issuer, c)])

/-- An issuing cluster and the clock of a command of it, as one number: a task that resumes elsewhere keeps both (R201, R203). -/
def cmdStamp (agent clk : Nat) : Nat := agent * 2 ^ 24 + clk

/-- The join of the completion of a stamped command. -/
def State.joinStamp (s : State) (x t : Nat) : State := s.joinCommand x (t / 2 ^ 24) (t % 2 ^ 24)

/-- A task starts or resumes on core `n` (R201, R203): the pop joins the device commit vector and each cluster's clock advances. -/
def State.popClocks (s : State) (n : Nat) : State :=
  allClusters.foldl (fun s k =>
    let x := agentId n k
    (s.joinInto x s.commitVector).tick x) s

/-- A task ends or is saved on core `n`: each cluster's clock advances (R201). -/
def State.endClocks (s : State) (n : Nat) : State := allClusters.foldl (fun s k => s.tick (agentId n k)) s

/-- A release has been performed: the agent's clock advances (R201). -/
def State.released (s : State) (x : Nat) : State := s.tick x

/-- ERA_CHANGE (R205): due once some clock has reached 0xFF_FF00. -/
def State.eraDue (s : State) : Bool := s.clocks.cells.any fun c => 0xFFFF00 ≤ c.2

/-- ERAS counted in the race rings of the partitions, each once (R205). -/
def State.countEras (s : State) : List DWord → State
  | [] => s
  | r :: rs => (s.bumpRing r 24).countEras rs

/-- The race ring of a partition descriptor (R316). -/
def ringOf (d : BitVec 512) : DWord := d.extractLsb' 128 64

/-- The trap ring of a partition descriptor (R316). -/
def ringOfTraps (d : BitVec 512) : DWord := d.extractLsb' 64 64

/-- A barrier without the clocks of the old era. -/
def Barrier.clearClocks (b : Barrier) : Barrier := { b with joined := .empty, clocks := .empty, clocksN := .empty }

/-- A command's stamp in a new era. -/
def newStamp (t : Nat) : Nat := cmdStamp (t / 2 ^ 24) 1

/-- A core's clocks in a new era: commands and barriers hold clocks of the old one no more. A command in flight, a completion that is remembered and a
barrier arrival carry clock 1 and no vector from then on (DESIGN CHOICE, log 90). -/
def Core.clearClocks (c : Core) : Core :=
  { c with
    commands := c.commands.map fun x => { x with vc := .empty, clk := 1 }
    cmdClk := c.cmdClk.mapValues newStamp
    clusters := c.clusters.mapValues fun x => { x with lastCmdClock := if x.lastCmdClock = 0 then 0 else newStamp x.lastCmdClock }
    barriers := c.barriers.mapValues Barrier.clearClocks }

/-- What is kept of a saved task in a new era. -/
def Kept.clearClocks (k : Kept) : Kept :=
  { k with
    barriers := k.barriers.mapValues Barrier.clearClocks
    cmdClk := k.cmdClk.mapValues newStamp
    lastCmds := k.lastCmds.map fun t => if t = 0 then 0 else newStamp t }

/-- ERA_CHANGE (R205): the era advances, clocks become 1, vectors 0; the rings count it and the service kernel instances are signalled. -/
def execEraChange (s : State) : Host.Outcome State Fault Refusal :=
  .next (if s.eraDue then
    let s :=
      { s with
        eraNow := s.eraNow + 1
        clocks := ⟨((List.range 256) ++ [portGroup]).map fun i => (i, 1)⟩
        vclocks := .empty
        dclk := .empty
        commitVector := .empty
        cores := s.cores.mapValues Core.clearClocks
        ready := s.ready.map fun (r : ReadyCr) => { r with kept := r.kept.clearClocks } }
    let s := s.countEras ((s.partitions.values.map ringOf).eraseDups)
    (List.range 16).foldl (fun s i => s.interrupt i 0) s
  else s)

end Sys2Proof.Machine
end

