-- ==== Sys2Proof/Machine/SageQueue.lean ====
section
/-!
DEFINITION. The event queues of the Sage cores (R277 to R280) and the ports they serve (R24, R263, R283).
-/

namespace Sys2Proof.Machine

/-- The Sage core that serves a port (R24). -/
def sageOfPort (p : Nat) : Nat := p / 6

/-- The Sage core of a packet delivery context's number in the model: 16,384 contexts each (R275). -/
def sageOfPdc (k : Nat) : Nat := k / 16384

/-- An event of R277 before it is queued: its type, port, context, node, packet number and INFO. -/
structure SageEvent where
  type : Nat
  port : Nat
  pdc : Nat
  node : Nat
  psn : Nat
  info : Nat
deriving DecidableEq, Repr

/-- The 256 bits of an event record (R278). -/
def SageEvent.bits (e : SageEvent) (dcc count : Nat) : Nat :=
  dcc % 2 ^ 64 * 2 ^ 192 + e.info % 2 ^ 64 * 2 ^ 128 + e.psn % 2 ^ 32 * 2 ^ 96 + e.node % 2 ^ 11 * 2 ^ 85 +
    e.pdc % 16384 * 2 ^ 71 + e.port % 64 * 2 ^ 65 + count * 2 ^ 32 + e.type

/-- May events of this type be merged (R279)? -/
def mergeable (type : Nat) : Bool := type = 1 || type = 2 || type = 3

/-- May events of this type be dropped (R277)? -/
def droppable (type : Nat) : Bool := type = 1 || type = 2 || type = 3 || type = 4 || type = 7

/-- INFO of a merged record (R279): packets added, or bytes added and the delay replaced, or the timeout replaced. -/
def mergedInfo (type old new : Nat) : Nat :=
  if type = 1 then (old + new) % 2 ^ 64
  else if type = 2 then (old + new) % 2 ^ 32 + new / 2 ^ 32 * 2 ^ 32
  else new

/-- The offset in data memory of queue record `i`, counted from HEAD (R275). -/
def Sage.recordOff (x : Sage) (i : Nat) : Nat := 32 * ((x.evHead + i) % 1024)

/-- The queued record that an event is merged into (R279). -/
def Sage.mergeInto (x : Sage) (e : SageEvent) : Option Nat :=
  if mergeable e.type then
    (List.range x.evOcc).find? fun i =>
      let w := x.dmem.read (x.recordOff i) 32
      decide (bitsAt w 0 4 = e.type) && decide (bitsAt w 71 14 = e.pdc % 16384)
  else none

/-- An event written to a Sage core's queue: merged, appended, or dropped and counted (R277 to R280). -/
def Sage.raise (x : Sage) (dcc : Nat) (e : SageEvent) : Sage :=
  match x.mergeInto e with
  | some i =>
    let w := x.dmem.read (x.recordOff i) 32
    let e' := { e with info := mergedInfo e.type (bitsAt w 128 64) e.info, psn := bitsAt w 96 32, port := bitsAt w 65 6, node := bitsAt w 85 11 }
    { x with dmem := x.dmem.write (x.recordOff i) 32 (e'.bits dcc (min (bitsAt w 32 16 + 1) 65535)) }
  | none =>
    if droppable e.type ∧ 960 ≤ x.evOcc then { x with evDrop := min (x.evDrop + 1) 65535 }
    else if 1024 ≤ x.evOcc then x
    else
      { x with
        dmem := x.dmem.write (x.recordOff x.evOcc) 32 (e.bits dcc 1)
        evOcc := x.evOcc + 1
        lastPop := if x.evOcc = 0 then dcc else x.lastPop }

/-- An event raised at the Sage core of a port. -/
def State.raise (s : State) (g : Nat) (e : SageEvent) : State := s.setSageAt g ((s.sageAt g).raise s.dcc e)

/-- Port `p`. -/
def State.port (s : State) (p : Nat) : Port := s.ports.get .start p

/-- The state with port `p` replaced. -/
def State.setPort (s : State) (p : Nat) (x : Port) : State := { s with ports := s.ports.put p x }

/-- The external ports (R24, R271): 13 of the 48, so that the 35 others lie on both dies. -/
def externalPorts : Nat → List Nat → List Nat
  | 0, _ => []
  | n + 1, free =>
    let p := free.getD (Config.externalPick n % free.length) 0
    p :: externalPorts n (free.filter fun q => q ≠ p)

/-- Has a port the fabric role (R24, R271)? -/
def isFabricPort (p : Nat) : Bool := decide (p < 48) && !(externalPorts 13 (List.range 48)).contains p

/-- LDOWN raised for a port (R277). -/
def State.raiseDown (s : State) (p info : Nat) : State := s.raise (sageOfPort p) ⟨6, p, 0, 0, 0, info⟩

/-- A port goes down: its PDOWN bit is set, the packets on it are lost, and LDOWN is raised (R277, R283); for a port that is down already nothing goes down
(R279). -/
def State.downPort (s : State) (p info : Nat) : State :=
  if (s.port p).down then s
  else
    let g := sageOfPort p
    let s := s.setPort p { s.port p with down := true, escape := [] }
    let x := s.sageAt g
    let s := s.setSageAt g { x with pdown := x.pdown ||| (1 <<< (p % 6)) }
    s.raiseDown p info

/-- Every port of a failed Sage core taken down (R24, R280), INFO 3; none of them retrains any more. -/
def State.downSage (s : State) (g : Nat) : State :=
  (List.range 6).foldl (fun s j =>
    let p := 6 * g + j
    (s.setPort p { s.port p with retraining := false }).downPort p 3) s

end Sys2Proof.Machine
end

