-- ==== Sys2Proof/Machine/Transport.lean ====
section
/-!
DEFINITION. The sending side of the transport (R264, R265, R272, R273, R281): delivery contexts, paths, packets in flight.
-/

namespace Sys2Proof.Machine

/-- Packet delivery context `k` (of Sage core k / 16,384). -/
def State.pdc (s : State) (k : Nat) : Pdc := s.pdcs.get .start k

/-- The state with a delivery context replaced. -/
def State.setPdc (s : State) (k : Nat) (x : Pdc) : State := { s with pdcs := s.pdcs.put k x }

/-- The delivery context a Sage core's transport uses towards a node: the one of the node's number (log 10). -/
def pdcFor (g node : Nat) : Nat := 16384 * g + node

/-- The first-hop port of the minimal path to a node, by a Sage core's routing table (R272). -/
def Sage.minimalPort (x : Sage) (node : Nat) : Option Nat :=
  let e := x.routes.get 0 node
  if e.getLsbD 17 then some (e.extractLsb' 0 6).toNat else none

/-- A path: its first-hop port, the intermediate node it goes by (0x7FF: none), and its weight (R272, R273). -/
structure Path where
  port : Nat
  via : BitVec 11
  weight : Nat
deriving DecidableEq, Repr

/-- The paths of an entry in table order: the minimal one with its MVIA, of weight 16, and the valid alternatives, which go minimally to their intermediate
(R272, R273); none of an entry that is not valid. -/
def Sage.paths (x : Sage) (node : Nat) : List Path :=
  let e := x.routes.get 0 node
  match x.minimalPort node with
  | none => []
  | some p =>
    ⟨p, e.extractLsb' 6 11, 16⟩ :: (List.range 8).filterMap fun j =>
      let a := e.extractLsb' (32 + 24 * j) 24
      if a.getLsbD 11 then
        (x.minimalPort (a.extractLsb' 0 11).toNat).map fun q => ⟨q, a.extractLsb' 0 11, (a.extractLsb' 12 4).toNat⟩
      else none

/-- The paths of Sage core `g`'s table with the weights that count: one whose first-hop port is down counts 0 (R273, R282). -/
def State.weights (s : State) (g node : Nat) : List Path :=
  ((s.sageAt g).paths node).map fun e => if (s.port e.port).down then { e with weight := 0 } else e

/-- The sum of the weights. -/
def totalWeight (l : List Path) : Nat := (l.map Path.weight).foldl (· + ·) 0

/-- The path that index `h` maps onto, in table order (R273). -/
def pickWeighted : Nat → List Path → Option Path
  | _, [] => none
  | h, p :: r => if h < p.weight then some p else pickWeighted (h - p.weight) r

/-- What becomes of a transmission: a path, a wait at the source, or no route (R272, R282). -/
inductive Route where
  | via (path : Path)
  | wait
  | unreach
deriving DecidableEq, Repr

/-- The path of a transmission (R273, R282). -/
def State.route (s : State) (g node ent psn : Nat) : Route :=
  let ws := s.weights g node
  if ws.isEmpty then .unreach
  else
    match pickWeighted (Config.pathHash ent psn % totalWeight ws) ws with
    | some p => if totalWeight ws = 0 then .wait else .via p
    | none => .wait

/-- The Sage core whose transport takes the packets for a node, of those whose table has a valid entry for it (R272, R275); none where no table has one. The spec
does not say which: it is always the same one (DESIGN CHOICE, log 10). -/
def State.pickSage (s : State) (node : Nat) : Option Nat :=
  let able := (List.range 8).filter fun g => !((s.sageAt g).paths node).isEmpty
  able[Config.sageFor node % able.length]?

/-- The number of the slot in which the device's fabric ports send (R274): 1,152 bytes at 800 Gb/s. -/
def slotNumber (dcc : Nat) : Nat := dcc * 100 / 1152

/-- Is this slot of a fabric port that is up free (R274)? It carries one packet. -/
def State.slotFree (s : State) (p : Nat) : Bool :=
  isFabricPort p && !(s.port p).down && (match (s.port p).slot with
    | some (k, _) => decide (k ≠ slotNumber s.dcc)
    | none => true)

/-- The state with this slot of a fabric port taken (R274). -/
def State.takeSlot (s : State) (p : Nat) (old : Bool) : State :=
  if isFabricPort p then s.setPort p { s.port p with slot := some (slotNumber s.dcc, old) } else s

/-- Does the rate of a context let a packet go now (R281)? 0 means no limit. -/
def Pdc.rateAllows (c : Pdc) (now : Nat) : Bool := decide (c.rate = 0) || decide (c.nextAt ≤ now)

/-- The time in ns that `size` bytes take at a rate of so many 100 Mb/s (R281); the next packet goes no earlier (DESIGN CHOICE, log 72). -/
def pace (rate size : Nat) : Nat := if rate = 0 then 0 else (80 * size + rate - 1) / rate

/-- Does a context let a packet of `size` bytes start: its window and its rate (R281)? -/
def Pdc.mayStart (c : Pdc) (now size : Nat) : Bool := decide (c.inflight + size ≤ c.cwnd) && c.rateAllows now

/-- The context with the packet of that number replaced. -/
def Pdc.putPacket (c : Pdc) (o : OutPacket) : Pdc := { c with unacked := c.unacked.map fun q => if q.psn = o.psn then o else q }

/-- A transmission, first or repeated, of a packet of context `k`: on a path chosen now, where window (a first one's), rate and path let it, and
the slot of its fabric port is free; otherwise it waits at the source (R273, R274, R281, R282). -/
def State.launchPacket (s : State) (k : Nat) (o : OutPacket) : State :=
  let c := s.pdc k
  let may := if o.counted then c.rateAllows s.dcc else c.mayStart s.dcc o.size
  match (if may then s.route (sageOfPdc k) o.node.toNat o.ent o.psn.toNat else .wait) with
  | .via path =>
    if isFabricPort path.port && !s.slotFree path.port then s.setPdc k (c.putPacket { o with due := true })
    else
      let packet := { o.packet with port := path.port, via := path.via }
      let sent := { o with packet := packet, due := false, counted := true, sentAt := s.dcc, firstSent := if o.counted then o.firstSent else s.dcc }
      let c := { c with inflight := if o.counted then c.inflight else c.inflight + o.size, nextAt := s.dcc + pace c.rate o.size }
      { (s.setPdc k (c.putPacket sent)).takeSlot path.port false with outbox := s.outbox ++ [packet] }
  | _ => s.setPdc k (c.putPacket { o with due := true })

/-- The least payload of a packet (R264). -/
def minPayload : Nat := 64

/-- The length of a payload as it goes out: at least 64 bytes (R264). -/
def paddedSize (l : List Byte) : Nat := max minPayload l.length

/-- A payload shorter than the least, filled up (R264) with zeros (DESIGN CHOICE, log 96). -/
def padded (l : List Byte) : List Byte := l ++ List.replicate (minPayload - l.length) 0

/-- A packet handed to context `k`: it takes the next number and stays until acknowledged or failed (R265, R281). -/
def State.takePacket (s : State) (k node ent : Nat) (p : Packet) (owner : Nat) (isCommand : Bool) (core : Nat) : State :=
  let c := s.pdc k
  let o : OutPacket :=
    { psn := c.nextPsn, node := BitVec.ofNat 11 node, packet := { p with pdc := k, psn := c.nextPsn, ent := BitVec.ofNat 16 ent, payload := padded p.payload },
      size := paddedSize p.payload, data := p.payload.length, owner := owner, isCommand := isCommand, core := core, firstSent := s.dcc, sentAt := s.dcc, timeout := 16, ent := ent, notReady := none, due := true,
      counted := false }
  (s.setPdc k { c with isOpen := true, node := BitVec.ofNat 11 node, nextPsn := c.nextPsn + 1, unacked := c.unacked ++ [o] }).launchPacket k o

/-- The result of asking the transport to send a packet: taken, with its number; not now; or no route (R272). -/
inductive Sent where
  | ok (s : State) (psn : BitVec 32)
  | wait
  | unreach

/-- A new packet handed to the transport of Sage core `g`: with the window or rate of its context exhausted its sender waits (R281); with no path that counts
it waits in the transport (R282). -/
def State.transmitBy (s : State) (g node ent : Nat) (p : Packet) (owner : Nat) (isCommand : Bool) (core : Nat) : Sent :=
  let k := pdcFor g node
  if ((s.sageAt g).paths node).isEmpty then .unreach
  else if !(s.pdc k).mayStart s.dcc (paddedSize p.payload) then .wait
  else .ok (s.takePacket k node ent p owner isCommand core) (s.pdc k).nextPsn

/-- A new packet handed to the transport of some Sage core. -/
def State.transmit (s : State) (node ent : Nat) (p : Packet) (owner : Nat) (isCommand : Bool) (core : Nat) : Sent :=
  match s.pickSage node with
  | some g => s.transmitBy g node ent p owner isCommand core
  | none => .unreach

/-- A packet that the device itself sends, a reply: it waits in its context where it cannot go yet (R264, R281). -/
def State.reply (s : State) (node : Nat) (p : Packet) : State :=
  match s.pickSage node with
  | some g => s.takePacket (pdcFor g node) node p.ent.toNat p 0 false 72
  | none => s

/-- The packets of a context that wait at the source, tried again (R282). -/
def State.launchDue (s : State) (k : Nat) : State := ((s.pdc k).unacked.filter fun o => o.due).foldl (fun s o => s.launchPacket k o) s

/-- A packet sent again on a path chosen anew (R265, R282): the window does not hold it. -/
def State.retransmit (s : State) (k : Nat) (o : OutPacket) : State := s.launchPacket k o

/-- Every packet that waits at the source, tried again. -/
def State.launchAll (s : State) : State := s.pdcs.keys.foldl State.launchDue s

/-- Has a packet no path on which it could go (R282), or no entry at all (R272)? -/
def State.noPath (s : State) (k : Nat) (o : OutPacket) : Bool := decide (totalWeight (s.weights (sageOfPdc k) o.node.toNat) = 0)

/-- The packet of an access or command of a core, before the transport numbers it (R266). -/
def State.header (s : State) (n : Nat) (opc : BitVec 4) (handle : BitVec 32) (aux : BitVec 32) (coord : BitVec 128) (payload : List Byte) :
    Packet :=
  { port := 0, pdc := 0, psn := 0, ent := 0, via := 0x7FF, srcn := s.node, aux := aux, rank := 0, nc := 0, nelem := 0, uoff := 0, coord := coord,
    handle := handle, job := (s.coreAt n).ctx.job, acq := false, rel := false, opc := opc, payload := payload,
    ecn := false }

end Sys2Proof.Machine
end

