-- ==== Sys2Proof/Machine/Access.lean ====
section
/-!
DEFINITION. The accesses of a core's clusters: how they are issued, the order in which they may be performed (R174 to R183, R190), and how
one is performed at its home, in the task's version, or sent to another node (R185 to R189, R270).
-/

namespace Sys2Proof.Machine

/-- Is an array idle: nothing pending, nothing in progress (R237)? -/
def ArrayState.idle (a : ArrayState) : Bool := a.pend.isNone && a.ops.isEmpty

/-- The line an element lies in (R176): device, scratchpad, or of another node. -/
def Part.key (p : Part) : Option (Nat × Nat) :=
  match p.place with
  | .device a => some (0, a / 64)
  | .scratch o => some (1, o / 64)
  | .remote n off => some (2 + n, off / 64)
  | .pad _ => none
  | .drop => none

/-- The lines an access has still to perform. -/
def Access.keys (x : Access) : List (Nat × Nat) := (x.parts.filterMap Part.key).eraseDups

/-- Do two accesses touch one line (R176)? -/
def Access.sharesLine (x y : Access) : Bool := x.keys.any fun k => y.keys.contains k

/-- Does FENCE count an access as a store: as a remote write, an arrival at another node too (R181, R382)? -/
def AccessOp.fencedStore (x : AccessOp) : Bool := x.isStore || x.isArrival

/-- Does an ordering set order an earlier `y` before a later `x` (R181)? -/
def fencePairs (set : BitVec 5) (y x : AccessOp) : Bool :=
  (set.getLsbD 4 && x.isCommand && !y.isMarker && !y.isCommand) || (set.getLsbD 0 && y.isLoad && x.isLoad) || (set.getLsbD 1 && y.isLoad && x.fencedStore) ||
    (set.getLsbD 2 && y.fencedStore && x.isLoad) || (set.getLsbD 3 && y.fencedStore && x.fencedStore)

/-- Does an earlier access of the cluster hold `x` back: by its line, as an acquire, as one not yet checked, because `x` is a release, or because it has
not passed translation at another node (R176, R180, R219, R290)? Engine commands are accepted in order (R252). -/
def Access.holds (y x : Access) : Bool :=
  !y.op.isMarker && (y.op.isCommand && x.op.isCommand || y.sharesLine x || y.acq || y.checked || x.rel || y.parts.any Part.isRemote)

/-- Does a MARK or FENCE among `rest` hold `x` back, given the accesses `seen` before it (R177, R181)? -/
def markerHolds (x : AccessOp) (seen : List Access) : List Access → Bool
  | [] => false
  | y :: r =>
    (match y.op with
     | .mark => seen.any fun z => !z.op.isMarker
     | .fence set => seen.any fun z => fencePairs set z.op x
     | _ => false) || markerHolds x (seen ++ [y]) r

/-- May the access be performed now, given the earlier accesses of its cluster (R176 to R181)? -/
def Access.mayPerform (x : Access) (before : List Access) : Bool :=
  !(before.any fun y => y.holds x) && !markerHolds x.op [] before

/-- The earlier accesses of the cluster of the access numbered `id`. -/
def Core.accessesBefore (c : Core) (k : Cluster) (id : Nat) : List Access :=
  c.accesses.filter fun y => y.cluster = k && decide (y.id < id)

/-- An access by its number. -/
def Core.findAccess (c : Core) (id : Nat) : Option Access := c.accesses.find? fun y => y.id = id

/-- Does an entry order nothing any more: a marker with no earlier access of its cluster? -/
def Core.spentMarker (c : Core) (y : Access) : Bool :=
  y.op.isMarker && (c.accesses.all fun z => z.cluster ≠ y.cluster || z.op.isMarker || decide (y.id < z.id))

/-- The core without the entries that order nothing any more. -/
def Core.tidy (c : Core) : Core := { c with accesses := c.accesses.filter fun y => !c.spentMarker y }

/-- Has the word of DXW completed: it has issued, and the accesses of its cluster up to it are performed (R330)? Then BUSY clears. -/
def Core.dxwSettled (c : Core) : Core :=
  match c.dxwIssued with
  | some m =>
    if c.accesses.any fun y => y.cluster = clusterOf c.dxwCluster && !y.op.isMarker && decide (y.id < m) then c
    else { c with dxw := dxwDone c.dxw, dxwIssued := none }
  | none => c

/-- The core without access `id`. -/
def Core.dropAccess (c : Core) (id : Nat) : Core :=
  ({ c with accesses := c.accesses.filter fun y => y.id ≠ id } : Core).tidy.dxwSettled

/-- The core with access `x` in the place of the one with its number. -/
def Core.putAccess (c : Core) (x : Access) : Core :=
  { c with accesses := c.accesses.map fun y => if y.id = x.id then x else y }

/-- Are engine commands of cluster A held back: by an acquire, a MARK, a FENCE with `e`, or an earlier command (R177, R180, R181, R252)? -/
def Core.commandsHeld (c : Core) : Bool :=
  c.accesses.any fun y => y.cluster = .A && (y.acq || (match y.op with
    | .mark => true
    | .fence set => set.getLsbD 4
    | .command _ _ _ _ => true
    | _ => false))

/-- Does a cluster still have a versioned write that has not entered the version? -/
def Core.writesQueued (c : Core) (k : Cluster) : Bool := c.accesses.any fun y => y.cluster = k && y.versioned

/-- Has a cluster any access not yet performed? -/
def Core.hasAccesses (c : Core) (k : Cluster) : Bool := c.accesses.any fun y => y.cluster = k && !y.op.isMarker

/-- A byte as the task's loads see it: the version's, then that of a commit in progress, then the home's (R187). -/
def State.taskByte (s : State) (c : Core) (a : Nat) : Byte :=
  let b := match c.committing.bind fun v => v.find a with
    | some v => v.over (s.homeByte a)
    | none => s.homeByte a
  match c.version.find a with
  | some v => v.over b
  | none => b

/-- Bytes as the task's loads see them. -/
def State.taskBytes (s : State) (c : Core) (a : Nat) : Nat → List Byte
  | 0 => []
  | n + 1 => s.taskByte c a :: s.taskBytes c (a + 1) n

/-- The bits of `width` at bit `bit` of bytes. -/
def bitsOfBytes (bs : List Byte) (bit width : Nat) : Nat := natOfBytes bs / 2 ^ bit % 2 ^ width

/-- The value of an element of core `c`; `versioned` where the task's version is seen. -/
def State.partValue (s : State) (c : Core) (versioned : Bool) (p : Part) : Nat :=
  let n := (p.bit + p.width + 7) / 8
  match p.place with
  | .device a => bitsOfBytes (if versioned then s.taskBytes c a n else s.homeBytes a n) p.bit p.width
  | .scratch o => bitsOfBytes (c.scratch.bytes o n) p.bit p.width
  | .pad v => v % 2 ^ p.width
  | _ => 0

/-- The value of an element list, the first in the low bits. -/
def State.partsValue (s : State) (c : Core) (versioned : Bool) : List Part → Nat
  | [] => 0
  | p :: r => s.partValue c versioned p + 2 ^ p.width * s.partsValue c versioned r

/-- The bits `width` at `bit` of a number of bits replaced. -/
def replaceBits (old bit width v : Nat) : Nat :=
  old - old / 2 ^ bit % 2 ^ width * 2 ^ bit + v % 2 ^ width * 2 ^ bit

/-- Does a residency entry as some cache shows it have DIRTY set, so that a write passes (R167)? -/
def State.showsDirty (s : State) (n a : Nat) : Bool := (s.ruBits (s.viewer n) a).getLsbD 6

/-- DIRTY set before a write into a resident object is performed (R166, R167). -/
def State.markDirty (s : State) (n : Nat) (p : Part) : State :=
  match p.ru with
  | some a => if s.showsDirty n a then s else s.setDirty a
  | none => s

/-- Is an element cut off from core `n` (R313)? -/
def State.partCut (s : State) (n : Nat) (p : Part) : Bool :=
  match p.place with
  | .device a => s.cutOff n a
  | _ => false

/-- The bytes of an element's value, each with the bits it has of it (R150): a 4-bit element is a nibble. -/
def Part.cells (p : Part) (v : Nat) : List VByte :=
  let n := (p.bit + p.width + 7) / 8
  (bytesOfNat n (v % 2 ^ p.width * 2 ^ p.bit)).zipWith VByte.mk (bytesOfNat n ((2 ^ p.width - 1) * 2 ^ p.bit))

/-- A byte of the version with the bits of another write (R187). -/
def VByte.merge (new : VByte) : Option VByte → VByte
  | some old => ⟨new.over old.val, new.mask ||| old.mask⟩
  | none => new

/-- Bytes written at their homes, bits apart (R150). -/
def State.setHomeCells (s : State) (a : Nat) : List VByte → State
  | [] => s
  | b :: r => (s.setHomeBits a b).setHomeCells (a + 1) r

/-- A number entered in a list that holds none twice. -/
def insertOnce (i : Nat) (l : List Nat) : List Nat := if l.contains i then l else i :: l

/-- A value of `width` bits written at an element's place by core `n`, through handle index `i`: into the version, or at its home (R150, R186). The version
keeps by line which residency entries and which records its writes were translated through (R165, R166). -/
def State.writePart (s : State) (n i : Nat) (versioned : Bool) (p : Part) (v : Nat) : State :=
  let bytes := (p.bit + p.width + 7) / 8
  let s := if versioned then s else s.markDirty n p
  match p.place with
  | .device a =>
    let c := s.coreAt n
    if versioned then
      let rus := match p.ru with
        | some e => c.versionRu.put (a / 64) (insertOnce e (c.versionRu.get [] (a / 64)))
        | none => c.versionRu
      let cells := ((List.range bytes).zip (p.cells v)).foldl (fun t e => t.put (a + e.1) (e.2.merge (t.find (a + e.1)))) c.version
      s.setCoreAt n
        { c with version := cells, versionRu := rus, versionOf := c.versionOf.put (a / 64) (insertOnce i (c.versionOf.get [] (a / 64))) }
    else s.setHomeCells a (p.cells v)
  | .scratch o =>
    let c := s.coreAt n
    let w := replaceBits (c.scratch.read o bytes) p.bit p.width v
    s.setCoreAt n { c with scratch := c.scratch.write o bytes w }
  | _ => s

/-- The elements of one line written, the others kept: the elements still to write (R174). -/
def State.writeLine (s : State) (n i : Nat) (versioned : Bool) (key : Nat × Nat) (v : Nat) : List Part → State × List Part
  | [] => (s, [])
  | p :: r =>
    let hit := decide (p.key = some key)
    let s := if hit then s.writePart n i versioned p (v % 2 ^ p.width) else s
    let (s, r) := s.writeLine n i versioned key (v / 2 ^ p.width) r
    (s, (if hit then { p with place := .drop } else p) :: r)

/-- The elements of one line read: each becomes its value. -/
def State.readLine (s : State) (c : Core) (versioned : Bool) (key : Nat × Nat) (ps : List Part) : List Part :=
  ps.map fun p => if p.key = some key then { p with place := .pad (s.partValue c versioned p) } else p

/-- The lines a version holds (R188). -/
def versionLines (v : Tab VByte) : List Nat := (v.keys.map (· / 64)).eraseDups

/-- The lines a task's version takes up: those it holds, and those of a commit in progress that are still to be performed (R187, R188). -/
def Core.heldLines (c : Core) : List Nat :=
  (versionLines c.version ++ (match c.committing with
    | some v => versionLines v
    | none => [])).eraseDups

/-- Would a write into this line overflow the version (R188)? -/
def Core.overflows (c : Core) (key : Nat × Nat) : Bool :=
  key.1 = 0 && !c.heldLines.contains key.2 && decide (c.vresLines ≤ c.heldLines.length)

/-- The lines that the writes of a cluster still to be performed may add to the version. -/
def Core.queuedLines (c : Core) (k : Cluster) : List Nat :=
  (c.accesses.filter fun y => y.cluster = k && y.versioned).flatMap fun y => y.deviceLines

/-- Is access `e.2` of core `e.1` still to be performed in the frames of a lock, at the slice that has it? -/
def State.stillHeld (s : State) (slice : Nat) (l : FrameLock) (e : Nat × Nat) : Bool :=
  match (s.coreAt e.1).findAccess e.2 with
  | some x => x.keys.any fun k => decide (k.1 = 0 ∧ l.old ≤ k.2 / 1024 ∧ k.2 / 1024 < l.old + l.frames ∧ homeOf (64 * k.2) = slice)
  | none => false

/-- The access that a lock's home performs next of those it has held (R168): the first that arrived there. -/
def State.nextHeld (s : State) (slice : Nat) (l : FrameLock) : Option (Nat × Nat) := l.queue.find? (s.stillHeld slice l)

/-- Does a frame lock that has not been released hold a write to this line (R168)? -/
def State.lockHolds (s : State) (key : Nat × Nat) : Bool :=
  key.1 = 0 && (match s.lockOn (64 * key.2) with
    | some l => !l.released
    | none => false)

/-- Is an access's home holding it: a bias flip of its frame; for a write, a frame lock; or, after the lock's release, an access that it held and that
comes first (R168, R197)? `who` is the access, by core and number. -/
def State.homeHoldsFor (s : State) (who : Option (Nat × Nat)) (key : Nat × Nat) (write : Bool) : Bool :=
  if key.1 ≠ 0 then false
  else
    let a := key.2 * 64
    (match (s.slice (homeOf (a / 65536 * 65536))).flipping with
     | some (f, _) => decide (f = a / 65536)
     | none => false) ||
    (match s.lockOn a with
     | some l => if l.released then (s.nextHeld (homeOf a) l).isSome && s.nextHeld (homeOf a) l ≠ who else write
     | none => false)

/-- The same for a write or read that is no access of a cluster. -/
def State.homeHolds (s : State) (key : Nat × Nat) (write : Bool) : Bool := s.homeHoldsFor none key write

/-- A lock with an access that has arrived at it (R168). -/
def FrameLock.arrived (l : FrameLock) (old : Nat) (e : Nat × Nat) : FrameLock :=
  if l.old = old ∧ !l.released ∧ !l.queue.contains e then { l with queue := l.queue ++ [e] } else l

/-- The state after a writing access has met a lock: its place in the order of arrival is kept (R168). -/
def State.noteHeld (s : State) (e : Nat × Nat) (key : Nat × Nat) : State :=
  match s.lockOn (key.2 * 64) with
  | some l =>
    let x := s.slice (homeOf (key.2 * 64))
    s.setSlice (homeOf (key.2 * 64)) { x with locks := x.locks.map fun k => k.arrived l.old e }
  | none => s

/-- The result of a load in its destination (R415): sign- or zero-extended. -/
def loadResult (w : Nat) (signed : Bool) (v : Nat) : DWord :=
  if signed then BitVec.ofInt 64 (if v / 2 ^ (w - 1) % 2 = 1 then (v : Int) - 2 ^ w else v) else BitVec.ofNat 64 v

/-- A row delivered to a load queue: the rows at the head of its order that have arrived are appended (R106). -/
def deliverRows : List Ticket → List Row × List Ticket
  | [] => ([], [])
  | t :: rest => match t.row with
    | some r =>
      let (rows, left) := deliverRows rest
      (r :: rows, left)
    | none => ([], t :: rest)

/-- May an access still stop its task precisely, when it is checked or translated at another node (R219, R270)? -/
def Access.mayStop (x : Access) : Bool := x.before.isSome && (x.checked || x.parts.any Part.isRemote)

/-- Is a row of a queue held back: one of a word, or of a later one, of which a row may still stop the task? Nothing is appended before every trap and fault
(R445). -/
def Core.rowHeld (c : Core) (ticket : Nat) : Bool :=
  c.accesses.any fun y => y.op.isRow && y.mayStop && (match y.before with
    | some b => decide (b.word ≤ ticket)
    | none => false)

/-- The core after the row of a ticket of load queue `q` has arrived (R106, R446). -/
def Core.rowArrived (c : Core) (q ticket : Nat) (row : Row) : Core :=
  let ts := (c.loadqTickets.get [] q).map fun e => if e.id = ticket then { e with row := some row } else e
  let (rows, left) := deliverRows (ts.takeWhile fun e => !c.rowHeld e.id)
  { c with
    loadq := c.loadq.put q (c.loadq.get [] q ++ rows)
    loadqTickets := c.loadqTickets.put q (left ++ ts.dropWhile fun e => !c.rowHeld e.id) }

/-- The new value of an atomic (R184, R370), on naturals of the width. -/
def atomicNew (op : AtomOp) (wide : Bool) (old v cmp : Nat) : Nat :=
  let w := if wide then 64 else 32
  let si := fun (n : Nat) => if n / 2 ^ (w - 1) % 2 = 1 then (n : Int) - 2 ^ w else (n : Int)
  match op with
  | .add => (old + v) % 2 ^ w
  | .fadd => (fadd32 (BitVec.ofNat 32 old) (BitVec.ofNat 32 v)).toNat
  | .and => old &&& v
  | .or => old ||| v
  | .xor => old ^^^ v
  | .min => if si v < si old then v else old
  | .max => if si old < si v then v else old
  | .minu => if v < old then v else old
  | .maxu => if old < v then v else old
  | .xchg => v
  | .cas => if old = cmp then v else old

/-- The old value of an atomic as its destination takes it (R370). -/
def atomicOld (wide signed : Bool) (old : Nat) : DWord := loadResult (if wide then 64 else 32) signed old

/-- Does watchpoint `k` watch a byte of `n` bytes from device address `a` for this kind of access (R340, R341)? -/
def State.watched (s : State) (k a n : Nat) (write : Bool) : Bool :=
  let w := s.dwp.get 0 k
  let kind := (w.extractLsb' 62 2).toNat
  let base := (w.extractLsb' 4 39).toNat * 16
  (if write then kind = 1 || kind = 3 else kind = 2 || kind = 3) &&
    ((List.range n).any fun i => decide (base ≤ a + i) && decide (a + i < base + 16) && w.getLsbD (46 + (a + i - base)))

/-- The strikes of an access, one for each watchpoint that it touches (R341): the first element it touches there. -/
def State.strikes (s : State) (write : Bool) (ps : List Part) : List Nat :=
  (List.range 4).filterMap fun k => ps.findSome? fun p => match p.place with
    | .device a => if s.watched k a ((p.bit + p.width + 7) / 8) write then some a else none
    | _ => none

/-- Its first strike. -/
def State.strike (s : State) (write : Bool) (ps : List Part) : Option Nat := (s.strikes write ps).head?

/-- The WATCH records of strikes in the buffer of core `n` (R341). -/
def State.logStrikes (s : State) (n agent : Nat) (precise write : Bool) (l : List Nat) : State :=
  l.foldl (fun s a => s.logWatch n a agent precise write) s

/-- The watchpoints at issue (R341): in a context with DBG = 1 a strike is a debug stop. -/
def State.watchIssue (s : State) (write : Bool) (coord : List Int) (ps : List Part) : Except Hold Unit :=
  if (s.strike write ps).isSome && s.cur.ctx.dbg then .error (.watch (s.strikes write ps) write coord) else .ok ()

/-- The WATCH records of an access of the focused cluster (R341). -/
def State.watchRecord (s : State) (write precise : Bool) (ps : List Part) : State :=
  s.logStrikes s.core (agentId s.core s.cluster) precise write (s.strikes write ps)

/-- The WATCH record of a strike at the home (R341): in the buffer of a core of the home's quad; which of the four is not given. -/
def State.watchAtHome (s : State) (agent a : Nat) (write : Bool) : State :=
  s.logWatch (4 * homeOf a + Config.pick (8 * s.steps + 3) % 4) a agent false write

/-- The strikes of a run, recorded (R341). -/
def State.watchRun (s : State) (agent : Nat) (write : Bool) (ps : List Part) : State :=
  (s.strikes write ps).foldl (fun s a => s.watchAtHome agent a write) s

/-- A control register as a cluster sees it: the writes of other clusters show from the second cycle on (R91, R116). -/
def csrSeen (now : Nat) (k : Cluster) (cur : DWord) : List Change → DWord
  | [] => cur
  | e :: r => if e.seenBy now k then cur else csrSeen now k e.val r

/-- Control register `n` of the core, now `cur`, as the focused cluster sees it. -/
def State.csrView (s : State) (n : Nat) (cur : DWord) : DWord := csrSeen s.dcc s.cluster cur (s.cur.csrHist.get [] n)

/-- The task's race mode as the focused cluster sees it (R215). -/
def State.raceMode (s : State) : BitVec 2 := (s.csrView 0x050 s.cur.rmode).extractLsb' 0 2

/-- An access of the focused cluster enters its queue (R176). -/
def State.enqueue (s : State) (r : ObjRec) (h : BitVec 32) (code : Nat) (coord : List Int) (op : AccessOp) (ps : List Part)
    (acq rel : Bool) (scope : BitVec 3) : State :=
  let c := s.cur
  let isWrite := op.isStore && !op.isLoad
  let mode := s.raceMode
  let atom := op.isStore && op.isLoad
  let x : Access :=
    { id := c.nextId, cluster := s.cluster, unit := clusterIndex s.cluster, pc := s.cl.pc, code := code, handle := h, coord := coord, op := op, parts := ps,
      acq := acq, rel := rel, scope := scope,
      versioned := isWrite && decide (c.vresLines ≠ 0) && !r.hv && !(rel && decide (2 ≤ scope.toNat)) && (match op with | .store _ => true | _ => false) &&
        (ps.any fun p => match p.place with | .device _ => true | _ => false),
      mode := mode,
      checked := r.rc && (decide (mode ≠ 0) || acq || rel) && !(linesOf ps).isEmpty,
      metaH := r.metaH, span := r.span, phase := .issued, since := s.dcc,
      before := some ⟨c.nextId, s.cl, op.dest.map fun d => (d, s.view d), none⟩ }
  let s := s.watchRecord (isWrite || atom) false ps
  s.setCur { s.cur with accesses := s.cur.accesses ++ [x], nextId := c.nextId + 1 }

/-- An entry that only orders: MARK or FENCE (R177, R181). -/
def State.enqueueMarker (s : State) (op : AccessOp) (scope : BitVec 3) : State :=
  let c := s.cur
  let x : Access :=
    { id := c.nextId, cluster := s.cluster, unit := clusterIndex s.cluster, pc := s.cl.pc, code := 0, handle := 0, coord := [], op := op, parts := [], acq := false,
      rel := false, scope := scope, versioned := false, mode := 0, checked := false, metaH := 0, span := 0, phase := .issued,
      since := s.dcc, before := some ⟨c.nextId, s.cl, none, none⟩ }
  s.setCur ({ c with accesses := c.accesses ++ [x], nextId := c.nextId + 1 } : Core).tidy

/-- The reassembly slot of an access (R261). -/
def Core.slotOf (c : Core) (id : Nat) : Option (Nat × Slot32) := c.slots.cells.find? fun e => e.2.access = id

/-- A reassembly slot freed. -/
def Core.freeSlot (c : Core) (id : Nat) : Core :=
  match c.slotOf id with
  | some (k, _) => { c with slots := c.slots.erase k }
  | none => c

/-- A scalar with no pending producer. -/
def Core.noProducer (c : Core) (d : BitVec 5) : Core := { c with scal := c.scal.put d.toNat { c.reg d with pending := none } }

/-- What each of several words puts back, once by word. -/
def firstRows : List Before → List Before
  | [] => []
  | b :: r => b :: (firstRows r).filter fun e => e.word ≠ b.word

/-- What an access's word puts back into its core: the reassembly slot, the scalar it emptied (R92, R290), a load queue's entries (R445). -/
def Core.undo (c : Core) (now : Nat) (x : Access) : Core :=
  let c := c.freeSlot x.id
  let c := match x.op with
    | .queueRow q _ => { c with loadqTickets := c.loadqTickets.put q ((c.loadqTickets.get [] q).filter fun e => !x.before.any fun b => decide (b.word ≤ e.id)) }
    | _ => c
  match x.before.bind Before.dest with
  | some (d, v, full) => if d = 0 then c else (c.change now x.cluster d v full).noProducer d
  | none => c

/-- The entries that words took from their store queues put back at the heads, the last word's first (R448). -/
def Core.untake (c : Core) : List Before → Core
  | [] => c
  | b :: r =>
    let c := c.untake r
    match b.rows with
    | some (q, es) => { c with storeq := c.storeq.put q (es ++ c.storeq.get [] q) }
    | none => c

/-- An access's word and the later words of its cluster, which had issued, are cancelled unperformed (R290): the core as it was before that word. -/
def Core.cancel (c : Core) (now : Nat) (x : Access) (b : Before) : Core :=
  let gone := c.accesses.filter fun y => y.cluster = x.cluster && decide (b.word ≤ y.id)
  let c := { c with accesses := c.accesses.filter fun y => !(y.cluster = x.cluster && decide (b.word ≤ y.id)) }
  let c := gone.foldl (fun c y => c.undo now y) c
  (c.untake (firstRows (gone.filterMap Access.before))).setCl x.cluster
    { b.cl with
      running := (c.cl x.cluster).running, lastCmdClock := (c.cl x.cluster).lastCmdClock, haltDue := (c.cl x.cluster).haltDue
      reex := false, satisfied := b.cl.lock || b.cl.satisfied, lock := false, syncWait := false, syncSince := none, syncCount := 0
      stage := 0, since := none, waitKind := 0, seen := [], found := [] }

/-- An access stops its task precisely when it is performed (R219, R265, R270): its word has no effect, and the later words of its cluster that had issued
are cancelled (R290). A drain's stop is imprecise and names its array (R425); it and a row of an image, which no word issues again, wait for the resumption
(log 11). An access of a task that has already trapped just ends. -/
def State.stopAccess (s : State) (n : Nat) (x : Access) (kind : StopKind) (t : TrapInfo) : State :=
  let c := s.coreAt n
  if c.trapped then s.setCoreAt n ((c.freeSlot x.id).dropAccess x.id) else
  match x.before with
  | some b =>
    let s := s.logWait n x.cluster true
    (s.setCoreAt n ((s.coreAt n).cancel s.dcc x b)).takeStop n kind (clusterIndex x.cluster) (BitVec.ofInt 32 x.pc) false false t 0
  | none =>
    let s := s.setCoreAt n (c.putAccess { x with phase := .waiting })
    if x.code = 9 then s.takeStop n kind x.unit 0 true false t 0
    else s.takeStop n kind (clusterIndex x.cluster) (BitVec.ofInt 32 x.pc) true false t 0

/-- The part of an access that one request carries: the elements at a node in one 256-byte block (R162, R270; log 11). -/
def Part.group (p : Part) : Option (Nat × Nat) :=
  match p.place with
  | .remote n off => some (n, off / 256)
  | _ => none

/-- The byte offset at which another node holds an element (R154). -/
def Part.far (p : Part) : Nat :=
  match p.place with
  | .remote _ off => off
  | _ => p.off

/-- The request an access has out, or sends next: that of its first remote element. -/
def Access.remoteGroup (x : Access) : Option (Nat × Nat) := x.parts.findSome? Part.group

/-- The byte offset and length a request covers (R270). -/
def remoteSpan (g : Nat × Nat) (ps : List Part) : Nat × Nat :=
  match ps.filter fun p => decide (p.group = some g) with
  | [] => (0, 0)
  | p :: r => (p.far, (p :: r).foldl (fun m q => max m (q.far + (q.bit + q.width + 7) / 8)) p.far - p.far)

/-- The bit in its first byte at which a request's first element begins. -/
def remoteBit (g : Nat × Nat) (ps : List Part) : Nat := ((ps.find? fun p => decide (p.group = some g)).map Part.bit).getD 0

/-- The payload of a remote store: the request's elements in order. -/
def remotePayload (g : Nat × Nat) (v : Nat) : List Part → Nat
  | [] => 0
  | p :: r =>
    let rest := remotePayload g (v / 2 ^ p.width) r
    if p.group = some g then v % 2 ^ p.width + 2 ^ p.width * rest else rest

/-- The packet of an access's request (R266, R270, R382): NELEM counts its elements, and UOFF tells the bit at which a 4-bit element begins in its byte, so
that a store changes only its nibbles (R150; log 70). -/
def State.accessPacket (s : State) (n : Nat) (x : Access) (g : Nat × Nat) : Packet :=
  let (off, len) := remoteSpan g x.parts
  let tag := BitVec.ofNat 32 x.id
  let where_ : BitVec 128 := BitVec.ofNat 128 off
  let pkt :=
    match x.op with
    | .store v =>
      let bit := remoteBit g x.parts
      { s.header n 5 x.handle tag where_ (bytesOfNat len (remotePayload g v x.parts * 2 ^ bit)) with uoff := BitVec.ofNat 32 bit }
    | .atomic _ wide v cmp _ _ =>
      s.header n 6 x.handle tag where_ (bytesOfNat (if wide then 8 else 4) v.toNat ++ bytesOfNat 8 cmp.toNat)
    | .arrive core bar round launch _ =>
      { s.header n 8 0 (bar.setWidth 32) (0#64 ++ round ++ launch) [] with uoff := BitVec.ofNat 32 core }
    | _ => s.header n 3 x.handle tag where_ []
  { pkt with acq := x.acq, rel := x.rel, nelem := BitVec.ofNat 16 (x.parts.filter fun p => decide (p.group = some g)).length }

/-- An access to another node that fails with NETERR (R265, R266): a load or an atomic stops its task precisely, a store or an arrival imprecisely. -/
def State.netError (s : State) (n : Nat) (x : Access) (node : Nat) : State :=
  let t : TrapInfo := ⟨0x19, 0, BitVec.ofNat 64 node, x.coord, 0⟩
  if x.op.isLoad then s.stopAccess n x .trap t
  else (s.setCoreAt n ((s.coreAt n).dropAccess x.id)).trapImprecise n .trap (clusterIndex x.cluster) t 0

/-- A request, or a remote arrival, sent (R270, R382): the access waits for the answer. After its task has trapped no new packet goes, and what it has left
at other nodes is not performed (R293). -/
def State.sendAccess (s : State) (n : Nat) (x : Access) (g : Nat × Nat) : State :=
  if (s.coreAt n).trapped then s.setCoreAt n ((s.coreAt n).dropAccess x.id)
  else
    match s.transmit g.1 0 (s.accessPacket n x g) x.id false n with
    | .ok s _ => s.setCoreAt n ((s.coreAt n).putAccess { x with phase := .sent })
    | .wait => s
    | .unreach => s.netError n x g.1

/-- The elements of an answered request given their values from its bytes, `base` being its first byte offset. -/
def answerParts (g : Nat × Nat) (base : Nat) (bs : List Byte) (ps : List Part) : List Part :=
  ps.map fun p =>
    if p.group = some g then
      { p with place := .pad (bitsOfBytes ((bs.drop (p.far - base)).take ((p.bit + p.width + 7) / 8)) p.bit p.width) }
    else p

/-- The elements of an acknowledged store performed. -/
def ackParts (g : Nat × Nat) (ps : List Part) : List Part :=
  ps.map fun p => if p.group = some g then { p with place := .drop } else p

/-- A reassembly slot taken for an access, with the flits that need no memory counted as arrived (R261). -/
def Core.takeSlot (c : Core) (id : Nat) (mask : Byte) : Core :=
  match (List.range 32).find? fun k => !c.slots.has k with
  | some k => { c with slots := c.slots.put k ⟨id, id, mask, .empty⟩ }
  | none => c

/-- The elements of flit `f` of an access's reply: those in its bits 512f to 512f + 511 (R261). -/
def Access.flitParts (x : Access) (f : Nat) : List Part :=
  (x.parts.zipIdx.filter fun p => decide (p.2 * p.1.width / 512 = f)).map Prod.fst

/-- Are all values of flit `f` known? -/
def Access.flitKnown (x : Access) (f : Nat) : Bool := (x.flitParts f).all fun p => p.key.isNone

/-- The mask of the flits whose values need no memory. -/
def Access.knownMask (x : Access) : Byte :=
  (List.range 8).foldl (fun m f => if x.flitKnown f then m ||| (1 <<< f) else m) 0

/-- The flits of a reply that have their values now and had not before, sent from a position (R259, R261). -/
def State.sendFlits (s : State) (n : Nat) (pos : MeshPos) (old x : Access) : State :=
  if ((s.coreAt n).slotOf x.id).isNone then s
  else
    (List.range 8).foldl (fun s f =>
      if x.flitKnown f && !old.flitKnown f then s.replyFlit pos n x.id f (BitVec.ofNat 512 (s.partsValue (s.coreAt n) false (x.flitParts f)))
      else s) s

/-- An access with no element left to perform is performed: it leaves its queue, its result goes where it belongs, and a release or an
acquire has its effect on the clocks (R92, R106, R201). -/
def State.finishAccess (s : State) (n : Nat) (x : Access) : State :=
  let s := s.setCoreAt n ((s.coreAt n).dropAccess x.id)
  let s := if x.rel then s.released (agentId n x.cluster) else s
  let c := s.coreAt n
  match x.op with
  | .load d w signed => s.setCoreAt n (c.deliver d (loadResult w signed (s.partsValue c false x.parts)))
  | .queueRow q ticket => s.setCoreAt n (c.rowArrived q ticket (BitVec.ofNat 4096 (s.partsValue c false x.parts)))
  | _ => s

/-- A version without a line. -/
def withoutLine (v : Tab VByte) (line : Nat) : Tab VByte := ⟨v.cells.filter fun e => e.1 / 64 ≠ line⟩

/-- The line of the version that holds an address, committed alone, after what a commit in progress still has of it (R185). -/
def State.commitLine (s : State) (n line : Nat) : State :=
  let c := s.coreAt n
  let mine := fun (v : Tab VByte) => v.cells.filter fun e => e.1 / 64 = line
  let s := match c.committing with
    | some v => s.writeVersion c.versionRu (mine v)
    | none => s
  let s := s.writeVersion c.versionRu (mine c.version)
  let c := s.coreAt n
  s.setCoreAt n { c with version := withoutLine c.version line, committing := c.committing.map fun v => withoutLine v line }

/-- An atomic performed at its home on an element list of one line (R184, R185, R372). -/
def State.atomicAt (s : State) (n : Nat) (x : Access) (op : AtomOp) (wide : Bool) (v cmp : DWord) (d : Option (BitVec 5)) (signed : Bool)
    (key : Nat × Nat) : State :=
  let s := if key.1 = 0 then s.commitLine n key.2 else s
  let c := s.coreAt n
  let old := s.partsValue c false x.parts
  let w := if wide then 64 else 32
  let new := atomicNew op wide old (v.toNat % 2 ^ w) (cmp.toNat % 2 ^ w)
  let (s, _) := s.writeLine n (handleIndex x.handle) false key new x.parts
  let s := s.setCoreAt n (((s.coreAt n).freeSlot x.id).dropAccess x.id)
  let s := if x.rel then s.released (agentId n x.cluster) else s
  match d with
  | some r => s.setCoreAt n ((s.coreAt n).deliver r (atomicOld wide signed old))
  | none => s

/-- The byte of a map, as the device knows it (R203): by device address, or by core and scratchpad offset. -/
def mapKey (n : Nat) : Place → Nat
  | .device a => a
  | .scratch o => 2 ^ 43 + 2 ^ 22 * n + o
  | _ => 2 ^ 50

/-- Does an element, as core `n` reads it, hold a byte of a map with a bit set (R194, R203)? -/
def State.readsMap (s : State) (n : Nat) (p : Part) : Bool :=
  (List.range ((p.bit + p.width + 7) / 8)).any fun i => match p.place with
    | .device a => s.mapBytes.has (a + i) && s.homeByte (a + i) ≠ 0
    | .scratch o => s.mapBytes.has (mapKey n (.scratch (o + i))) && (s.coreAt n).scratch.byte (o + i) ≠ 0
    | _ => false

/-- The command whose record slot `k` of the completion ring holds (R253): the last of that slot that has completed. -/
def Core.recordedIn (c : Core) (k : Nat) : Nat :=
  let last := c.cmdn - 1 - BitVec.ofNat 16 (((c.cmdn - 1).toNat + 128 - k) % 128)
  if c.commands.any fun y => y.id = last then (last - 128).toNat else last.toNat

/-- An acquire load that reads a completion record or a map byte with a bit set synchronises (R192, R194, R203). -/
def State.acquireJoins (s : State) (n : Nat) (x : Access) : State :=
  let me := agentId n x.cluster
  if !x.acq then s
  else
    let c := s.coreAt n
    x.parts.foldl (fun s p =>
      let s := if s.readsMap n p then s.joinMap me else s
      match p.place with
      | .scratch o =>
        if 0x3FB000 ≤ o ∧ o < 0x3FC000 then
          match c.cmdClk.find (c.recordedIn ((o - 0x3FB000) / 32)) with
          | some t => s.joinStamp me t
          | none => s
        else s
      | _ => s) s

/-- One line of an access performed (R174, R176, R187): its loads take their values, its stores enter the version or reach their home. -/
def State.performLine (s : State) (n : Nat) (x : Access) (key : Nat × Nat) : State :=
  let c := s.coreAt n
  let usesVersion := x.versioned && decide (c.vresLines ≠ 0) && key.1 = 0
  match x.op with
  | .load _ _ _ =>
    let s := s.acquireJoins n x
    let x := { x with parts := s.readLine c true key x.parts }
    let s := s.setCoreAt n ((s.coreAt n).putAccess x)
    if x.keys.isEmpty then s.finishAccess n x else s
  | .queueRow _ _ =>
    let old := x
    let x := { x with parts := s.readLine c true key x.parts }
    let s := (s.setCoreAt n (c.putAccess x)).sendFlits n (slicePos (homeOf (64 * key.2)) (Config.choice s.steps 1026)) old x
    if x.keys.isEmpty && (c.slotOf x.id).isNone then s.finishAccess n x else s
  | .store v =>
    if usesVersion && c.overflows key then s.stopAccess n x .trap ⟨0x08, 0, 0, [], 0⟩
    else
      let (s, ps) := s.writeLine n (handleIndex x.handle) usesVersion key v x.parts
      let x := { x with parts := ps }
      let s := s.setCoreAt n ((s.coreAt n).putAccess x)
      if x.keys.isEmpty then s.finishAccess n x else s
  | .atomic op wide v cmp d signed => s.atomicAt n x op wide v cmp d signed key
  | _ => s

/-- Does the home of a line's metadata, or of the slot that a release writes, hold the check back (R168, R197)? -/
def State.metaHeld (s : State) (v : Viewer) (metaH : BitVec 32) (span : Nat) (rel : Bool) (lines : List (Nat × Option Nat)) : Bool :=
  lines.any fun a => s.homeHolds (0, a.1 / 64) true || (rel && (match s.slotAt v metaH span (Meta.current s.eraNow.toNat (s.homeRead a.1 16)) with
    | .at b _ => s.homeHolds (0, b / 64) true
    | _ => false))

/-- Who makes a cluster's checked access, as Sorrel sees it (R204, R215, R219). -/
def State.clusterAccessor (s : State) (n : Nat) (x : Access) : Accessor :=
  let c := s.coreAt n
  let me := agentId n x.cluster
  let atom := x.op.isAtomic
  { agent := me, ident := me, report := me, own := me, clk := s.clockOf me, scope := x.scope.toNat, write := x.op.isStore,
    acq := x.acq, rel := x.rel, sync := x.acq || x.rel || atom, eng := false, checked := decide (x.mode ≠ 0), precise := true,
    rpt := decide (x.mode = 2), stops := decide (x.mode = 1), acc := x.code, handle := x.handle, coord := x.coord, pc := x.pc,
    ctx := c.ctx.ctx, launch := c.cr.launch, ring := c.ctx.rring }

/-- An access that Sorrel does not check after all (R211): counted once, and a release's missing snapshot too. -/
def State.goUnchecked (s : State) (n : Nat) (x : Access) : State :=
  let ring := (s.coreAt n).ctx.rring
  let s := if x.mode ≠ 0 then s.bumpRing ring 12 else s
  let s := if x.rel then s.bumpRing ring 20 else s
  s.setCoreAt n ((s.coreAt n).putAccess { x with checked := false, phase := .issued })

/-- The check of an access when it reaches its home (R210 to R212). -/
def State.checkAccess (s : State) (n : Nat) (x : Access) : State :=
  let v := s.viewer n
  match s.planCheck v x.metaH x.span x.rel (linesOf x.parts) with
  | .unchecked => s.goUnchecked n x
  | .wait =>
    if x.phase = .waiting then s
    else (s.setCoreAt n ((s.coreAt n).putAccess { x with phase := .waiting, since := s.dcc })).signalUnit v x.metaH
  | .go lines =>
    if s.metaHeld v x.metaH x.span x.rel lines then s else
    let k := s.clusterAccessor n x
    let (s, vec, race) := s.checkLines k v x.metaH x.span (s.vectorOf k.agent) lines
    let s := if x.acq then s.setVector k.agent vec else s
    match race with
    | some tv =>
      if k.stops then s.stopAccess n x .trap ⟨0x18, 0, tv, x.coord, 0⟩
      else s.setCoreAt n ((s.coreAt n).putAccess { x with checked := false, phase := .issued })
    | none => s.setCoreAt n ((s.coreAt n).putAccess { x with checked := false, phase := .issued })

/-- The first line of an access with another node, where nothing local is left. -/
def Access.nextKey (x : Access) (pick : Nat) : Option (Nat × Nat) :=
  let here := x.keys.filter fun k => decide (k.1 < 2)
  if here.isEmpty then x.keys.head? else here[pick % here.length]?

/-- Does an array of a core wait with a checked read (R211), so that no later access of cluster M is made (R219)? -/
def Core.arrayWaits (c : Core) : Bool := [c.arrayX, c.arrayY].any fun a =>
  (match a.pend with
   | some p => p.waiting
   | none => false) || a.ops.any fun o => !o.isDrain && o.waiting

/-- An access that a failed die bridge parts from its home (R313): a drain's names its array (R425). -/
def State.accessCut (s : State) (n : Nat) (x : Access) : State :=
  let s := s.setCoreAt n (((s.coreAt n).freeSlot x.id).dropAccess x.id)
  if x.code = 9 then s.uncorrectableAt n x.unit 0 true ⟨0x1A, 0, 6, x.coord, 0⟩ else s.uncorrectable n 6

/-- Does a failed die bridge part core `n` from a slot's notify register, which its slot's die holds (R69, R313)? -/
def State.slotCut (s : State) (n : Nat) : Option Nat → Bool
  | some k => s.bridgeFailed && decide (k / 64 ≠ dieOf n)
  | none => false

/-- Has an image's row elements of this device that are yet to be found: they stand as of the device's own node (R304)? -/
def Access.unplaced (x : Access) (own : Nat) : Bool := x.parts.any fun p => match p.place with
  | .remote g _ => decide (g = own) && x.before.isNone && x.op.isRow
  | _ => false

/-- The elements of an image's row found where they are now (R261, R304). -/
def State.placeParts (s : State) (v : Viewer) (r : ObjRec) (h : BitVec 32) : List Part → Except Hold (List Part)
  | [] => .ok []
  | p :: ps => do
    let rest ← s.placeParts v r h ps
    match p.place with
    | .remote g off =>
      if g = s.node.toNat then
        let (q, ru) ← s.placeOf v r h 7 [] off false
        .ok ({ p with place := q, ru := ru } :: rest)
      else .ok (p :: rest)
    | _ => .ok (p :: rest)

/-- The request of an image's row made again (R261, R304): its handle is looked up and its elements found. A unit that is not present stops the task
restartably, anything else that fails traps it (R155; log 87). -/
def State.placeRow (s : State) (n : Nat) (x : Access) : State :=
  let v := s.viewer n
  let found := do
    let r ← s.lookup v x.handle 7
    let ps ← s.placeParts v r x.handle x.parts
    pure (r, ps)
  match found with
  | .ok (r, ps) =>
    s.setCoreAt n ((s.coreAt n).putAccess
      { x with parts := ps, metaH := r.metaH, span := r.span, checked := r.rc && decide (x.mode ≠ 0) && !(linesOf ps).isEmpty })
  | .error (.trap t) => s.stopAccess n x .trap t
  | .error (.fault t) => s.stopAccess n x .fault t
  | .error _ => s

/-- One step of an access of core `n`: its check, or one of its lines performed, or a remote line or arrival sent. A drain's row or an image's that
met a restartable fault waits for the resumption; while the task is being saved it tries again, since the save waits for it (R301; log 11). -/
def State.stepAccess (s : State) (n : Nat) (x : Access) : State :=
  if x.phase = .sent ∨ (x.phase = .waiting ∧ !x.checked ∧ (s.coreAt n).save.isNone) then s
  else if x.unplaced s.node.toNat then s.placeRow n x
  else if x.checked then (if s.eraDue then s else s.checkAccess n x)
  else
    match x.op with
    | .notify slot v =>
      if s.slotCut n slot then s.accessCut n x
      else (match slot with
        | some k => s.notify k v
        | none => s.count keyNotifyDrop).finishAccess n x
    | .arrive _ _ _ _ (some node) => (s.sendAccess n x (node.toNat, 0))
    | .arrive _ _ _ _ none => s
    | _ =>
      match x.nextKey (Config.pick (8 * s.steps + 1)) with
      | none => if ((s.coreAt n).slotOf x.id).isSome then s else s.finishAccess n x
      | some key =>
        if s.homeHoldsFor (some (n, x.id)) key x.op.isStore then (if x.op.isStore then s.noteHeld (n, x.id) key else s)
        else if key.1 = 0 ∧ s.cutOff n (64 * key.2) then s.accessCut n x
        else if key.1 < 2 then s.performLine n x key
        else
          match x.remoteGroup with
          | some g => s.sendAccess n x g
          | none => s

/-- METADATA_WAIT_TIMEOUT (R211): after 10 ms the access is performed unchecked. -/
def execMetadataWaitTimeout (core id : Nat) (s : State) : Host.Outcome State Fault Refusal :=
  .next (match (s.coreAt core).findAccess id with
    | none => s
    | some x => if x.phase = .waiting ∧ x.checked ∧ x.since + 10000000 ≤ s.dcc then s.goUnchecked core x else s)

/-- A flit taken in by a core (R261): it fills the slot that waits for it, and when the mask is full the reply is written. One that no slot waits for is
discarded. -/
def State.takeFlit (s : State) (core : Nat) (f : Flit) : State :=
  let c := s.coreAt core
  match c.slots.cells.find? fun e => e.2.msg = f.msg, c.findAccess f.msg with
  | some (k, sl), some x =>
    let sl := { sl with mask := sl.mask ||| (1 <<< f.index), data := sl.data.put f.index f.data }
    let s := s.setCoreAt core { c with slots := c.slots.put k sl }
    if sl.mask = 0xFF then (s.setCoreAt core ((s.coreAt core).freeSlot f.msg)).finishAccess core x else s
  | _, _ => s

/-- FLIT_DELIVERY (R259, R261): a flit that Chervil has brought to a core's attachment, with its data, is accepted. -/
def execFlitDelivery (core msg : Nat) (flit : BitVec 3) (data : BitVec 512) (s : State) : Host.Outcome State Fault Refusal :=
  .next (match s.deliveredFlit core msg flit.toNat with
    | none => s
    | some f => if f.data = data then { s with flits := s.flits.erase f }.takeFlit core f else s)

/-- PRODUCER_RESULT_WRITTEN (R92): a pending producer's result, once known, is written full. -/
def execProducerResultWritten (core : Nat) (d : BitVec 5) (s : State) : Host.Outcome State Fault Refusal :=
  .next (match ((s.coreAt core).reg d).pending with
    | some ⟨k, _, some v⟩ =>
      let c := (s.coreAt core).change s.dcc k d v true
      s.setCoreAt core { c with scal := c.scal.put d.toNat { c.reg d with pending := none } }
    | _ => s)

end Sys2Proof.Machine
end

