-- ==== Sys2Proof/Machine/Flags.lean ====
section
/-!
DEFINITION. The conditions that write predicates (R360, R386, R441) and the sticky status bits of MSTAT (R112): the machine keeps no other
flags (R119, R375).
-/

namespace Sys2Proof.Machine

/-- Holds(code, x, y): the conditions of R360 on 64-bit values; the codes 10 to 15 are unassigned and hold never. -/
def holds (code : Nat) (x y : DWord) : Bool :=
  match code with
  | 0 => x = y
  | 1 => x ≠ y
  | 2 => x.slt y
  | 3 => !x.slt y
  | 4 => !y.slt x
  | 5 => y.slt x
  | 6 => x.ult y
  | 7 => !x.ult y
  | 8 => !y.ult x
  | 9 => y.ult x
  | _ => false

/-- The operand of a comparison: all of it, or its low 32 bits as a signed or a natural number by the code (R386). -/
def cmpOperand (w : Bool) (code : Nat) (x : DWord) : DWord :=
  if w then (if code < 6 then (x.extractLsb' 0 32).signExtend 64 else (x.extractLsb' 0 32).setWidth 64) else x

/-- The operations of PSET (R355, R441): AND, OR, XOR, ANDN, ORN, XNOR, set, clear. -/
def predOp (o : Nat) (a b : Bool) : Bool :=
  match o with
  | 0 => a && b
  | 1 => a || b
  | 2 => a != b
  | 3 => a && !b
  | 4 => a || !b
  | 5 => a == b
  | 6 => true
  | _ => false

/-- MSTAT with IOVF set where `v` (R112, R142). -/
def mstatIovf (m : DWord) (v : Bool) : DWord := if v then m ||| 1 else m

/-- MSTAT with DSAT set where `v` (R112, R143). -/
def mstatDsat (m : DWord) (v : Bool) : DWord := if v then m ||| 2 else m

/-- Bit AKIND of an accumulator (R112). -/
def mstatKind (m : DWord) (n : Nat) : Bool := m.getLsbD (48 + n)

/-- MSTAT with an accumulator's AKIND bit (R112, R226). -/
def mstatSetKind (m : DWord) (n : Nat) (v : Bool) : DWord :=
  let b : DWord := 1 <<< (48 + n)
  if v then m ||| b else m &&& ~~~b

end Sys2Proof.Machine
end

