-- ==== Sys2Proof/Machine/Operands.lean ====
section
/-!
DEFINITION. The operand forms of core words (R353 to R356) and the shapes of the plain scalar instructions: sources in their modes, one
destination, one result.
-/

namespace Sys2Proof.Machine

/-- A signed 13-bit immediate as a doubleword (R354). -/
def simm13 (i : BitVec 13) : DWord := i.signExtend 64

/-- The byte distance of a signed word offset (R354). -/
def wordOffset {n : Nat} (o : BitVec n) : Int := 4 * o.toInt

/-- The result of an operation with a W form: its low 32 bits sign-extended, or all 64 (R355). -/
def narrow (w : Bool) (v : DWord) : DWord := if w then (v.extractLsb' 0 32).signExtend 64 else v

/-- An RR word with two sources and a scalar result (R353, R354). -/
def planRR (d a b : BitVec 5) (m n : Bool) (f : DWord → DWord → DWord) (s : State) : Except Hold State := do
  let x ← s.src a m
  let y ← s.src b n
  s.aluDest d
  .ok ((s.putScal d (f x y)).retire)

/-- An RI word with one source, an immediate and a scalar result; the source takes the mode of FEMODE.DEF (R354). -/
def planRI (d a : BitVec 5) (f : DWord → DWord) (s : State) : Except Hold State := do
  let x ← s.srcDef a
  s.aluDest d
  .ok ((s.putScal d (f x)).retire)

/-- A word that only writes a scalar. -/
def planSet (d : BitVec 5) (f : State → DWord) (s : State) : Except Hold State := do
  s.aluDest d
  .ok ((s.putScal d (f s)).retire)

/-- An RI compare: a predicate from a source and a sign-extended immediate (R386). -/
def planCmpI (code : Nat) (p : BitVec 3) (a : BitVec 5) (i : BitVec 13) (s : State) : Except Hold State := do
  let x ← s.srcDef a
  .ok ((s.putPred p (holds code x (simm13 i))).retire)

end Sys2Proof.Machine
end

