-- ==== Sys2Proof/Machine/Tasks.lean ====
section
/-!
DEFINITION. Continuation records and join counters (R32, R45 to R54, R83), commits of the version (R187) and commit points (R49 to R51).
-/

namespace Sys2Proof.Machine

/-- The coding of a continuation record's state (R83). -/
def CrState.code : CrState → Nat
  | .pending => 0
  | .ready => 1
  | .running => 2
  | .suspended => 3
  | .ended => 4

/-- The state a code stands for (R83); 5 to 7 are never written. -/
def CrState.ofCode (n : Nat) : CrState :=
  match n with
  | 0 => .pending
  | 1 => .ready
  | 2 => .running
  | 3 => .suspended
  | _ => .ended

/-- The 512 bits of a continuation record (R83). -/
def Cr.bits (c : Cr) : BitVec 512 :=
  c.ready ++ 0#13 ++ c.dscope ++ c.qnum ++ c.launch ++ c.idx ++ c.inst ++ 0#4 ++ BitVec.ofNat 3 c.state.code ++ c.domain ++ c.prio ++
    BitVec.ofBool c.pkind ++ c.joinc ++ 0#16 ++ c.poff ++ c.ph ++ c.foff ++ c.fh ++ c.coff ++ c.ch

/-- The fields of a continuation record (R83). -/
def Cr.ofBits (w : BitVec 512) : Cr where
  ready := w.extractLsb' 448 64
  dscope := w.extractLsb' 432 3
  qnum := w.extractLsb' 416 16
  launch := w.extractLsb' 384 32
  idx := w.extractLsb' 256 128
  inst := w.extractLsb' 240 16
  state := .ofCode (w.extractLsb' 233 3).toNat
  domain := w.extractLsb' 230 3
  prio := w.extractLsb' 225 5
  pkind := w.getLsbD 224
  joinc := w.extractLsb' 208 16
  poff := w.extractLsb' 160 32
  ph := w.extractLsb' 128 32
  foff := w.extractLsb' 96 32
  fh := w.extractLsb' 64 32
  coff := w.extractLsb' 32 32
  ch := w.extractLsb' 0 32

/-- The reserved bits of a continuation record (R83), which the device neither reads nor writes (R7). -/
def crReserved : BitVec 512 := 0#64 ++ 0x1FFF#13 ++ 0#195 ++ 0xF#4 ++ 0#28 ++ 0xFFFF#16 ++ 0#192

/-- The bits `new` with those of `mask` as they were. -/
def keepingBits {w : Nat} (mask old new : BitVec w) : BitVec w := (new &&& ~~~mask) ||| (old &&& mask)

/-- The launch of a key. -/
def State.launch (s : State) (k : Nat) : Option Launch := s.launches.find k

/-- The state with a launch replaced. -/
def State.setLaunch (s : State) (k : Nat) (l : Launch) : State := { s with launches := s.launches.put k l }

/-- The launch in flight that a record of a context names (R83). -/
def State.findLaunch (s : State) (ctx qnum : BitVec 16) (id : BitVec 32) : Option Nat :=
  (s.launches.cells.find? fun e => e.2.ctx = ctx && e.2.qnum = qnum && e.2.record.extractLsb' 32 32 = id).map Prod.fst

/-- A count of a level-0 group of a launch changed (R313): 0 its tasks not Ended, 1 its tasks started, 2 its tasks trapped, 3 whether it is
discarded. -/
def Launch.bump (l : Launch) (group kind : Nat) (d : Int) : Launch :=
  let k := 4 * group + kind
  { l with level0 := l.level0.set 0 k (((l.level0.get 0 k : Nat) : Int) + d).toNat }

/-- The level-0 group of a record. -/
def Cr.group (c : Cr) : Nat := (c.idx.extractLsb' 0 16).toNat

/-- The key of a queue: its context and its number there (R67). -/
def queueKey (ctx qnum : BitVec 16) : Nat := ctx.toNat * 65536 + qnum.toNat

/-- The slot a queue is mapped to (R68). -/
def State.slotOf (s : State) (ctx qnum : BitVec 16) : Option Nat :=
  (s.queues.cells.find? fun e => e.2.state ≠ .free && e.2.ctx = ctx && e.2.qnum = qnum).map Prod.fst

/-- A queue's count of CRs not Ended (R71). -/
def State.liveOf (s : State) (ctx qnum : BitVec 16) : Nat := s.live.get 0 (queueKey ctx qnum)

/-- LIVE changed; while the queue is not mapped the descriptor shows it (R67, R70, R71). -/
def State.setLive (s : State) (ctx qnum : BitVec 16) (n : Nat) : State :=
  let s := { s with live := s.live.set 0 (queueKey ctx qnum) n }
  match s.slotOf ctx qnum, s.queueDescs.find (queueKey ctx qnum) with
  | none, some a => s.homeWrite (a + 44) 2 n
  | _, _ => s

/-- A record that is Ended, by DONE or by a trap, counted in its queue and its launch (R45, R71, R87, R313). -/
def State.countEnd (s : State) (ctx : BitVec 16) (key : Nat) (cr : Cr) (trapped : Bool) : State :=
  let s := s.setLive ctx cr.qnum (s.liveOf ctx cr.qnum - 1)
  match s.launch key with
  | none => s
  | some l =>
    let l := (l.bump cr.group 0 (-1)).bump cr.group 2 (if trapped then 1 else 0)
    s.setLaunch key
      { l with
        alive := l.alive - 1
        endedDone := l.endedDone + (if trapped then 0 else 1)
        trapped := l.trapped + (if trapped then 1 else 0) }

/-- READYN of a queue (R67): of its slot while mapped, else of its descriptor. -/
def State.readyN (s : State) (ctx qnum : BitVec 16) : Nat :=
  match s.slotOf ctx qnum, s.queueDescs.find (queueKey ctx qnum) with
  | some k, _ => (s.queue k).readyn
  | none, some a => s.homeRead (a + 16) 2
  | none, none => 0

/-- The root of a context's object table (R317). -/
def State.rootOf (s : State) (ctx : BitVec 16) : DWord := (s.contexts.get 0 ctx.toNat).extractLsb' 128 64

/-- The scheduler's view of a context's objects: from the tables, through no core's caches. -/
def State.schedViewer (s : State) (ctx : BitVec 16) : Viewer := ⟨0, false, s.rootOf ctx, none⟩

/-- Where a slot in an object is: its device address, with its residency entry, or its offset in core `n`'s scratchpad; or why it cannot be reached: its
record, generation and permission are checked as for every access (R154). The slot's offset is a linear byte index (R369, R412). A slot whose bytes another node holds, which no packet of R266 could count at, stops with HPERM
(DESIGN CHOICE, log 56). -/
def State.slotHome (s : State) (v : Viewer) (h : BitVec 32) (x : Nat) : Except Hold (Place × Option Nat) := do
  let r ← s.lookupAt v h 1 x
  match s.placeOf v r h 1 (r.linear x) (r.linearBit x / 8) false with
  | .ok (.remote _ _, _) => withCoords (r.linear x) (.error (xlateTrap 0x14 h 0 1))
  | .ok p => .ok p
  | .error e => .error e

/-- `len` bytes at a place, as a number. -/
def State.placeRead (s : State) (n : Nat) (len : Nat) : Place → Nat
  | .device a => s.homeRead a len
  | .scratch o => (s.coreAt n).scratch.read o len
  | _ => 0

/-- `len` bytes written at a place. -/
def State.placeWrite (s : State) (n : Nat) (len v : Nat) : Place → State
  | .device a => s.homeWrite a len v
  | .scratch o => s.setCoreAt n { s.coreAt n with scratch := (s.coreAt n).scratch.write o len v }
  | _ => s

/-- The record in a CR slot, as core `n`'s task reaches it, with where it stands. -/
def State.readSlotCr (s : State) (n : Nat) (h off : BitVec 32) : Except Hold ((Place × Option Nat) × Cr) :=
  match s.slotHome (s.viewer n) h off.toNat with
  | .ok p => .ok (p, Cr.ofBits (BitVec.ofNat 512 (s.placeRead n 64 p.1)))
  | .error e => .error e

/-- A record written at its place, DIRTY set before where its object is resident (R166); the reserved bits stay (R7). -/
def State.putCr (s : State) (n : Nat) (p : Place × Option Nat) (cr : Cr) : State :=
  let s := match p.2 with
    | some a => s.setDirty a
    | none => s
  s.placeWrite n 64 (keepingBits crReserved (BitVec.ofNat 512 (s.placeRead n 64 p.1)) cr.bits).toNat p.1

/-- The parent link a CR names (R32). -/
def Cr.parent (c : Cr) : HoldRef := ⟨c.ph, c.poff, c.pkind⟩

/-- Is the task's JOIN still held (R49)? -/
def Core.joinHeld (c : Core) : Bool := c.spawn.any HeldEntry.isJoin

/-- The counter the task holds (R52, R54): its open continuation's once that has been written, else its parent's. -/
def Core.holding (c : Core) : HoldRef :=
  match c.openJoin with
  | some h => if c.joinHeld then c.cr.parent else h
  | none => c.cr.parent

/-- The global number of a core's own unit of a domain (R48, R83). -/
def unitOf (core : Nat) (domain : BitVec 3) : BitVec 16 :=
  match domain.toNat with
  | 1 => BitVec.ofNat 16 core
  | 2 => BitVec.ofNat 16 (quadOf core)
  | 3 => BitVec.ofNat 16 (dieOf core)
  | _ => 0

/-- READYH of a queue (R67). -/
def State.readyH (s : State) (ctx qnum : BitVec 16) : BitVec 32 :=
  match s.slotOf ctx qnum, s.queueDescs.find (queueKey ctx qnum) with
  | some k, _ => (s.queue k).readyh
  | none, some a => BitVec.ofNat 32 (s.homeRead (a + 20) 4)
  | none, none => 0

/-- The lowest slot of a queue's ready area that none of its Ready records has. -/
def State.freeReadySlot (s : State) (ctx qnum : BitVec 16) : Nat :=
  let used := (s.ready.filter fun r => r.ctx = ctx && r.cr.qnum = qnum).map ReadyCr.slot
  ((List.range (used.length + 1)).find? fun i => !used.contains i).getD 0

/-- Where byte offset `off` of an object of a context is in device memory, with its residency entry. -/
def State.schedHome (s : State) (ctx : BitVec 16) (h : BitVec 32) (off : Nat) : Option (Nat × Option Nat) :=
  let w := s.schedViewer ctx
  match s.placeOf w (s.record w (handleIndex h)) h 1 [] off false with
  | .ok (.device a, ru) => some (a, ru)
  | _ => none

/-- A value of `n` bytes written to byte offset `off` of an object of a context, where that lies in device memory; the bits of `mask` stay. -/
def State.schedWrite (s : State) (ctx : BitVec 16) (h : BitVec 32) (off n mask v : Nat) : State :=
  match s.schedHome ctx h off with
  | none => s
  | some (a, ru) =>
    let s := match ru with
      | some u => s.setDirty u
      | none => s
    s.homeWrite a n (keepingBits (BitVec.ofNat (8 * n) mask) (BitVec.ofNat (8 * n) (s.homeRead a n)) (BitVec.ofNat (8 * n) v)).toNat

/-- The value of `n` bytes at byte offset `off` of an object of a context, where that lies in device memory. -/
def State.schedRead (s : State) (ctx : BitVec 16) (h : BitVec 32) (off n : Nat) : Option Nat := (s.schedHome ctx h off).map fun p => s.homeRead p.1 n

/-- A Ready record's slot of the ready area says that it is Ready no longer (R33, R71; log 82). -/
def State.leaveArea (s : State) (r : ReadyCr) (st : CrState) : State :=
  if r.slot < s.readyN r.ctx r.cr.qnum then
    s.schedWrite r.ctx (s.readyH r.ctx r.cr.qnum) (64 * r.slot) 64 crReserved.toNat ({ r.cr with state := st } : Cr).bits.toNat
  else s

/-- A record made Ready now (R33): it is kept in its queue's ready area, with its save reference (R71, R303). Which slot a record takes is not
given (log 12). -/
def State.enqueueReady (s : State) (launch : Nat) (ctx : BitVec 16) (cr : Cr) (gang : Option (Nat × Nat)) (saveRef : DWord)
    (fromExpansion : Bool) (kept : Kept) : State :=
  let cr := { cr with state := .ready, ready := BitVec.ofNat 64 s.dcc }
  let i := s.freeReadySlot ctx cr.qnum
  let n := s.readyN ctx cr.qnum
  let h := s.readyH ctx cr.qnum
  let held := s.ready.any fun r => r.ctx = ctx && r.cr.qnum = cr.qnum
  let s := match s.slotOf ctx cr.qnum with
    | some k => if held then s else s.setQueue k { s.queue k with intervalStart := s.dcc }
    | none => s
  let s := if i < n then (s.schedWrite ctx h (64 * i) 64 crReserved.toNat cr.bits.toNat).schedWrite ctx h (64 * n + 8 * i) 8 (0x1FFF * 2 ^ 50) saveRef.toNat
    else s
  { s with
    ready := s.ready ++ [⟨s.nextKey, launch, cr, ctx, gang, saveRef, fromExpansion, none, i, kept, false⟩]
    nextKey := s.nextKey + 1 }

/-- A record made Ready that starts fresh. -/
def State.makeReady (s : State) (launch : Nat) (ctx : BitVec 16) (cr : Cr) : State := s.enqueueReady launch ctx cr none 0 false .none

/-- The counters that held SPAWN entries increment, each once. -/
def spawnTargets (es : List HeldEntry) : List HoldRef :=
  ((es.filter fun e => !e.isJoin).map fun e => e.cr.parent).eraseDups

/-- The number of held children of a counter. -/
def childrenOf (es : List HeldEntry) (h : HoldRef) : Nat := (es.filter fun e => !e.isJoin && decide (e.cr.parent = h)).length

/-- The value of a counter before the held increments: 1 for a continuation still held (R46, R51). -/
def State.counterOf (s : State) (n : Nat) (es : List HeldEntry) (h : HoldRef) : Nat :=
  if es.any fun e => e.isJoin && e.slotH = h.handle && e.slotO = h.offset then 1
  else match s.readSlotCr n h.handle h.offset with
    | .ok (_, cr) => cr.joinc.toNat
    | .error _ => 0

/-- Would the increments take a join counter above 65,535 (R51)? The launch completion group is no counter. -/
def State.overCounts (s : State) (n : Nat) (es : List HeldEntry) : Bool :=
  (spawnTargets es).any fun h => !h.isGroup && decide (65535 < s.counterOf n es h + childrenOf es h)

/-- A join counter changed in its slot. -/
def State.setCounter (s : State) (n : Nat) (h : HoldRef) (v : Nat) : State :=
  match s.readSlotCr n h.handle h.offset with
  | .ok (p, cr) => s.putCr n p { cr with joinc := BitVec.ofNat 16 v }
  | .error _ => s

/-- The held continuation written to its slot in state Pending (R50 step 1). -/
def State.writeJoin (s : State) (n : Nat) (e : HeldEntry) : State :=
  match s.slotHome (s.viewer n) e.slotH e.slotO.toNat with
  | .ok p => s.putCr n p { e.cr with state := .pending, inst := unitOf n e.cr.domain }
  | .error _ => s

/-- Can a slot be written and counted at now? One in a unit that is not present raises RESID, and the word issues again (DEDUCED, log 56); a home that
holds its line is waited for (R168, R197). -/
def State.slotReached (s : State) (n : Nat) (h off : BitVec 32) : Except Hold Unit :=
  match s.slotHome (s.viewer n) h off.toNat with
  | .ok (.device a, _) => if s.homeHolds (0, a / 64) true then .error plainWait else .ok ()
  | .ok _ => .ok ()
  | .error e => .error e

/-- The slots that held entries write and count at: none may be out of reach when they are applied. -/
def State.slotsReached (s : State) (n : Nat) (es : List HeldEntry) : Except Hold Unit :=
  let slots := (es.filter HeldEntry.isJoin).map (fun e => (e.slotH, e.slotO)) ++
    ((spawnTargets es).filter fun h => !h.isGroup).map fun h => (h.handle, h.offset)
  slots.foldlM (fun _ e => s.slotReached n e.1 e.2) ()

/-- R50 steps 1 to 3: the continuation, the increments, then the children in the order they were spawned. -/
def State.performHeld (s : State) (n : Nat) (es : List HeldEntry) : State :=
  let c := s.coreAt n
  let s := (es.filter HeldEntry.isJoin).foldl (fun s e => s.writeJoin n e) s
  let s := (spawnTargets es).foldl (fun s h =>
    if h.isGroup then s else s.setCounter n h (s.counterOf n [] h + childrenOf es h)) s
  let s := (es.filter fun e => !e.isJoin).foldl (fun s e =>
    s.makeReady c.launchKey c.ctx.ctx { e.cr with inst := unitOf n e.cr.domain }) s
  let s := s.setLive c.ctx.ctx c.cr.qnum (s.liveOf c.ctx.ctx c.cr.qnum + es.length)
  match s.launch c.launchKey with
  | some l => s.setLaunch c.launchKey (({ l with alive := l.alive + es.length } : Launch).bump c.cr.group 0 es.length)
  | none => s

/-- The held entries applied at a commit point (R50, R51, R71), or QFULL, or JCOUNT. -/
def State.applyHeld (s : State) (n : Nat) : Except Hold State :=
  let c := s.coreAt n
  let es := c.spawn
  if es.isEmpty then .ok s
  else if s.readyN c.ctx.ctx c.cr.qnum < s.liveOf c.ctx.ctx c.cr.qnum + es.length then .error (trapOf 0x07)
  else
    match s.slotsReached n es with
    | .error e => .error e
    | .ok _ =>
      if s.overCounts n es then .error (trapOf 0x06)
      else
        let s := s.performHeld n es
        .ok (s.setCoreAt n { s.coreAt n with spawn := [] })

/-- A commit of the version begins (R187): the lines to write are those that have entered it. With VRES = 0 there is none (R188). -/
def State.startCommit (s : State) (n : Nat) : State :=
  let c := s.coreAt n
  if c.vresLines = 0 then s else s.setCoreAt n { c with committing := some c.version, version := .empty }

/-- A commit in progress is complete (R187, R296). -/
def State.endCommit (s : State) (n : Nat) : State :=
  let c := s.coreAt n
  s.setCoreAt n { c with committing := none, commits := c.commits + 1, commitDcc := BitVec.ofNat 64 s.dcc }

/-- The cells of a line. -/
def lineCells (v : Tab VByte) (line : Nat) : List (Nat × VByte) := v.cells.filter fun e => e.1 / 64 = line

/-- VERSION_COMMIT_COMPLETE (R187): one line of the commit, in any order, is performed at its home as one write; after the last the commit
is complete. A line whose home holds it waits. -/
def execVersionCommitComplete (core : Nat) (s : State) : Host.Outcome State Fault Refusal :=
  .next (match (s.coreAt core).committing with
    | none => s
    | some v =>
      let lines := versionLines v
      if lines.isEmpty then s.endCommit core
      else
        let line := lines.getD (Config.pick (8 * s.steps + 2) % lines.length) 0
        if s.homeHolds (0, line) true then s
        else
          let s := s.writeVersion (s.coreAt core).versionRu (lineCells v line)
          let rest := withoutLine v line
          let s := s.setCoreAt core { s.coreAt core with committing := some rest }
          if rest.cells.isEmpty then s.endCommit core else s)

/-- The state with the focused word's stage set: it goes on with its next part. Its wait for its operands, if any, is over, and they are not read again
(R339). -/
def State.atStage (s : State) (k : Nat) : State :=
  let t := s.logWait s.core s.cluster false
  t.setCl { t.cl with
    stage := k
    since := match t.cl.since with
      | some t => some t
      | none => some s.dcc
    waitKind := 0
    waitFrom := s.dcc
    seen := s.reads }

/-- The parts of a word that commits (R49, R187): it waits until its cluster's versioned writes have entered the version, starts the commit,
waits for it, applies the held entries, and then goes on. -/
def State.commitPoint (s : State) (goOn : State → Except Hold State) : Except Hold State :=
  if s.cl.stage = 0 then
    if s.cur.writesQueued s.cluster || s.cur.committing.isSome then .error plainWait
    else .ok ((s.startCommit s.core).atStage 1)
  else if s.cl.stage = 1 then
    if s.cur.committing.isSome then .error plainWait
    else do
      let s ← s.applyHeld s.core
      .ok (s.atStage 2)
  else goOn s

/-- A word that commits first where `needs`, and then goes on. -/
def State.afterCommit (s : State) (needs : Bool) (goOn : State → Except Hold State) : Except Hold State :=
  if needs then s.commitPoint goOn else goOn s

end Sys2Proof.Machine
end

