-- ==== Sys2Proof/Machine/LoadStore.lean ====
section
/-!
DEFINITION. Loads, stores, row reads and writes, MARK and FENCE (R398, R414 to R417, R421, R444 to R448, R458 to R460).
-/

namespace Sys2Proof.Machine

/-- The width in bits of a width code (R414, R458). -/
def widthBits (w : BitVec 2) : Nat := 8 * 2 ^ w.toNat

/-- The handle of a doubleword operand. -/
def handleOf (h : DWord) : BitVec 32 := h.extractLsb' 32 32

/-- The element index of a doubleword operand. -/
def indexOf (h : DWord) : Nat := (h.extractLsb' 0 32).toNat

/-- The alignment rule of an access of `bits` bits from element `x` (R415). -/
def ObjRec.alignedAccess (r : ObjRec) (x bits : Nat) : Bool :=
  decide (r.eb ≤ bits) && decide (r.linearBit x % bits = 0) &&
    (List.range (bits / r.eb)).all fun i => decide (r.linearBit (x + i) = r.linearBit x + i * r.eb)

/-- The coordinates of the elements an access of `bits` bits covers, the first lowest (R415). -/
def ObjRec.elements (r : ObjRec) (x bits : Nat) : List (List Int) := (List.range (bits / r.eb)).map fun i => r.linear (x + i)

/-- The effect of a load (R415) with handle and index operand `h`, index offset `o`. -/
def planLoad (bits : Nat) (signed acq : Bool) (scope : BitVec 3) (d : BitVec 5) (h : DWord) (o : BitVec 32) (s : State) :
    Except Hold State := do
  let x := (indexOf h + o.toNat) % 2 ^ 32
  let r ← s.lookupAt s.here (handleOf h) 0 x
  if !r.alignedAccess x bits then .error (trapOf 0x09) else
  s.destFree d
  let ps ← s.locateAll s.here r (handleOf h) 0 (r.elements x bits)
  s.watchIssue false (r.linear x) ps
  let s := (s.produce d false none).cacheUse s.here (handleOf h) ps
  .ok (s.enqueue r (handleOf h) 0 (r.linear x) (.load d bits signed) ps acq false scope).retire

/-- An LD word. -/
def planLd (w : BitVec 2) (acq : Bool) (d a b : BitVec 5) (m n : Bool) (c : BitVec 3) (x : Bool) (s : State) : Except Hold State := do
  let h ← s.src a m
  let o ← s.src b n
  planLoad (widthBits w) x acq c d h (o.extractLsb' 0 32) s

/-- LD (R415). -/
def execLd (w : BitVec 2) (d a b : BitVec 5) (m n : Bool) (c : BitVec 3) (x : Bool) (s : State) : Host.Outcome State Fault Refusal :=
  runWord (.ld w d a b m n c x) s (planLd w false d a b m n c x)

/-- LD with acquire (R415, R416). -/
def execLdAcq (w : BitVec 2) (d a b : BitVec 5) (m n : Bool) (c : BitVec 3) (x : Bool) (s : State) : Host.Outcome State Fault Refusal :=
  runWord (.ldAcq w d a b m n c x) s (planLd w true d a b m n c x)

/-- An LDO word: plain, at the task's default scope (R414). -/
def planLdo (w : BitVec 2) (x : Bool) (d a : BitVec 5) (i : BitVec 13) (s : State) : Except Hold State := do
  let h ← s.srcDef a
  planLoad (widthBits w) x false s.cur.cr.dscope d h (i.signExtend 32) s

/-- LDO (R415). -/
def execLdo (w : BitVec 2) (d a : BitVec 5) (i : BitVec 13) (s : State) : Host.Outcome State Fault Refusal :=
  runWord (.ldo w d a i) s (planLdo w false d a i)

/-- LDO, sign-extending (R415). -/
def execLdoS (w : BitVec 2) (d a : BitVec 5) (i : BitVec 13) (s : State) : Host.Outcome State Fault Refusal :=
  runWord (.ldoS w d a i) s (planLdo w true d a i)

/-- The slot that a doorbell object leads to now (R69). -/
def State.doorbellSlot (s : State) (h : DWord) : Option Nat := s.doorbells.find (recordAddr s.here.root (handleIndex (handleOf h)))

/-- A doorbell store (R459): a notify write, ordered as a store, to the slot that its object leads to when it is translated (R70). -/
def planNotify (r : ObjRec) (h v : DWord) (rel : Bool) (scope : BitVec 3) (s : State) : Except Hold State :=
  .ok (s.enqueue r (handleOf h) 1 [] (.notify (s.doorbellSlot h) v) [] false rel scope).retire

/-- The effect of a store (R459): its checks, its commit where it is a release of quad scope or wider, and its entry into the queue. -/
def planStore (bits : Nat) (rel : Bool) (scope : BitVec 3) (h v : DWord) (o : BitVec 32) (s : State) : Except Hold State := do
  let x := (indexOf h + o.toNat) % 2 ^ 32
  let r ← s.lookupAt s.here (handleOf h) 1 x
  let commits := rel && decide (2 ≤ scope.toNat)
  if r.kind = 2 then
    if bits ≠ 64 ∨ x % 8 ≠ 0 then .error (.trap (xlateInfo 0x14 (handleOf h) 0 1 0 (r.linear x) 0))
    else s.afterCommit commits (planNotify r h v rel scope)
  else
  if !r.alignedAccess x bits then .error (trapOf 0x09) else
  let ps ← s.locateAll s.here r (handleOf h) 1 (r.elements x bits)
  s.watchIssue true (r.linear x) ps
  s.afterCommit commits fun s =>
    .ok ((s.cacheUse s.here (handleOf h) ps).enqueue r (handleOf h) 1 (r.linear x) (.store v.toNat) ps false rel scope).retire

/-- An ST word (R458). -/
def planSt (w : BitVec 2) (rel : Bool) (d a b : BitVec 5) (m n : Bool) (c : BitVec 3) (s : State) : Except Hold State := do
  let h ← s.src a m
  let o ← s.src b n
  let v ← s.srcDef d
  planStore (widthBits w) rel c h v (o.extractLsb' 0 32) s

/-- ST (R459). -/
def execSt (w : BitVec 2) (d a b : BitVec 5) (m n : Bool) (c : BitVec 3) (s : State) : Host.Outcome State Fault Refusal :=
  runWord (.st w d a b m n c) s (planSt w false d a b m n c)

/-- ST with release (R459). -/
def execStRel (w : BitVec 2) (d a b : BitVec 5) (m n : Bool) (c : BitVec 3) (s : State) : Host.Outcome State Fault Refusal :=
  runWord (.stRel w d a b m n c) s (planSt w true d a b m n c)

/-- An STO word (R458): plain, at the task's default scope. -/
def planSto (bits : Nat) (d a : BitVec 5) (i : BitVec 13) (s : State) : Except Hold State := do
  let h ← s.srcDef a
  let v ← s.srcDef d
  planStore bits false s.cur.cr.dscope h v (i.signExtend 32) s

/-- STO of a byte (R459). -/
def execStoB (d a : BitVec 5) (i : BitVec 13) (s : State) : Host.Outcome State Fault Refusal :=
  runWord (.stoB d a i) s (planSto 8 d a i)

/-- STO of a halfword (R459). -/
def execStoH (d a : BitVec 5) (i : BitVec 13) (s : State) : Host.Outcome State Fault Refusal :=
  runWord (.stoH d a i) s (planSto 16 d a i)

/-- STO of a word (R459). -/
def execStoW (d a : BitVec 5) (i : BitVec 13) (s : State) : Host.Outcome State Fault Refusal :=
  runWord (.stoW d a i) s (planSto 32 d a i)

/-- STO of a doubleword (R459). -/
def execSto (d a : BitVec 5) (i : BitVec 13) (s : State) : Host.Outcome State Fault Refusal :=
  runWord (.sto d a i) s (planSto 64 d a i)

/-- MARK (R421): it enters both queues of cluster A. -/
def execMark (s : State) : Host.Outcome State Fault Refusal :=
  runWord .mark s fun s => .ok (s.enqueueMarker .mark 1).retire

/-- Have the arrays performed what a FENCE of cluster M orders: its operand reads, its drains (R178, R181)? -/
def Core.arraysOrdered (c : Core) (set : BitVec 5) : Bool :=
  !((set.getLsbD 2 || set.getLsbD 3) && c.hasAccesses .M) &&
  [c.arrayX, c.arrayY].all fun y =>
    (!(set.getLsbD 0 || set.getLsbD 1) || (y.pend.isNone && y.ops.all fun o => o.isDrain)) &&
    (!(set.getLsbD 2 || set.getLsbD 3) || y.ops.all fun o => !o.isDrain)

/-- FENCE (R398): it commits where it must, then holds the later accesses of the cluster. Cluster M's accesses are its arrays': it waits for them, and so does
the commit, which is to perform what its earlier drains write. -/
def execFence (e : BitVec 5) (c : BitVec 3) (s : State) : Host.Outcome State Fault Refusal :=
  runWord (.fence e c) s fun s =>
    if s.cluster = .M ∧ !s.cur.arraysOrdered e then .error plainWait
    else
      s.afterCommit ((e.getLsbD 2 || e.getLsbD 3) && decide (2 ≤ c.toNat)) fun s =>
        if s.cluster = .M then .ok s.retire else .ok (s.enqueueMarker (.fence e) c).retire

/-- The rows' bytes of a QRD or QWR width code (R444). -/
def rowBytes (w : BitVec 2) : Nat := 64 * 2 ^ w.toNat

/-- The coordinates of row `r` of a QRD or QWR (R445). -/
def rowCoords (eb rb : Nat) (h v : DWord) (r : Nat) : List (List Int) :=
  (List.range (8 * rb / eb)).map fun e =>
    [signed32 (indexOf h) + e, signed32 (v.extractLsb' 0 32).toNat + r, signed32 (v.extractLsb' 32 32).toNat, 0]

/-- The coordinates of the first element of a QRD or QWR (R155, R445). -/
def firstOfRows (h v : DWord) : List Int :=
  [signed32 (indexOf h), signed32 (v.extractLsb' 0 32).toNat, signed32 (v.extractLsb' 32 32).toNat, 0]

/-- The alignment rule of a row, on its in-shape elements (R445). -/
def ObjRec.rowAligned (r : ObjRec) (cs : List (List Int)) : Bool :=
  let offs := (cs.zipIdx.filter fun c => (r.outside c.1).isNone).map fun c => ((r.bitOffset (natCoords c.1) : Int) - c.2 * r.eb)
  match offs with
  | [] => true
  | o :: rest => decide (o % 512 = 0) && rest.all fun p => decide (p = o)

/-- The rows' elements translated, row by row (R445, R158). -/
def State.locateRows (s : State) (r : ObjRec) (h : BitVec 32) (acc : Nat) : List (List (List Int)) → Except Hold (List (List Part))
  | [] => .ok []
  | cs :: rest => do
    let ps ← s.locateAll s.here r h acc cs
    let more ← s.locateRows r h acc rest
    .ok (ps :: more)

/-- The entries a load queue holds or has reserved (R446). -/
def Core.loadqUsed (c : Core) (q : Nat) : Nat := (c.loadq.get [] q).length + (c.loadqTickets.get [] q).length

/-- Does the reply of a row need a reassembly slot: more than 64 bytes, and not only from the scratchpad (R261, R446)? -/
def needsSlot (ps : List Part) : Bool :=
  decide (512 < (ps.map Part.width).foldl (· + ·) 0) && ps.any fun p => match p.place with
    | .device _ => true
    | .remote _ _ => true
    | _ => false

/-- The byte offset of a row's request: that of its first element in shape, less what stands before it (R308, R445). -/
def requestOffset (ps : List Part) : Nat :=
  match ps.zipIdx.find? fun e => match e.1.place with
      | .drop => false
      | _ => decide (e.1.off ≠ 0 ∨ e.2 = 0) with
  | some (p, i) => p.off - i * p.width / 8
  | none => 0

/-- The length of a row's request in bytes (R308). -/
def requestLength (ps : List Part) : Nat := ((ps.map Part.width).foldl (· + ·) 0 + 7) / 8

/-- The node that a row's request goes to: the device's own for a local one (R308). -/
def requestNode (own : Nat) (ps : List Part) : Nat := ((ps.findSome? Part.group).map Prod.fst).getD own

/-- A row's reservation in a load queue and its access (R445, R446). -/
def State.enqueueRow (s : State) (r : ObjRec) (h : BitVec 32) (q : Nat) (coord : List Int) (ps : List Part) (scope : BitVec 3) : State :=
  let c := s.cur
  let s := s.setCur { c with loadqTickets := c.loadqTickets.put q (c.loadqTickets.get [] q ++ [⟨c.nextId, none, h, requestOffset ps, requestLength ps, requestNode s.node.toNat ps, 4 * scope.toNat⟩]) }
  let s := s.enqueue r h 7 coord (.queueRow q c.nextId) ps false false scope
  match s.cur.findAccess c.nextId with
  | some x => if needsSlot ps then s.setCur (s.cur.takeSlot x.id x.knownMask) else s
  | none => s

/-- The coordinate of a row for a report (R217, R296): its first element's. -/
def rowCoord (cs : List (List Int)) : List Int := cs.headD []

/-- Are so many of the 32 reassembly slots free (R261)? -/
def Core.slotsFree (c : Core) (need : Nat) : Bool := decide (c.slots.keys.length + need ≤ 32)

/-- The accesses from number `m` on are one word's (R290). -/
def Core.oneWord (c : Core) (m : Nat) (rows : Option (Nat × List Row)) : Core :=
  { c with accesses := c.accesses.map fun y => if m ≤ y.id then { y with before := y.before.map fun b => { b with word := m, rows := rows } } else y }

/-- QRD (R445): the alignment check, the wait for free entries, every other trap and fault, then the reservation. -/
def execQrd (w : BitVec 2) (q : BitVec 3) (a b : BitVec 5) (m n : Bool) (c : BitVec 3) (k : BitVec 3) (s : State) :
    Host.Outcome State Fault Refusal :=
  runWord (.qrd w q a b m n c k) s fun s => do
    let h ← s.src a m
    let v ← s.src b n
    let r ← withCoords (firstOfRows h v) (s.lookup s.here (handleOf h) 7)
    let rows := (List.range (k.toNat + 1)).map (rowCoords r.eb (rowBytes w) h v)
    if !rows.all r.rowAligned then .error (trapOf 0x09) else
    if 8 < s.cur.loadqUsed q.toNat + (k.toNat + 1) then .error plainWait else
    let ps ← s.locateRows r (handleOf h) 7 rows
    if !s.cur.slotsFree (ps.filter needsSlot).length then .error plainWait else
    s.watchIssue false (rowCoord (rows.headD [])) ps.flatten
    let s := s.cacheUse s.here (handleOf h) ps.flatten
    let t := (rows.zip ps).foldl (fun s e => s.enqueueRow r (handleOf h) q.toNat (rowCoord e.1) e.2 c) s
    .ok (t.setCur (t.cur.oneWord s.cur.nextId none)).retire

/-- QWR (R447): every trap and fault first, then the wait for its entries; each row enters the store queue as one write. -/
def execQwr (w q : BitVec 2) (a b : BitVec 5) (m n : Bool) (c : BitVec 3) (k : BitVec 3) (s : State) :
    Host.Outcome State Fault Refusal :=
  runWord (.qwr w q a b m n c k) s fun s => do
    let h ← s.src a m
    let v ← s.src b n
    let r ← withCoords (firstOfRows h v) (s.lookup s.here (handleOf h) 8)
    if r.kind = 2 then .error (.trap (xlateInfo 0x14 (handleOf h) 0 8 0 (firstOfRows h v) 0)) else
    let rows := (List.range (k.toNat + 1)).map (rowCoords r.eb (rowBytes w) h v)
    if !rows.all r.rowAligned then .error (trapOf 0x09) else
    let ps ← s.locateRows r (handleOf h) 8 rows
    s.watchIssue true (rowCoord (rows.headD [])) ps.flatten
    let es := s.cur.storeq.get [] q.toNat
    if es.length < k.toNat + 1 then .error plainWait else
    let s := s.setCur { s.cur with storeq := s.cur.storeq.put q.toNat (es.drop (k.toNat + 1)) }
    let s := s.cacheUse s.here (handleOf h) ps.flatten
    let t := ((rows.zip ps).zip es).foldl (fun s e =>
      s.enqueue r (handleOf h) 8 (rowCoord e.1.1) (.store e.2.toNat) e.1.2 false false c) s
    .ok (t.setCur (t.cur.oneWord s.cur.nextId (some (q.toNat, es.take (k.toNat + 1))))).retire

end Sys2Proof.Machine
end

