-- ==== Sys2Proof/Machine/Atomics.lean ====
section
/-!
DEFINITION. The atomics (R370 to R374).
-/

namespace Sys2Proof.Machine

/-- Is the old value of an operation returned sign-extended in its 32-bit form (R370)? -/
def signedOld : AtomOp → Bool
  | .add => true
  | .min => true
  | .max => true
  | _ => false

/-- The alignment rule of an atomic (R184, R371, R372): a multiple of its width; of a 64-bit form elements x and x + 1 lie together. -/
def pairAligned : List Part → Bool
  | [p] => decide (p.off % 4 = 0)
  | [p, q] => decide (p.off % 8 = 0) && decide (q.off = p.off + 4)
  | _ => true

/-- An atomic of cluster A (R372); it takes a reassembly slot for its reply (R261). -/
def planAtomic (op : AtomOp) (wide : Bool) (d a b : BitVec 5) (m n : Bool) (c : BitVec 3) (q : BitVec 2) (ret : Bool) (s : State) :
    Except Hold State := do
  let h ← s.src a m
  let v ← s.src b n
  let x := indexOf h
  let r ← s.lookupAt s.here (handleOf h) 2 x
  let p ← s.locate s.here r (handleOf h) 2 (r.linear x) false
  if r.eb ≠ 32 then .error (trapOf 0x09) else
  let ps ← s.locateAll s.here r (handleOf h) 2 (if wide then [r.linear (x + 1)] else [])
  let ps := p :: ps
  if !pairAligned ps then .error (trapOf 0x09) else
  let cmp ← (if op = .cas then s.srcDef d else .ok 0)
  if ret then s.destFree d else .ok ()
  if !s.cur.slotsFree 1 then .error plainWait else
  s.watchIssue true (r.linear x) ps
  let acq := q.getLsbD 0
  let rel := q.getLsbD 1
  s.afterCommit (rel && decide (2 ≤ c.toNat)) fun s =>
    let s := (if ret then s.produce d false none else s).cacheUse s.here (handleOf h) ps
    let id := s.cur.nextId
    let s := s.enqueue r (handleOf h) 2 (r.linear x)
      (.atomic op wide v cmp (if ret then some d else none) (signedOld op && !wide)) ps acq rel c
    .ok (s.setCur (s.cur.takeSlot id 0)).retire

/-- AADD.W (R372). -/
def execAaddW (d a b : BitVec 5) (m n : Bool) (c : BitVec 3) (q : BitVec 2) (r : Bool) (s : State) :
    Host.Outcome State Fault Refusal :=
  runWord (.aaddW d a b m n c q r) s (planAtomic .add false d a b m n c q r)

/-- AADD (R372). -/
def execAadd (d a b : BitVec 5) (m n : Bool) (c : BitVec 3) (q : BitVec 2) (r : Bool) (s : State) :
    Host.Outcome State Fault Refusal :=
  runWord (.aadd d a b m n c q r) s (planAtomic .add true d a b m n c q r)

/-- AFADD (R372). -/
def execAfadd (d a b : BitVec 5) (m n : Bool) (c : BitVec 3) (q : BitVec 2) (r : Bool) (s : State) :
    Host.Outcome State Fault Refusal :=
  runWord (.afadd d a b m n c q r) s (planAtomic .fadd false d a b m n c q r)

/-- AAND.W (R372). -/
def execAandW (d a b : BitVec 5) (m n : Bool) (c : BitVec 3) (q : BitVec 2) (r : Bool) (s : State) :
    Host.Outcome State Fault Refusal :=
  runWord (.aandW d a b m n c q r) s (planAtomic .and false d a b m n c q r)

/-- AAND (R372). -/
def execAand (d a b : BitVec 5) (m n : Bool) (c : BitVec 3) (q : BitVec 2) (r : Bool) (s : State) :
    Host.Outcome State Fault Refusal :=
  runWord (.aand d a b m n c q r) s (planAtomic .and true d a b m n c q r)

/-- AOR.W (R372). -/
def execAorW (d a b : BitVec 5) (m n : Bool) (c : BitVec 3) (q : BitVec 2) (r : Bool) (s : State) :
    Host.Outcome State Fault Refusal :=
  runWord (.aorW d a b m n c q r) s (planAtomic .or false d a b m n c q r)

/-- AOR (R372). -/
def execAor (d a b : BitVec 5) (m n : Bool) (c : BitVec 3) (q : BitVec 2) (r : Bool) (s : State) :
    Host.Outcome State Fault Refusal :=
  runWord (.aor d a b m n c q r) s (planAtomic .or true d a b m n c q r)

/-- AXOR.W (R372). -/
def execAxorW (d a b : BitVec 5) (m n : Bool) (c : BitVec 3) (q : BitVec 2) (r : Bool) (s : State) :
    Host.Outcome State Fault Refusal :=
  runWord (.axorW d a b m n c q r) s (planAtomic .xor false d a b m n c q r)

/-- AXOR (R372). -/
def execAxor (d a b : BitVec 5) (m n : Bool) (c : BitVec 3) (q : BitVec 2) (r : Bool) (s : State) :
    Host.Outcome State Fault Refusal :=
  runWord (.axor d a b m n c q r) s (planAtomic .xor true d a b m n c q r)

/-- AMIN.W (R372). -/
def execAminW (d a b : BitVec 5) (m n : Bool) (c : BitVec 3) (q : BitVec 2) (r : Bool) (s : State) :
    Host.Outcome State Fault Refusal :=
  runWord (.aminW d a b m n c q r) s (planAtomic .min false d a b m n c q r)

/-- AMIN (R372). -/
def execAmin (d a b : BitVec 5) (m n : Bool) (c : BitVec 3) (q : BitVec 2) (r : Bool) (s : State) :
    Host.Outcome State Fault Refusal :=
  runWord (.amin d a b m n c q r) s (planAtomic .min true d a b m n c q r)

/-- AMINU.W (R372). -/
def execAminuW (d a b : BitVec 5) (m n : Bool) (c : BitVec 3) (q : BitVec 2) (r : Bool) (s : State) :
    Host.Outcome State Fault Refusal :=
  runWord (.aminuW d a b m n c q r) s (planAtomic .minu false d a b m n c q r)

/-- AMINU (R372). -/
def execAminu (d a b : BitVec 5) (m n : Bool) (c : BitVec 3) (q : BitVec 2) (r : Bool) (s : State) :
    Host.Outcome State Fault Refusal :=
  runWord (.aminu d a b m n c q r) s (planAtomic .minu true d a b m n c q r)

/-- AMAX.W (R372). -/
def execAmaxW (d a b : BitVec 5) (m n : Bool) (c : BitVec 3) (q : BitVec 2) (r : Bool) (s : State) :
    Host.Outcome State Fault Refusal :=
  runWord (.amaxW d a b m n c q r) s (planAtomic .max false d a b m n c q r)

/-- AMAX (R372). -/
def execAmax (d a b : BitVec 5) (m n : Bool) (c : BitVec 3) (q : BitVec 2) (r : Bool) (s : State) :
    Host.Outcome State Fault Refusal :=
  runWord (.amax d a b m n c q r) s (planAtomic .max true d a b m n c q r)

/-- AMAXU.W (R372). -/
def execAmaxuW (d a b : BitVec 5) (m n : Bool) (c : BitVec 3) (q : BitVec 2) (r : Bool) (s : State) :
    Host.Outcome State Fault Refusal :=
  runWord (.amaxuW d a b m n c q r) s (planAtomic .maxu false d a b m n c q r)

/-- AMAXU (R372). -/
def execAmaxu (d a b : BitVec 5) (m n : Bool) (c : BitVec 3) (q : BitVec 2) (r : Bool) (s : State) :
    Host.Outcome State Fault Refusal :=
  runWord (.amaxu d a b m n c q r) s (planAtomic .maxu true d a b m n c q r)

/-- AXCHG.W (R372). -/
def execAxchgW (d a b : BitVec 5) (m n : Bool) (c : BitVec 3) (q : BitVec 2) (r : Bool) (s : State) :
    Host.Outcome State Fault Refusal :=
  runWord (.axchgW d a b m n c q r) s (planAtomic .xchg false d a b m n c q r)

/-- AXCHG (R372). -/
def execAxchg (d a b : BitVec 5) (m n : Bool) (c : BitVec 3) (q : BitVec 2) (r : Bool) (s : State) :
    Host.Outcome State Fault Refusal :=
  runWord (.axchg d a b m n c q r) s (planAtomic .xchg true d a b m n c q r)

/-- ACAS.W (R372). -/
def execAcasW (d a b : BitVec 5) (m n : Bool) (c : BitVec 3) (q : BitVec 2) (r : Bool) (s : State) :
    Host.Outcome State Fault Refusal :=
  runWord (.acasW d a b m n c q r) s (planAtomic .cas false d a b m n c q r)

/-- ACAS (R372). -/
def execAcas (d a b : BitVec 5) (m n : Bool) (c : BitVec 3) (q : BitVec 2) (r : Bool) (s : State) :
    Host.Outcome State Fault Refusal :=
  runWord (.acas d a b m n c q r) s (planAtomic .cas true d a b m n c q r)

end Sys2Proof.Machine
end

