-- ==== Sys2Proof/Machine/Barriers.lean ====
section
/-!
DEFINITION. Barriers (R203, R378 to R383): arrivals, rounds, and BSET, BARV, BWAIT, BSYNC, BSTAT and BRARV.
-/

namespace Sys2Proof.Machine

/-- Rounds completed while ARR has reached EXP (R379): at most two, since ARRN then is 0. The clocks of a completed round's arrivals join those
of the rounds before (R203). -/
def Barrier.complete : Nat → Barrier → Barrier
  | 0, b => b
  | n + 1, b =>
    if b.exp ≠ 0 ∧ b.arr = b.exp then
      Barrier.complete n
        { b with
          compl := b.compl + 1
          arr := b.arrn
          arrn := 0
          joined := joinVectors b.joined b.clocks.cells
          clocks := b.clocksN
          clocksN := .empty }
    else b

/-- The arrivals one round may count (R379). -/
def Barrier.limit (b : Barrier) : BitVec 16 := if b.exp = 0 then 65535 else b.exp

/-- One arrival applied to a barrier, with the arriving agent and its vector clock; whether it was counted (R379). -/
def Barrier.arrive (b : Barrier) (r : BitVec 32) (agent : BitVec 9) (v : Tab Nat) : Barrier × Bool :=
  if r = b.compl ∧ b.arr < b.limit then
    (({ b with arr := b.arr + 1, clocks := joinVectors b.clocks v.cells, last := agent } : Barrier).complete 3, true)
  else if r = b.compl + 1 ∧ b.arrn < b.limit then
    (({ b with arrn := b.arrn + 1, clocksN := joinVectors b.clocksN v.cells, last := agent } : Barrier).complete 3, true)
  else ({ b with err := true, drop := b.drop + 1 }, false)

/-- Barrier `i` of a core. -/
def Core.barrier (c : Core) (i : BitVec 4) : Barrier := c.barriers.get .start i.toNat

/-- The core with barrier `i` replaced. -/
def Core.setBarrier (c : Core) (i : BitVec 4) (b : Barrier) : Core := { c with barriers := c.barriers.put i.toNat b }

/-- Is a core fenced (R27)? -/
def State.fenced (s : State) (core : Nat) : Bool := s.cfence.getLsbD core

/-- An arrival that reaches core `n` (R379): discarded where the core is fenced or idle or runs another launch's task, else applied; whether
the barrier counted it. -/
def State.arriveAt (s : State) (n : Nat) (bar : BitVec 4) (r : BitVec 32) (launch : Option (BitVec 32)) (agent : BitVec 9)
    (v : Tab Nat) : State × Bool :=
  let c := s.coreAt n
  let stranger := match launch with
    | some l => decide (l ≠ c.cr.launch)
    | none => false
  if s.fenced n || !c.busy || stranger then (s.count keyArrivalDrop, false)
  else
    let (b, counted) := (c.barrier bar).arrive r agent v
    (s.setCoreAt n (c.setBarrier bar b), counted)

/-- An arrival from another node (R202, R379, R382): the port group performs its release. -/
def State.remoteArrival (s : State) (port core : Nat) (bar : BitVec 4) (r launch : BitVec 32) : State :=
  ((s.arriveAt core bar r (some launch) (BitVec.ofNat 9 (0x140 + port)) (s.vectorOf portGroup)).1).tick portGroup

/-- ARR and ARRN held to EXP by the first BSET, the excess dropped (R380). -/
def Barrier.trim (b : Barrier) : Barrier :=
  let excess := (b.arr - (if b.arr < b.exp then b.arr else b.exp)).toNat + (b.arrn - (if b.arrn < b.exp then b.arrn else b.exp)).toNat
  if excess = 0 then b
  else
    { b with
      arr := if b.arr < b.exp then b.arr else b.exp
      arrn := if b.arrn < b.exp then b.arrn else b.exp
      err := true
      drop := b.drop + BitVec.ofNat 32 excess }

/-- A barrier after BSET (R380). -/
def Barrier.set (b : Barrier) (scope : BitVec 3) (exp : BitVec 16) : Barrier :=
  if b.isSet then
    { Barrier.start with exp := exp, scope := scope, isSet := true }
  else Barrier.complete 3 (({ b with exp := exp, scope := scope, isSet := true } : Barrier).trim)

/-- BSET (R380). -/
def execBset (c : BitVec 3) (a : BitVec 5) (i : BitVec 4) (s : State) : Host.Outcome State Fault Refusal :=
  runWord (.bset c a i) s fun s => do
    let n ← s.srcDef a
    if n.extractLsb' 0 16 = 0 ∨ n.extractLsb' 16 48 ≠ 0 then .error (trapOf 0x04) else
    .ok ((s.setCur (s.cur.setBarrier i ((s.cur.barrier i).set c (n.extractLsb' 0 16)))).retire)

/-- The arrival of the core's own task (R380): a release at the barrier's scope, then one arrival; what follows it. -/
def State.ownArrival (s : State) (i : BitVec 4) (r : BitVec 32) (goOn : State → Except Hold State) : Except Hold State :=
  if (s.cur.barrier i).exp = 0 then .error (trapOf 0x04)
  else
    s.afterCommit (decide (2 ≤ (s.cur.barrier i).scope.toNat)) fun s =>
      if s.cur.hasAccesses s.cluster then .error plainWait
      else
        let me := agentId s.core s.cluster
        let (b, _) := (s.cur.barrier i).arrive r (BitVec.ofNat 9 me) (s.vectorOf me)
        goOn ((s.setCur (s.cur.setBarrier i b)).released me)

/-- BARV (R380). -/
def execBarv (a : BitVec 5) (i : BitVec 4) (s : State) : Host.Outcome State Fault Refusal :=
  runWord (.barv a i) s fun s => do
    let r ← s.srcDef a
    s.ownArrival i (r.extractLsb' 0 32) fun s => .ok s.retire

/-- The wait for a barrier to have completed up to round `t`, and its acquire (R203, R380). -/
def State.awaitBarrier (s : State) (i : BitVec 4) (t : BitVec 32) : Except Hold State :=
  let b := s.cur.barrier i
  if b.exp = 0 then .error (trapOf 0x04)
  else if (b.compl - t).toNat < 2 ^ 31 then .ok (s.joinInto (agentId s.core s.cluster) b.joined).retire
  else .error (.wait 4 (i.setWidth 64))

/-- BWAIT (R380). -/
def execBwait (a : BitVec 5) (i : BitVec 4) (s : State) : Host.Outcome State Fault Refusal :=
  runWord (.bwait a i) s fun s => do
    let t ← s.srcDef a
    s.awaitBarrier i (t.extractLsb' 0 32)

/-- BSYNC (R380): BARV, and then BWAIT for the next round; stage 5 is its wait. -/
def execBsync (a : BitVec 5) (i : BitVec 4) (s : State) : Host.Outcome State Fault Refusal :=
  runWord (.bsync a i) s fun s => do
    let r ← s.srcDef a
    if s.cl.stage = 5 then s.awaitBarrier i (r.extractLsb' 0 32 + 1)
    else s.ownArrival i (r.extractLsb' 0 32) fun s => .ok (s.atStage 5)

/-- The two words of BSTAT (R381). -/
def Barrier.word (b : Barrier) (w : Bool) : DWord :=
  if w then b.arrn ++ b.scope ++ BitVec.ofBool b.err ++ BitVec.ofBool b.isSet ++ 0#11 ++ b.drop
  else b.compl ++ b.arr ++ b.exp

/-- BSTAT (R381). -/
def execBstat (d : BitVec 5) (w : Bool) (i : BitVec 4) (s : State) : Host.Outcome State Fault Refusal :=
  runWord (.bstat d w i) s fun s => do
    s.aluDest d
    .ok ((s.putScal d ((s.cur.barrier i).word w)).retire)

/-- The reserved fields of a target word (R382). -/
def targetReserved (t : DWord) : Bool :=
  t.extractLsb' 27 5 ≠ 0 || t.extractLsb' 14 2 ≠ 0 || t.extractLsb' 4 4 ≠ 0

/-- BRARV (R382): its release is the access's; the arrival is sent when the earlier accesses are performed. -/
def execBrarv (a b : BitVec 5) (m n : Bool) (c : BitVec 3) (s : State) : Host.Outcome State Fault Refusal :=
  runWord (.brarv a b m n c) s fun s => do
    let t ← s.src a m
    let r ← s.src b n
    if targetReserved t then .error (trapOf 0x04) else
    let node : BitVec 11 := t.extractLsb' 16 11
    let away := if node = 0x7FF ∨ node = s.node then none else some node
    let op := AccessOp.arrive (t.extractLsb' 8 6).toNat (t.extractLsb' 0 4) (r.extractLsb' 0 32) (t.extractLsb' 32 32) away
    s.afterCommit (decide (2 ≤ c.toNat)) fun s => .ok (s.enqueue .scratchpad 0 0 [] op [] false true c).retire

/-- The arrival of an access of core `n`, at a core of this device, once the ordering rules let it be performed (R382). -/
def State.localArrival (s : State) (n : Nat) (x : Access) (core : Nat) (bar : BitVec 4) (r launch : BitVec 32) : State :=
  let me := agentId n x.cluster
  let (s, _) := s.arriveAt core bar r (some launch) (BitVec.ofNat 9 me) (s.vectorOf me)
  s.finishAccess n x

end Sys2Proof.Machine
end

