-- ==== Sys2Proof/Machine/Branch.lean ====
section
/-!
DEFINITION. Branches, jumps, calls, returns and hardware loops (R377, R385, R411, R419, R420, R450).
-/

namespace Sys2Proof.Machine

/-- A branch on a source being zero or not (R377). -/
def planBz (wantZero : Bool) (a : BitVec 5) (i : BitVec 13) (s : State) : Except Hold State := do
  let x ← s.srcDef a
  if decide (x = 0) = wantZero then .ok (s.branchTo (s.cl.pc + wordOffset i)) else .ok s.retire

/-- B (R377): taken when the predicate differs from neg. -/
def execB (p : BitVec 3) (g : Bool) (o : BitVec 19) (s : State) : Host.Outcome State Fault Refusal :=
  runWord (.b p g o) s fun s =>
    if s.predicate p != g then .ok (s.branchTo (s.cl.pc + wordOffset o)) else .ok s.retire

/-- BZ (R377). -/
def execBz (a : BitVec 5) (i : BitVec 13) (s : State) : Host.Outcome State Fault Refusal :=
  runWord (.bz a i) s (planBz true a i)

/-- BNZ (R377). -/
def execBnz (a : BitVec 5) (i : BitVec 13) (s : State) : Host.Outcome State Fault Refusal :=
  runWord (.bnz a i) s (planBz false a i)

/-- A jump to a register: its value is a byte offset, a multiple of 4 (R411). -/
def planJump (a : BitVec 5) (m : Bool) (s : State) : Except Hold State := do
  let t ← s.src a m
  if t.toNat % 4 ≠ 0 then .error (trapOf 0x09) else .ok (s.branchTo t.toNat)

/-- JMP (R411). -/
def execJmp (a : BitVec 5) (m : Bool) (s : State) : Host.Outcome State Fault Refusal :=
  runWord (.jmp a m) s (planJump a m)

/-- RET (R450): the effect of JMP, so that a loop whose body does not contain the target ends; R101's "RET change no loop state" is read as told of the
caller's loop, whose body contains the target (DEDUCED, log 51). -/
def execRet (a : BitVec 5) (m : Bool) (s : State) : Host.Outcome State Fault Refusal :=
  runWord (.ret a m) s (planJump a m)

/-- The link a call leaves (R385): PC + 4. -/
def State.link (s : State) : DWord := BitVec.ofInt 64 (s.cl.pc + 4)

/-- CALL (R385): a call changes no loop state (R101). -/
def execCall (d : BitVec 5) (i : BitVec 18) (s : State) : Host.Outcome State Fault Refusal :=
  runWord (.call d i) s fun s => do
    s.aluDest d
    .ok ((s.putScal d s.link).goTo (s.cl.pc + wordOffset i))

/-- CALLR (R385): the target is read before the link is written. -/
def execCallr (d a : BitVec 5) (m : Bool) (s : State) : Host.Outcome State Fault Refusal :=
  runWord (.callr d a m) s fun s => do
    let t ← s.src a m
    if t.toNat % 4 ≠ 0 then .error (trapOf 0x09) else
    s.aluDest d
    .ok ((s.putScal d s.link).goTo t.toNat)

/-- LOOP armed (R99): the loop's registers, the other loop's INNER, the stage predicates, and where the cluster continues. -/
def State.armLoop (s : State) (l : Bool) (start last : Nat) (n : Nat) (k : Nat) : State :=
  let x := s.cl
  let other := x.loop !l
  let count := if n = 0 then 0 else n + max k 1 - 1
  let this : Loop :=
    ⟨BitVec.ofNat 32 last ++ BitVec.ofNat 32 start, BitVec.ofNat 32 count ++ BitVec.ofNat 32 n,
      mkLpx 0 (decide (n ≠ 0)) other.act (BitVec.ofNat 3 k)⟩
  let other := { other with lpx := other.lpx &&& 0xFFFFFFFFFFFFFFBF#64 }
  let pred := if n = 0 ∨ k = 0 then x.pred
    else BitVec.ofNat 8 (x.pred.toNat >>> (k + 1) <<< (k + 1)) ||| 3
  let s := s.setCl { (x.setLoop l this).setLoop (!l) other with pred := pred }
  s.goTo (if n = 0 then (last : Int) + 4 else start)

/-- The checks of LOOP and LOOPI and the arming (R420); L is the length of the section (R346). -/
def planLoop (k : BitVec 3) (l : Bool) (n : Nat) (last : Int) (s : State) : Except Hold State :=
  let start := s.cl.pc + 4
  let other := s.cl.loop !l
  if last < start ∨ (s.cur.sectionLength s : Int) ≤ last then .error (ilg 0x07)
  else if k ≠ 0 ∧ other.act ∧ other.stg > 0 then .error (ilg 0x08)
  else if n + max k.toNat 1 - 1 > 2 ^ 32 - 1 then .error (ilg 0x09)
  else .ok (s.armLoop l start.toNat last.toNat n k.toNat)

/-- LOOP (R420). -/
def execLoop (k : BitVec 3) (l : Bool) (a : BitVec 5) (i : BitVec 13) (s : State) : Host.Outcome State Fault Refusal :=
  runWord (.loop k l a i) s fun s => do
    let n ← s.srcDef a
    planLoop k l n.toNat (s.cl.pc + wordOffset i) s

/-- LOOPI (R420). -/
def execLoopi (k : BitVec 3) (l : Bool) (n : BitVec 10) (e : Byte) (s : State) : Host.Outcome State Fault Refusal :=
  runWord (.loopi k l n e) s (fun s => planLoop k l n.toNat (s.cl.pc + 4 * (e.toNat : Int)) s)

end Sys2Proof.Machine
end

