-- ==== Sys2Proof/Machine/Control.lean ====
section
/-!
DEFINITION. The words that stop a task (R361, R384, R463), FORK (R399), RDV (R58), COMMIT (R387), IINV (R410), HINFO (R408) and PUB (R442).
-/

namespace Sys2Proof.Machine

/-- A word whose reserved bits are not zero (R361): ILLEGAL with the first subcause that applies. A word that is no such word changes
nothing here: it is executed as what it is. -/
def execIllegalRsvd (w : BitVec 32) (s : State) : Host.Outcome State Fault Refusal :=
  .next (match decode w with
    | .error .rsvd => s.settle (.error (ilg (if opAllowed (w.extractLsb' 23 8).toNat s.cluster then 0x04 else 0x02)))
    | _ => s)

/-- TRAP (R463): cause TRAP, TRAPV from v and the code (R358). -/
def execTrap (v : BitVec 4) (c : BitVec 23) (s : State) : Host.Outcome State Fault Refusal :=
  runWord (.trap v c) s fun _ => .error (.trap ⟨0x0B, 0, (v ++ c).setWidth 64, [], 0⟩)

/-- BRK (R329, R384): a debug stop where the context allows debugging, else a trap; TRAPV is the index. -/
def execBrk (i : BitVec 16) (s : State) : Host.Outcome State Fault Refusal :=
  runWord (.brk i) s fun s =>
    let t : TrapInfo := ⟨0x0C, 0, i.setWidth 64, [], 0⟩
    .error (if s.cur.ctx.dbg then .debug t else .trap t)

/-- A cluster started at a byte offset (R57, R399): predicates and loops keep what they held. -/
def ClusterState.fork (x : ClusterState) (t : Nat) : ClusterState :=
  { x with running := true, pc := t, stage := 0, since := none, waitKind := 0, lock := false, syncWait := false, syncSince := none,
           reex := false, satisfied := false, seen := [], found := [] }

/-- FORK (R399). -/
def execFork (c : BitVec 2) (i : BitVec 18) (s : State) : Host.Outcome State Fault Refusal :=
  runWord (.fork c i) s fun s =>
    let k := clusterOf c
    let t := 4 * i.toNat
    if k = .C ∨ (s.cur.cl k).running ∨ s.cur.sectionLength s ≤ t then .error (trapOf 0x04)
    else .ok ((s.setCur (s.cur.setCl k ((s.cur.cl k).fork t))).retire)

/-- Has a cluster a long-latency producer that has not written its destination (R58, R92)? -/
def Core.producing (c : Core) (k : Cluster) : Bool :=
  c.scal.values.any fun r => match r.pending with
    | some p => p.writer = k
    | none => false

/-- Have the earlier words of a cluster all completed (R58)? -/
def Core.completed (c : Core) (k : Cluster) : Bool :=
  !c.producing k && !c.hasAccesses k && (k ≠ .V || c.vop.isNone) && (k ≠ .M || (c.arrayX.idle && c.arrayY.idle))

/-- The state with the focused cluster stopped by RDV (R58, R60). -/
def State.stopRunning (s : State) : State :=
  s.setCl { s.cl with running := false, lock := false, syncWait := false }

/-- RDV (R58, R449): A, V and M stop once their words have completed; C waits until the others have stopped. -/
def execRdv (s : State) : Host.Outcome State Fault Refusal :=
  runWord .rdv s fun s =>
    if s.cluster = .C then
      if [Cluster.A, .V, .M].any fun k => (s.cur.cl k).running then .error plainWait else .ok s.retire
    else if s.cur.completed s.cluster then .ok s.retire.stopRunning
    else .error plainWait

/-- COMMIT (R387): a commit of the version, and cluster C holds until it is complete. -/
def execCommit (s : State) : Host.Outcome State Fault Refusal :=
  runWord .commit s fun s =>
    if s.cl.stage = 0 then
      if s.cur.committing.isSome then .error plainWait
      else if s.cur.vresLines = 0 then .ok s.retire
      else .ok ((s.startCommit s.core).atStage 1)
    else if s.cur.committing.isSome then .error plainWait
    else .ok s.retire

/-- The residency units of an object (R156, R408): up to its span, or, striped, up to the blocks a peer stores. -/
def State.ruCount (s : State) (v : Viewer) (r : ObjRec) : Nat :=
  let size := 2 ^ (16 + r.rulog)
  let blocks := (r.span + 255) / 256
  let peers := max 1 (s.peerList v r.peers).length
  let span := if r.st then 256 * ((blocks + peers - 1) / peers) else r.span
  (span + size - 1) / size

/-- Does a fetch address lie in the object (R410)? Scratchpad words stand at 2^43 and above. -/
def State.fetchedFrom (s : State) (v : Viewer) (r : ObjRec) (a : Nat) : Bool :=
  if r.isScratch then decide (2 ^ 43 + r.base * 64 ≤ a) && decide (a < 2 ^ 43 + r.base * 64 + r.span)
  else if !r.mode then decide (r.base * 64 ≤ a) && decide (a < r.base * 64 + r.span)
  else
    (List.range (s.ruCount v r)).any fun n =>
      let e := RuEntry.ofBits (s.ruBits v (ruAddr r n))
      e.present && decide (e.frame * 65536 ≤ a) && decide (a < e.frame * 65536 + 2 ^ (16 + r.rulog))

/-- A core without the cached words at the addresses that `bad` names, and without those fetched as words of object `key`, wherever they stood. -/
def Core.dropWords (c : Core) (bad : Nat → Bool) (key : Nat) : Core :=
  { c with icache := ⟨c.icache.cells.filter fun e => !bad e.1 && decide (e.2.2 ≠ key)⟩ }

/-- IINV (R170, R410): the object is translated as for a fetch; no core then holds a word of it. -/
def execIinv (a : BitVec 5) (m : Bool) (s : State) : Host.Outcome State Fault Refusal :=
  runWord (.iinv a m) s fun s => do
    let h ← s.src a m
    let v := s.here
    let r ← s.lookup v (h.extractLsb' 0 32) 3
    let bad := s.fetchedFrom v r
    let key := objectKey v.root (h.extractLsb' 0 32)
    let s' := if r.isScratch then s.setCur (s.cur.dropWords bad key)
      else { s with cores := s.cores.mapValues fun c => c.dropWords bad key }
    .ok s'.retire

/-- The attribute word of a record (R408). -/
def ObjRec.attributes (r : ObjRec) : DWord :=
  r.fdesc ++ r.fmt ++ BitVec.ofNat 2 (r.rank - 1) ++ BitVec.ofNat 2 r.layout ++ BitVec.ofNat 2 r.kind ++ r.perm ++
    BitVec.ofNat 2 r.padp ++ BitVec.ofNat 4 r.rulog ++ BitVec.ofBool r.mode ++ BitVec.ofBool r.hv ++ BitVec.ofBool r.st ++
    BitVec.ofBool r.sh ++ BitVec.ofBool r.rc ++ 0#23

/-- The RU state of HINFO's item 0x11 (R408). -/
def State.ruState (s : State) (v : Viewer) (r : ObjRec) (n : Nat) : DWord :=
  if s.ruCount v r ≤ n then 0x8000000000000000
  else if r.mode then s.ruBits v (ruAddr r n) &&& 0x3E0
  else if r.isScratch ∨ r.base * 64 < 2 ^ 39 then 0x20
  else 0x120

/-- The value of a HINFO item (R408). -/
def State.hinfoValue (s : State) (v : Viewer) (h : BitVec 32) (r : ObjRec) (item : Nat) (ru : Nat) : DWord :=
  let n := fun (k : Nat) => BitVec.ofNat 64 k
  match item with
  | 0x00 => (h.extractLsb' 12 20 ++ BitVec.ofNat 12 r.gen).setWidth 64
  | 0x01 => r.attributes
  | 0x02 => n (r.ext 0)
  | 0x03 => n (r.ext 1)
  | 0x04 => n (r.ext 2)
  | 0x05 => n (r.ext 3)
  | 0x06 => n (r.str.getD 0 0)
  | 0x07 => n (r.str.getD 1 0)
  | 0x08 => n (r.str.getD 2 0)
  | 0x09 => n (r.chunk.getD 0 0 + 16 * r.chunk.getD 1 0 + 256 * r.chunk.getD 2 0 + 4096 * r.chunk.getD 3 0)
  | 0x0A => n r.padv
  | 0x0B => r.scale.setWidth 64
  | 0x0C => r.amap.setWidth 64
  | 0x0D => r.metaH.setWidth 64
  | 0x0E => r.peers.setWidth 64
  | 0x0F => n r.span
  | 0x10 => n r.chunkCount
  | _ => s.ruState v r ru

/-- HINFO (R408, R409): the record as the cache holds it; the result is written later. -/
def execHinfo (d a b : BitVec 5) (m n : Bool) (i : BitVec 6) (s : State) : Host.Outcome State Fault Refusal :=
  runWord (.hinfo d a b m n i) s fun s => do
    let h ← s.src a m
    let ru ← if i = 0x11 then s.src b n else .ok 0
    let v := s.here
    let hd := h.extractLsb' 32 32
    let r ← if i = 0 then s.findRecord v hd 0 else s.freshRecord v hd 0
    s.aluDest d
    let value := s.hinfoValue v hd r i.toNat ru.toNat
    .ok (((s.produce d false (some value)).cacheUse v hd []).retire)

/-- The device as if no translation cache held the record at `a`, or the entries at `rus` (R160). -/
def State.forget (s : State) (a : Nat) (rus : List Nat) : State :=
  { s with
    cores := s.cores.mapValues fun c =>
      { c with recCache := c.recCache.erase a, ruCache := rus.foldl (fun t e => t.erase e) c.ruCache }
    slices := s.slices.mapValues fun x =>
      { x with records := x.records.erase a, rus := rus.foldl (fun t e => t.erase e) x.rus } }

/-- FRAME and SFRAME of a residency entry exchanged where SFRAME is not 0 (R160). -/
def swapFrames (w : DWord) : DWord :=
  if w.extractLsb' 37 27 = 0 then w else w.extractLsb' 10 27 ++ w.extractLsb' 37 27 ++ w.extractLsb' 0 10

/-- PUB's exchange of the record at table address `a` (R160): frames swapped, GEN one higher, the caches' copies gone. -/
def State.exchange (s : State) (v : Viewer) (a : Nat) : State :=
  let w := BitVec.ofNat 512 (s.homeRead a 64)
  let r := ObjRec.ofBits w
  let gen := BitVec.ofNat 12 (r.gen + 1)
  if r.mode then
    let rus := (List.range (s.ruCount v r)).map fun n => ruAddr r n
    let s := rus.foldl (fun s e => s.homeWrite e 8 (swapFrames (BitVec.ofNat 64 (s.homeRead e 8))).toNat) s
    let w := w.extractLsb' 492 20 ++ gen ++ w.extractLsb' 0 480
    (s.homeWrite a 64 w.toNat).forget a rus
  else
    let w := w.extractLsb' 492 20 ++ gen ++ w.extractLsb' 74 406 ++ w.extractLsb' 0 37 ++ w.extractLsb' 37 37
    (s.homeWrite a 64 w.toNat).forget a []

/-- Is some unit of a resident object being moved (R442)? -/
def State.someMoving (s : State) (v : Viewer) (r : ObjRec) : Bool :=
  r.mode && (List.range (s.ruCount v r)).any fun n => (BitVec.ofNat 64 (s.homeRead (ruAddr r n) 8)).getLsbD 7

/-- PUB's last part (R442, R443): the earlier accesses are performed (it is a release), nothing is being moved, and the generation is checked
again at the record's home before the exchange. An engine's write is translated and performed in one step of this model, so that none is
pending here (R193). -/
def planExchange (d : BitVec 5) (h : DWord) (s : State) : Except Hold State :=
  let v := s.here
  let hd := h.extractLsb' 32 32
  let a := recordAddr v.root (handleIndex hd)
  let r := ObjRec.ofBits (BitVec.ofNat 512 (s.homeRead a 64))
  if s.cur.hasAccesses s.cluster ∨ s.someMoving v r then .error plainWait
  else if r.gen ≠ handleGen hd then .error (xlateTrap 0x13 hd 0 1)
  else
    let new : DWord := h.extractLsb' 44 20 ++ BitVec.ofNat 12 (r.gen + 1) ++ h.extractLsb' 0 32
    .ok ((((s.exchange v a).putScal d new).released (agentId s.core s.cluster)).retire)

/-- PUB (R442). -/
def execPub (d a : BitVec 5) (m : Bool) (s : State) : Host.Outcome State Fault Refusal :=
  runWord (.pub d a m) s fun s => do
    let h ← s.src a m
    let hd := h.extractLsb' 32 32
    let r ← s.lookup s.here hd 1
    if !r.sh ∨ r.kind ≠ 0 then .error (xlateTrap 0x14 hd 0 1) else
    s.aluDest d
    s.commitPoint (planExchange d h)

end Sys2Proof.Machine
end

