-- ==== Sys2Proof/Machine/Csr.lean ====
section
/-!
DEFINITION. The control registers by number (R115, R116) and CSRR, CSRW, CSRS and CSRC (R392, R393).
-/

namespace Sys2Proof.Machine

/-- DEVID (R25). -/
def State.devid (s : State) : DWord := 0#21 ++ s.node ++ 0x4E37#16 ++ Config.stepping ++ 64#8

/-- CORID (R26). -/
def corid (core : Nat) : DWord := BitVec.ofNat 64 (homeSlice core * 4096 + core % 64 * 64 + quadOf core * 4 + dieOf core)

/-- The throttle class of a rate (R77). -/
def throttleClass (rate : Nat) : Nat := min 15 (16 - rate)

/-- NETTHR as a core reads it (R77). -/
def State.netthr (s : State) (core : Nat) : DWord :=
  let q0 := 8 * dieOf core
  let classes := (List.range 8).foldl (fun w q => w + throttleClass (s.throttle (q0 + q)).rate * 2 ^ (32 + 4 * q)) 0
  BitVec.ofNat 64 (classes + (s.throttle (quadOf core)).rate)

/-- TINFO (R62). -/
def Core.tinfoNow (c : Core) : DWord :=
  (c.tinfo &&& 0xFFFFFFFFFFFFFF00#64) ||| BitVec.ofNat 64 (128 * c.openJoin.isSome.toNat + c.spawn.length)

/-- QSTAT (R113). -/
def Core.qstat (c : Core) : DWord :=
  BitVec.ofNat 64 ((List.range 8).foldl (fun w q => w + (c.loadq.get [] q).length * 2 ^ (4 * q)) 0 +
    (List.range 4).foldl (fun w q => w + (c.storeq.get [] q).length * 2 ^ (32 + 4 * q)) 0)

/-- The accumulators an array's operation writes (R110, R112). -/
def ArrayOp.accumulator (o : ArrayOp) : Nat := (o.regs.mc.extractLsb' 192 4).toNat

/-- Does an array's operation write its accumulator: an MMUL, or a drain that clears it (R110, R112, R236)? -/
def ArrayOp.writes (o : ArrayOp) : Bool := !o.isDrain || o.regs.mc.getLsbD 200

/-- MSTAT (R112): the sticky bits and AKIND as held, and what is busy now. An MMUL that is only in the pending slot counts as an operation in progress of its
array (DESIGN CHOICE, log 98). -/
def Core.mstatNow (c : Core) : DWord :=
  let ops := (c.arrayX.ops ++ c.arrayY.ops).filter ArrayOp.writes
  let busy := (ops.map ArrayOp.accumulator).foldl (fun w n => w ||| (1#64 <<< (32 + n))) 0
  c.mstat ||| busy ||| BitVec.ofNat 64 (4 * (!c.arrayX.idle).toNat + 8 * (!c.arrayY.idle).toNat)

/-- The sticky bits of MSTAT that other clusters have cleared and the focused one does not yet see cleared (R91, R116). -/
def State.unseenClears (s : State) : DWord :=
  ((s.cur.csrHist.get [] 0x038).filter fun e => !e.seenBy s.dcc s.cluster).foldl (fun w e => w ||| e.val) 0

/-- The value of control register `n` as the focused cluster reads it; nothing for a number not in the table of R115. A sticky bit of MSTAT that
another cluster has cleared still reads 1 until that is seen (R91, R116). -/
def State.readCsr (s : State) (n : Nat) : Option DWord :=
  let c := s.cur
  let x := s.cl
  match n with
  | 0x000 => some (BitVec.ofNat 64 s.dcc)
  | 0x001 => some s.devid
  | 0x002 => some (corid s.core)
  | 0x003 => some s.cfence
  | 0x004 => some (s.netthr s.core)
  | 0x008 => some c.tinfoNow
  | 0x009 => some c.tframe
  | 0x00A => some c.ageus
  | 0x00B => some (s.csrView n c.syncto)
  | 0x020 => some x.femode
  | 0x021 => some (x.pred.setWidth 64)
  | 0x022 => some x.loop0.lps
  | 0x023 => some x.loop0.lpc
  | 0x024 => some x.loop0.lpx
  | 0x025 => some x.loop1.lps
  | 0x026 => some x.loop1.lpc
  | 0x027 => some x.loop1.lpx
  | 0x028 => some (s.csrView n c.shp)
  | 0x030 => some c.qstat
  | 0x038 => some (c.mstatNow ||| s.unseenClears)
  | 0x040 => some (s.csrView n c.ftb)
  | 0x041 => some (s.csrView n c.fts)
  | 0x048 => some c.trapc
  | 0x049 => some c.trapv
  | 0x050 => some (s.csrView n c.rmode)
  | n =>
    if 0x010 ≤ n ∧ n < 0x018 then some ((c.ids.extractLsb' (16 * (n - 0x010)) 16).setWidth 64)
    else if 0x018 ≤ n ∧ n < 0x020 then some ((c.ids.extractLsb' (128 + 16 * (n - 0x018)) 16).setWidth 64)
    else none

/-- The history of a control register after a write (R91, R393): whether the write takes effect. Of two clusters' writes in one cycle the
one of the first in the order C, A, V, M does. -/
def csrWritten (now : Nat) (k : Cluster) (old : DWord) : List Change → Bool × List Change
  | [] => (true, [⟨now, k, old, true⟩])
  | e :: r =>
    if e.cycle = now ∧ e.writer ≠ k then
      if clusterRank e.writer < clusterRank k then (false, e :: r) else (true, ⟨now, k, e.val, true⟩ :: r)
    else (true, ⟨now, k, old, true⟩ :: pruneHist now (e :: r))

/-- A write to per-task register `n`, now `cur`, stored by `set` (R393). -/
def State.writeTaskCsr (s : State) (n : Nat) (cur v : DWord) (set : Core → DWord → Core) : State :=
  let (takes, hist) := csrWritten s.dcc s.cluster cur (s.cur.csrHist.get [] n)
  let s := s.setCur { s.cur with csrHist := s.cur.csrHist.put n hist }
  if takes then s.setCur (set s.cur v) else s

/-- The sticky bits of MSTAT cleared where `v` is 1 (R112): the register is the core's, and of two clusters' clears in one cycle both count (R115, R393). -/
def State.clearMstat (s : State) (v : DWord) : State :=
  let c := s.cur
  let hits := c.mstat &&& v &&& 3
  let recent := (c.csrHist.get [] 0x038).filter fun e => decide (s.dcc < e.cycle + 2)
  s.setCur { c with csrHist := c.csrHist.put 0x038 (⟨s.dcc, s.cluster, hits, true⟩ :: recent), mstat := c.mstat &&& ~~~hits }

/-- Bits of `v` where `mask` is set, of `old` elsewhere (R5). -/
def masked (mask old v : DWord) : DWord := (v &&& mask) ||| (old &&& ~~~mask)

/-- The writable bits of LPXn (R98). -/
def lpxMask : DWord := 0xFFFFFFFF000000C7

/-- Write(v) of R393 to control register `n` by the focused cluster: read-only registers and fields ignore it. -/
def State.writeCsr (s : State) (n : Nat) (v : DWord) : State :=
  let c := s.cur
  let x := s.cl
  match n with
  | 0x00B => s.writeTaskCsr n c.syncto (masked 0xFFFFFFFF c.syncto v) (fun c v => { c with syncto := v })
  | 0x020 => s.setCl { x with femode := masked 0xFFFFFFFF00000001 x.femode v }
  | 0x021 => s.setCl { x with pred := (v.extractLsb' 0 8 &&& 0xFE) ||| 1 }
  | 0x022 => s.setCl { x with loop0 := { x.loop0 with lps := v } }
  | 0x023 => s.setCl { x with loop0 := { x.loop0 with lpc := v } }
  | 0x024 => s.setCl { x with loop0 := { x.loop0 with lpx := masked lpxMask x.loop0.lpx v } }
  | 0x025 => s.setCl { x with loop1 := { x.loop1 with lps := v } }
  | 0x026 => s.setCl { x with loop1 := { x.loop1 with lpc := v } }
  | 0x027 => s.setCl { x with loop1 := { x.loop1 with lpx := masked lpxMask x.loop1.lpx v } }
  | 0x028 => s.writeTaskCsr n c.shp (masked 0xFFFF0000000F1F0F c.shp v) (fun c v => { c with shp := v })
  | 0x038 => s.clearMstat v
  | 0x040 => s.writeTaskCsr n c.ftb (masked 0xFFFFFFFFFFFFFFF0 c.ftb v) (fun c v => { c with ftb := v })
  | 0x041 => s.writeTaskCsr n c.fts (masked 3 c.fts v) (fun c v => { c with fts := v })
  | 0x050 =>
    if v.extractLsb' 0 2 = 3 then s else s.writeTaskCsr n c.rmode (masked 3 c.rmode v) (fun c v => { c with rmode := v })
  | _ => s

/-- The old value of a control register; ILLEGAL CSRNUM for a number not listed, CSRCL for a write to SHP from outside V (R116, R393). -/
def State.csrOld (s : State) (n : BitVec 12) (writes : Bool) : Except Hold DWord :=
  match s.readCsr n.toNat with
  | none => .error (ilg 0x0A)
  | some v => if writes ∧ n = 0x028 ∧ s.cluster ≠ .V then .error (ilg 0x0B) else .ok v

/-- CSRR (R392). -/
def execCsrr (d : BitVec 5) (c : BitVec 12) (s : State) : Host.Outcome State Fault Refusal :=
  runWord (.csrr d c) s fun s => do
    let v ← s.csrOld c false
    s.aluDest d
    .ok ((s.putScal d v).retire)

/-- A write word's value and its registers (R392, R393). -/
def planCsrSet (d a : BitVec 5) (c : BitVec 12) (f : DWord → DWord → DWord) (s : State) : Except Hold State := do
  let old ← s.csrOld c true
  let v ← s.srcDef a
  s.aluDest d
  .ok (((s.writeCsr c.toNat (f old v)).putScal d old).retire)

/-- CSRW (R392). -/
def execCsrw (a : BitVec 5) (c : BitVec 12) (s : State) : Host.Outcome State Fault Refusal :=
  runWord (.csrw a c) s (planCsrSet 0 a c fun _ v => v)

/-- CSRS (R392). -/
def execCsrs (d a : BitVec 5) (c : BitVec 12) (s : State) : Host.Outcome State Fault Refusal :=
  runWord (.csrs d a c) s (planCsrSet d a c fun old v => old ||| v)

/-- CSRC (R392). -/
def execCsrc (d a : BitVec 5) (c : BitVec 12) (s : State) : Host.Outcome State Fault Refusal :=
  runWord (.csrc d a c) s (planCsrSet d a c fun old v => old &&& ~~~v)

end Sys2Proof.Machine
end

