-- ==== Sys2Proof/Machine/Llc.lean ====
section
/-!
DEFINITION. The last-level cache: its ways and their division (R18, R28, R31, R173), and the shadow slots carved from them (R19, R310). Which lines it
holds is seen by no access, since a home answers for its memory and its cache alike.
-/

namespace Sys2Proof.Machine

/-- The ways of a slice's LLC and the bytes of one (R18, R28): 16 of 1.5 MiB, 24 MiB a slice, 384 MiB in 16 slices. -/
def llcWays : Nat := 16
def wayBytes : Nat := 3 * 2 ^ 19

/-- The bytes of the device's LLC that work (R28, R31): a failed way takes its 1.5 MiB. -/
def State.llcBytes (s : State) : Nat :=
  ((List.range 16).map fun i => (llcWays - ((List.range 16).filter fun w => (s.slice i).failedWays.getLsbD w).length) * wayBytes).foldl (· + ·) 0

/-- The slices of a die. -/
def dieSlices (die : Nat) : List Nat := (List.range 8).map (8 * die + ·)

/-- The ways that a die's shadow slot takes in each of its slices (R19). -/
def shadowWays (slot : Nat) : List Nat := if slot = 0 then [14, 15] else [12, 13]

/-- Is shadow slot `slot` of a die allocated (R19)? -/
def State.shadowAllocated (s : State) (die slot : Nat) : Bool := s.shadowSlots.get false (2 * die + slot)

/-- The bytes of a shadow slot (R19): 8 slices of 2 ways, 24 MiB. -/
def shadowBytes : Nat := 8 * 2 * wayBytes

/-- Has a way inside a shadow slot failed? Such a slot holds no more images (R31, R310). -/
def State.shadowReduced (s : State) (die slot : Nat) : Bool :=
  (dieSlices die).any fun i => (shadowWays slot).any fun w => (s.slice i).failedWays.getLsbD w

/-- The ways that carry the version limit `v` (R173). -/
def versionWays (v : Nat) : Nat := (v + 5) / 6

/-- The ways of a slice that a division takes beside ordinary caching: shadow slots, race metadata, version space (R173). -/
def State.waysTaken (s : State) (slice v : Nat) : Nat :=
  let die := slice / 8
  2 * ((s.shadowAllocated die 0).toNat + (s.shadowAllocated die 1).toNat) + (s.slice slice).metaWays + versionWays v

/-- The failed ways of a slice that lie in no allocated shadow slot: ordinary caching is the first to do without them (R31). -/
def State.waysLost (s : State) (slice : Nat) : Nat :=
  ((List.range 16).filter fun w => (s.slice slice).failedWays.getLsbD w &&
    !((List.range 2).any fun k => s.shadowAllocated (slice / 8) k && (shadowWays k).contains w)).length

/-- The ways of a slice that ordinary caching has: what the division and the failed ways leave (R31, R173). -/
def State.ordinaryWays (s : State) (slice : Nat) : Nat := llcWays - s.waysLost slice - s.waysTaken slice (s.vresLimit.get 64 (slice / 8))

/-- Does the division of every slice of a die fit in the ways that work, one of them for ordinary caching (R31, R173)? -/
def State.divisionFits (s : State) (die : Nat) : Bool := (dieSlices die).all fun i => decide (1 ≤ s.ordinaryWays i)

/-- Ways of a slice disabled as failed (R31): first ordinary caching loses them, and where it would keep none, race metadata, one by one (DESIGN CHOICE,
log 86). -/
def State.failWays (s : State) (slice : Nat) (ways : BitVec 16) : State :=
  let x := s.slice slice
  let t := s.setSlice slice { x with failedWays := x.failedWays ||| ways }
  (List.range 4).foldl (fun t _ =>
    let y := t.slice slice
    if t.ordinaryWays slice = 0 then t.setSlice slice { y with metaWays := y.metaWays - 1 } else t) t

/-- A division of a die's ways taken where it fits, else refused (R173). -/
def State.divided (s t : State) (die : Nat) : State := if die < 2 ∧ t.divisionFits die then t else s

/-- The address that names a shadow slot in a save reference: in the hole of R149, where no access reaches (DESIGN CHOICE, log 65). -/
def shadowBase (die slot : Nat) : Nat := 2 ^ 40 + (2 * die + slot) * 2 ^ 25

/-- May an image of `len` bytes go to `a`: in a whole, allocated shadow slot of the die (R19, R301, R310)? -/
def State.inShadow (s : State) (die a len : Nat) : Bool :=
  (List.range 2).any fun slot =>
    decide (shadowBase die slot ≤ a) && decide (a + len ≤ shadowBase die slot + shadowBytes) && s.shadowAllocated die slot &&
      !s.shadowReduced die slot

/-- May a save buffer stand at `a`: in device memory, or in a shadow slot of the core's die (R301)? -/
def State.bufferOk (s : State) (core a len : Nat) : Bool := decide (a + len ≤ 2 ^ 39) || s.inShadow (dieOf core) a len

end Sys2Proof.Machine
end

