-- ==== Sys2Proof/Machine/SageWords.lean ====
section
/-!
DEFINITION. The words of the Sage cores (R275 to R286, R400 to R407) and the arrivals at barriers (R379).
-/

namespace Sys2Proof.Machine

/-- Why a Sage word does not complete: it waits, or it stops its core (R286). -/
inductive SageHold where
  | wait
  | stop
deriving DecidableEq, Repr

/-- The Sage core whose word is meant. -/
def State.curSage (s : State) : Sage := s.sageAt s.sage

/-- The state with that Sage core replaced. -/
def State.setCurSage (s : State) (x : Sage) : State := s.setSageAt s.sage x

/-- Register `r`; g0 reads 0 (R400). -/
def Sage.reg (x : Sage) (r : BitVec 4) : DWord := if r = 0 then 0 else x.regs.get 0 r.toNat

/-- The core with register `r` written; on g0 the write is discarded (R400). -/
def Sage.setReg (x : Sage) (r : BitVec 4) (v : DWord) : Sage := if r = 0 then x else { x with regs := x.regs.put r.toNat v }

/-- Register `r` of the focused Sage core. -/
def State.g (s : State) (r : BitVec 4) : DWord := s.curSage.reg r

/-- The state with that register written. -/
def State.setG (s : State) (r : BitVec 4) (v : DWord) : State := s.setCurSage (s.curSage.setReg r v)

/-- The state after a word that goes on at the next word (R400). -/
def State.advanceSage (s : State) : State := s.setCurSage { s.curSage with pc := s.curSage.pc + 4 }

/-- A Sage core stopped (R286): it executes no more words; SAGE_WATCHDOG takes its ports down. -/
def State.stopSage (s : State) : State := s.setCurSage { s.curSage with running := false, stopped := true }

/-- A Sage word: its plan; a wait leaves the core at the word, a stop stops it. A core that has stopped executes nothing (R286). -/
def runSage (s : State) (plan : State → Except SageHold State) : Host.Outcome State Fault Refusal :=
  if !s.curSage.running then .fault .sageStopped
  else
    .next (match plan s with
      | .ok t => t
      | .error .wait => s
      | .error .stop => s.stopSage)

/-- A word that writes `v` to register `d`. -/
def sageResult (d : BitVec 4) (v : State → DWord) (s : State) : Host.Outcome State Fault Refusal :=
  runSage s fun s => .ok ((s.setG d (v s)).advanceSage)

/-- The immediate of the GA format (R365). -/
def gaImm (i : BitVec 17) : DWord := i.signExtend 64

/-- The shift count of GSLL and GSRL (R366). -/
def gaShift (y : DWord) : Nat := (y.extractLsb' 0 6).toNat

/-- GADD (R401). -/
def execGadd (d a b : BitVec 4) (s : State) : Host.Outcome State Fault Refusal := sageResult d (fun s => s.g a + s.g b) s

/-- GADD, immediate (R401). -/
def execGaddI (d a : BitVec 4) (i : BitVec 17) (s : State) : Host.Outcome State Fault Refusal :=
  sageResult d (fun s => s.g a + gaImm i) s

/-- GSUB (R401). -/
def execGsub (d a b : BitVec 4) (s : State) : Host.Outcome State Fault Refusal := sageResult d (fun s => s.g a - s.g b) s

/-- GSUB, immediate (R401). -/
def execGsubI (d a : BitVec 4) (i : BitVec 17) (s : State) : Host.Outcome State Fault Refusal :=
  sageResult d (fun s => s.g a - gaImm i) s

/-- GMUL (R401). -/
def execGmul (d a b : BitVec 4) (s : State) : Host.Outcome State Fault Refusal := sageResult d (fun s => s.g a * s.g b) s

/-- GMUL, immediate (R401). -/
def execGmulI (d a : BitVec 4) (i : BitVec 17) (s : State) : Host.Outcome State Fault Refusal :=
  sageResult d (fun s => s.g a * gaImm i) s

/-- GAND (R401). -/
def execGand (d a b : BitVec 4) (s : State) : Host.Outcome State Fault Refusal := sageResult d (fun s => s.g a &&& s.g b) s

/-- GAND, immediate (R401). -/
def execGandI (d a : BitVec 4) (i : BitVec 17) (s : State) : Host.Outcome State Fault Refusal :=
  sageResult d (fun s => s.g a &&& gaImm i) s

/-- GOR (R401). -/
def execGor (d a b : BitVec 4) (s : State) : Host.Outcome State Fault Refusal := sageResult d (fun s => s.g a ||| s.g b) s

/-- GOR, immediate (R401). -/
def execGorI (d a : BitVec 4) (i : BitVec 17) (s : State) : Host.Outcome State Fault Refusal :=
  sageResult d (fun s => s.g a ||| gaImm i) s

/-- GXOR (R401). -/
def execGxor (d a b : BitVec 4) (s : State) : Host.Outcome State Fault Refusal := sageResult d (fun s => s.g a ^^^ s.g b) s

/-- GXOR, immediate (R401). -/
def execGxorI (d a : BitVec 4) (i : BitVec 17) (s : State) : Host.Outcome State Fault Refusal :=
  sageResult d (fun s => s.g a ^^^ gaImm i) s

/-- GSLL (R366, R401). -/
def execGsll (d a b : BitVec 4) (s : State) : Host.Outcome State Fault Refusal :=
  sageResult d (fun s => s.g a <<< gaShift (s.g b)) s

/-- GSLL, immediate (R366, R401). -/
def execGsllI (d a : BitVec 4) (i : BitVec 17) (s : State) : Host.Outcome State Fault Refusal :=
  sageResult d (fun s => s.g a <<< gaShift (gaImm i)) s

/-- GSRL (R366, R401). -/
def execGsrl (d a b : BitVec 4) (s : State) : Host.Outcome State Fault Refusal :=
  sageResult d (fun s => s.g a >>> gaShift (s.g b)) s

/-- GSRL, immediate (R366, R401). -/
def execGsrlI (d a : BitVec 4) (i : BitVec 17) (s : State) : Host.Outcome State Fault Refusal :=
  sageResult d (fun s => s.g a >>> gaShift (gaImm i)) s

/-- GLI (R401). -/
def execGli (d : BitVec 4) (h : BitVec 2) (i : BitVec 16) (s : State) : Host.Outcome State Fault Refusal :=
  sageResult d (fun _ => i.setWidth 64 <<< (16 * h.toNat)) s

/-- GLI that keeps the other bits (R401). -/
def execGliK (d : BitVec 4) (h : BitVec 2) (i : BitVec 16) (s : State) : Host.Outcome State Fault Refusal :=
  sageResult d (fun s => (s.g d &&& ~~~(0xFFFF#64 <<< (16 * h.toNat))) ||| (i.setWidth 64 <<< (16 * h.toNat))) s

/-- The focused Sage core goes on at byte offset `t`, or stops (R400). -/
def State.jumpSage (s : State) (t : Int) : Except SageHold State :=
  if t % 4 ≠ 0 ∨ t < 0 ∨ 0x10000 ≤ t then .error .stop else .ok (s.setCurSage { s.curSage with pc := t })

/-- The byte distance of a signed word offset (R365). -/
def sageOffset (o : BitVec 18) : Int := 4 * o.toInt

/-- A conditional branch (R401). -/
def sageBranch (taken : State → Bool) (o : BitVec 18) (s : State) : Host.Outcome State Fault Refusal :=
  runSage s fun s => if taken s then s.jumpSage (s.curSage.pc + sageOffset o) else .ok s.advanceSage

/-- GBEQ (R401). -/
def execGbeq (a b : BitVec 4) (o : BitVec 18) (s : State) : Host.Outcome State Fault Refusal :=
  sageBranch (fun s => s.g a = s.g b) o s

/-- GBNE (R401). -/
def execGbne (a b : BitVec 4) (o : BitVec 18) (s : State) : Host.Outcome State Fault Refusal :=
  sageBranch (fun s => s.g a ≠ s.g b) o s

/-- GBLT (R401): signed. -/
def execGblt (a b : BitVec 4) (o : BitVec 18) (s : State) : Host.Outcome State Fault Refusal :=
  sageBranch (fun s => (s.g a).slt (s.g b)) o s

/-- GJMP (R365, R401): the base is read before the link is written. -/
def execGjmp (d a : BitVec 4) (o : BitVec 18) (s : State) : Host.Outcome State Fault Refusal :=
  runSage s fun s =>
    let base : Int := if a = 0 then s.curSage.pc else ((s.g a).toNat : Int)
    let link : DWord := BitVec.ofInt 64 (s.curSage.pc + 4)
    (s.jumpSage (base + sageOffset o)).map fun s => s.setG d link

/-- The address of a GLD or GST (R402): computed exactly. -/
def State.sageAddr (s : State) (a : BitVec 4) (o : BitVec 14) : Int := ((s.g a).toNat : Int) + o.toInt

/-- Do the bytes of an access lie where it may go (R23, R149, R404)? -/
def State.sageAccessOk (s : State) (dev : Bool) (t : Int) (n : Nat) : Bool :=
  decide (0 ≤ t) && decide (t % n = 0) && (if dev then s.offered t.toNat n else decide (t + n ≤ 0x40000))

/-- GLD (R402 to R404). -/
def execGld (d a : BitVec 4) (p : Bool) (w : BitVec 2) (o : BitVec 14) (s : State) : Host.Outcome State Fault Refusal :=
  runSage s fun s =>
    let n := 2 ^ w.toNat
    let t := s.sageAddr a o
    if !s.sageAccessOk p t n then .error .stop
    else if p then
      if s.homeHolds (0, t.toNat / 64) false then .error .wait
      else .ok ((s.setG d (BitVec.ofNat 64 (s.homeRead t.toNat n))).advanceSage)
    else .ok ((s.setG d (BitVec.ofNat 64 (s.curSage.dmem.read t.toNat n))).advanceSage)

/-- GST (R402 to R404): the event queue is not written, and only a device store may be a release. -/
def execGst (d a : BitVec 4) (p r : Bool) (w : BitVec 2) (o : BitVec 14) (s : State) : Host.Outcome State Fault Refusal :=
  runSage s fun s =>
    let n := 2 ^ w.toNat
    let t := s.sageAddr a o
    let v := (s.g d).toNat % 2 ^ (8 * n)
    if !s.sageAccessOk p t n || (!p && (r || decide (t < 0x8000))) then .error .stop
    else if p then
      if s.homeHolds (0, t.toNat / 64) true then .error .wait
      else .ok (s.homeWrite t.toNat n v).advanceSage
    else .ok (s.setCurSage { s.curSage with dmem := s.curSage.dmem.write t.toNat n v }).advanceSage

/-- EVQ (R280). -/
def Sage.evq (x : Sage) : DWord := BitVec.ofNat 64 (x.evDrop * 2 ^ 48 + x.evOcc * 2 ^ 32 + x.evHead)

/-- GCSR (R367, R405): every field ignores a write; a read of EVQ clears DROP. -/
def execGcsr (d _a : BitVec 4) (_w : Bool) (c : BitVec 12) (s : State) : Host.Outcome State Fault Refusal :=
  runSage s fun s =>
    match c.toNat with
    | 0 =>
      let v := s.curSage.evq
      .ok (((s.setCurSage { s.curSage with evDrop := 0 }).setG d v).advanceSage)
    | 1 => .ok ((s.setG d (s.curSage.pdown.setWidth 64)).advanceSage)
    | 2 => .ok ((s.setG d (BitVec.ofNat 64 (s.node.toNat * 8 + s.sage))).advanceSage)
    | 3 => .ok ((s.setG d (BitVec.ofNat 64 s.dcc)).advanceSage)
    | _ => .error .stop

/-- GWAIT (R280, R405). -/
def execGwait (s : State) : Host.Outcome State Fault Refusal :=
  runSage s fun s => if s.curSage.evOcc = 0 then .error .wait else .ok s.advanceSage

/-- A record into g1 to g4 (R280). -/
def Sage.setRecord (x : Sage) (w : Nat) : Sage :=
  (((x.setReg 1 (BitVec.ofNat 64 w)).setReg 2 (BitVec.ofNat 64 (w / 2 ^ 64))).setReg 3 (BitVec.ofNat 64 (w / 2 ^ 128))).setReg 4
    (BitVec.ofNat 64 (w / 2 ^ 192))

/-- GEV (R280, R405): the record at HEAD is popped; of an empty queue zeros. -/
def execGev (s : State) : Host.Outcome State Fault Refusal :=
  runSage s fun s =>
    let x := s.curSage
    if x.evOcc = 0 then .ok (s.setCurSage (x.setRecord 0)).advanceSage
    else
      let w := x.dmem.read (x.recordOff 0) 32
      let y := { x with evOcc := x.evOcc - 1, evHead := (x.evHead + 1) % 1024, lastPop := s.dcc }
      .ok (s.setCurSage (y.setRecord w)).advanceSage

/-- A word that sets g15: 0 and its effect, or a failure value and nothing else (R400). -/
def sageReport (s : State) (effect : Option State) : Except SageHold State :=
  match effect with
  | some t => .ok ((t.setG 15 0).advanceSage)
  | none => .ok ((s.setG 15 1).advanceSage)

/-- The delivery context that bits 13:0 of a register name on the focused Sage core. -/
def State.pdcKey (s : State) (v : DWord) : Nat := 16384 * s.sage + (v.extractLsb' 0 14).toNat

/-- A window within its limits (R281, R406). -/
def clampWindow (v : Nat) : Nat := (max 1152 (min v (4 * 2 ^ 20))) / 64 * 64

/-- GSETW (R281, R406). -/
def execGsetw (a b : BitVec 4) (s : State) : Host.Outcome State Fault Refusal :=
  runSage s fun s =>
    let k := s.pdcKey (s.g a)
    sageReport s (if (s.pdc k).isOpen then some (s.setPdc k { s.pdc k with cwnd := clampWindow (s.g b).toNat }) else none)

/-- GSETR (R281, R406). -/
def execGsetr (a b : BitVec 4) (s : State) : Host.Outcome State Fault Refusal :=
  runSage s fun s =>
    let k := s.pdcKey (s.g a)
    sageReport s (if (s.pdc k).isOpen then some (s.setPdc k { s.pdc k with rate := min (s.g b).toNat 8000 }) else none)

/-- Path `j` of a routing entry with its weight replaced (R272, R282). -/
def withWeight (e : BitVec 256) (j : Nat) (w : BitVec 4) : BitVec 256 :=
  let at_ := 32 + 24 * j + 12
  (e &&& ~~~(0xF#256 <<< at_)) ||| (w.setWidth 256 <<< at_)

/-- GWGT (R282, R406). -/
def execGwgt (a b : BitVec 4) (j : BitVec 3) (s : State) : Host.Outcome State Fault Refusal :=
  runSage s fun s =>
    let x := s.curSage
    let node := ((s.g a).extractLsb' 0 11).toNat
    let e := x.routes.get 0 node
    sageReport s
      (if node ≤ 1057 ∧ e.getLsbD (32 + 24 * j.toNat + 11) then
        some (s.setCurSage { x with routes := x.routes.put node (withWeight e j.toNat ((s.g b).extractLsb' 0 4)) })
      else none)

/-- Does the focused Sage core serve this port (R24)? -/
def State.serves (s : State) (p : DWord) : Bool := decide (p.toNat < 48) && decide (sageOfPort p.toNat = s.sage)

/-- GPORT down (R283, R406). -/
def execGportDown (a : BitVec 4) (s : State) : Host.Outcome State Fault Refusal :=
  runSage s fun s => sageReport s (if s.serves (s.g a) then some (s.downPort (s.g a).toNat 2) else none)

/-- GPORT retrain (R283, R406): PORT_RETRAIN_COMPLETE ends it. -/
def execGportRetrain (a : BitVec 4) (s : State) : Host.Outcome State Fault Refusal :=
  runSage s fun s =>
    let p := (s.g a).toNat
    sageReport s (if s.serves (s.g a) then some (s.setPort p { s.port p with retraining := true }) else none)

/-- GNTFY (R284, R407): a release, then one arrival without launch check; it holds the core until the barrier has dealt with it. -/
def execGntfy (a b : BitVec 4) (s : State) : Host.Outcome State Fault Refusal :=
  runSage s fun s =>
    let t := s.g a
    if t &&& ~~~(0x3F0F#64) ≠ 0 then sageReport s none
    else
      let (t', counted) := s.arriveAt (t.extractLsb' 8 6).toNat (t.extractLsb' 0 4) ((s.g b).extractLsb' 0 32) none
        (BitVec.ofNat 9 (0x170 + s.sage)) .empty
      .ok ((t'.setG 15 (if counted then 0 else 1)).advanceSage)

/-- GSVC (R284, R406). -/
def execGsvc (a b : BitVec 4) (s : State) : Host.Outcome State Fault Refusal :=
  runSage s fun s => sageReport s (if (s.g a).toNat < 16 then some (s.interrupt (s.g a).toNat (s.g b)) else none)

/-- The bytes of a debug buffer (R275). -/
def Sage.buffer (x : Sage) (b n : Nat) : List Byte := x.dmem.bytes (0x8000 + 1024 * b) n

/-- A debug buffer freed (R285). -/
def Sage.freeBuffer (x : Sage) (b : Nat) : Sage := { x with dbgAlloc := x.dbgAlloc.erase b, dbgSending := x.dbgSending.erase b }

/-- A packet with OPC 9 (R266, R285). -/
def State.debugPacket (s : State) (payload : List Byte) : Packet :=
  { port := 0, pdc := 0, psn := 0, ent := 0, via := 0x7FF, srcn := s.node, aux := 0, rank := 0, nc := 0, nelem := 0, uoff := 0, coord := 0, handle := 0,
    job := 0, acq := false, rel := false, opc := 9, payload := payload,
    ecn := false }

/-- GSEND (R285, R406): the buffer is freed when the packet is acknowledged, or when it fails. The transport holds the packet as core
64 + g's. -/
def execGsend (a b : BitVec 4) (l : BitVec 14) (s : State) : Host.Outcome State Fault Refusal :=
  runSage s fun s =>
    let x := s.curSage
    let node := ((s.g a).extractLsb' 0 11).toNat
    let buf := (s.g b).toNat
    let len := l.toNat
    if buf < 16 ∧ x.dbgAlloc.has buf ∧ 64 ≤ len ∧ len ≤ 1024 ∧ len % 8 = 0 ∧ node ≠ s.node.toNat ∧ node ≤ 1057 then
      match s.transmitBy s.sage node 0 (s.debugPacket (x.buffer buf len)) buf false (64 + s.sage) with
      | .ok t psn => sageReport s (some (t.setCurSage { t.curSage with dbgSending := t.curSage.dbgSending.put buf (pdcFor s.sage node, psn) }))
      | .wait => .error .wait
      | .unreach => sageReport s (some (s.setCurSage (x.freeBuffer buf)))
    else sageReport s none

/-- GFREE (R285, R406). -/
def execGfree (b : BitVec 4) (s : State) : Host.Outcome State Fault Refusal :=
  runSage s fun s =>
    let buf := (s.g b).toNat
    sageReport s (if buf < 16 ∧ s.curSage.dbgAlloc.has buf then some (s.setCurSage (s.curSage.freeBuffer buf)) else none)

/-- A word that is no G instruction stops the focused Sage core (R286, R366). A word that is one changes nothing here: it is executed as what
it is. -/
def execNotAGInstruction (w : BitVec 32) (s : State) : Host.Outcome State Fault Refusal :=
  match decodeSage w with
  | .error _ => runSage s fun _ => .error .stop
  | .ok _ => .next s

/-- Does Sage core `g` stand at a GNTFY of this arrival (R407)? Its registers. -/
def State.notifying (s : State) (g core : Nat) (bar : BitVec 4) (r : BitVec 32) : Option (BitVec 4 × BitVec 4) :=
  let x := s.sageAt g
  match decodeSage (BitVec.ofNat 32 (x.imem.read x.pc.toNat 4)) with
  | .ok (.gntfy a b) =>
    if x.running ∧ (x.reg a).toNat = core * 256 + bar.toNat ∧ (x.reg b).extractLsb' 0 32 = r then some (a, b) else none
  | _ => none

/-- BARRIER_ARRIVAL (R379): an arrival reaches a barrier: that of an access of a core of this device, that of the GNTFY at which a Sage core
stands, or one that another node sent. -/
def execBarrierArrival (core : Nat) (bar : BitVec 4) (round : BitVec 32) (launch : Option (BitVec 32)) (src : ArrivalSrc) (s : State) :
    Host.Outcome State Fault Refusal :=
  match src with
  | .local n id =>
    .next (match (s.coreAt n).findAccess id, launch with
      | some x, some l =>
        if x.op = .arrive core bar round l none ∧ x.mayPerform ((s.coreAt n).accessesBefore x.cluster id) then
          s.localArrival n x core bar round l
        else s
      | _, _ => s)
  | .remote _ =>
    .next (match launch with
      | some l => s.remoteArrival (Config.pick (8 * s.steps + 5) % 48) core bar round l
      | none => s)
  | .sage g =>
    match s.notifying g core bar round with
    | some (a, b) => execGntfy a b { s with sage := g }
    | none => .next s

end Sys2Proof.Machine
end

