-- ==== Sys2Proof/Machine/Arrival.lean ====
section
/-!
DEFINITION. Arrival maps (R150, R194, R251): one bit and one counter per chunk of an object.
-/

namespace Sys2Proof.Machine

/-- The bytes of the bitmap of a map for `n` chunks (R251). -/
def bitmapBytes (n : Nat) : Nat := 64 * ((n + 511) / 512)

/-- The bytes a map for `n` chunks needs: bitmap, then counters (R251). -/
def mapBytesFor (n : Nat) : Nat := bitmapBytes n + 4 * n

/-- Is the map's object too small for the bitmap and counters of `r` (R152 reason 13, R251)? -/
def mapTooSmall (r map : ObjRec) : Bool := decide (map.span < mapBytesFor r.chunkCount)

/-- The place of byte `off` of a map and its residency entry, without any permission check; or why it has none. -/
def State.mapPlace (s : State) (v : Viewer) (h : BitVec 32) (off : Nat) : Except Hold (Place × Option Nat) :=
  match withCoords (s.coordsAt v h 0 off) (s.freshRecord v h 0) with
  | .error e => .error e
  | .ok m => s.placeOf v m h 0 (m.linear off) off false

/-- Does the home of a place hold a write to it (R168, R197)? -/
def State.placeHeld (s : State) : Place → Bool
  | .device a => s.homeHolds (0, a / 64) true
  | _ => false

/-- Does a home hold the count or the bit of chunk `g` of a map back (R168)? -/
def State.mapHeld (s : State) (v : Viewer) (h : BitVec 32) (chunks g : Nat) : Bool :=
  [g / 8, bitmapBytes chunks + 4 * g].any fun off => match s.mapPlace v h off with
    | .ok (p, _) => s.placeHeld p
    | .error _ => false

/-- A write into the map of a handle, DIRTY set before (R166); the caches hold what led to it (R164), and a watchpoint that it strikes is recorded for the
agent that reports it (R341). -/
def State.mapWrite (s : State) (v : Viewer) (h : BitVec 32) (len x report : Nat) (p : Place × Option Nat) : State :=
  let s := s.cacheUse v h [⟨p.1, 0, 0, 8 * len, p.2⟩]
  ((match p.2 with
   | some a => s.setDirty a
   | none => s).placeWrite v.core len x p.1).watchRun report true [⟨p.1, 0, 0, 8 * len, p.2⟩]

/-- The watchpoint that a write of `len` bytes at byte `off` of a map strikes (R341). -/
def State.mapStrike (s : State) (v : Viewer) (h : BitVec 32) (off len : Nat) : Option Nat :=
  match s.mapPlace v h off with
  | .ok p => s.strike true [⟨p.1, 0, 0, 8 * len, p.2⟩]
  | .error _ => none

/-- The bit of chunk `g` set by `agent` (R194): an atomic OR at the byte's home; who set it, and at which step, is kept for the wait log (R339), and that the
byte is a map's, for the acquire loads that find a bit set (R203). -/
def State.setMapBit (s : State) (v : Viewer) (h : BitVec 32) (object : BitVec 32) (g agent report : Nat) : State :=
  match s.mapPlace v h (g / 8) with
  | .error _ => s
  | .ok p =>
    let s := s.mapWrite v h 1 (s.placeRead v.core 1 p.1 ||| 2 ^ (g % 8)) report p
    { s with bitAgents := s.bitAgents.put (object.toNat * 2 ^ 32 + g) (512 * s.steps + agent % 512), mapBytes := s.mapBytes.put (mapKey v.core p.1) agent }

/-- Chunk `g`'s counter (R251). -/
def State.mapCount (s : State) (v : Viewer) (h : BitVec 32) (chunks g : Nat) : Nat :=
  match s.mapPlace v h (bitmapBytes chunks + 4 * g) with
  | .ok (p, _) => s.placeRead v.core 4 p
  | .error _ => 0

/-- Chunk `g`'s counter (R251): its value before, after `k` have been added. -/
def State.addMapCount (s : State) (v : Viewer) (h : BitVec 32) (chunks g k report : Nat) : State × Nat :=
  let old := s.mapCount v h chunks g
  match s.mapPlace v h (bitmapBytes chunks + 4 * g) with
  | .ok p => (s.mapWrite v h 4 ((old + k) % 2 ^ 32) report p, old)
  | .error _ => (s, old)

/-- The in-shape elements of chunk `g` (R251). -/
def ObjRec.chunkInShape (r : ObjRec) (g : Nat) : Nat :=
  let dims := (List.range 4).map fun k =>
    let n := r.chunksAlong k
    let before := (List.range k).foldl (fun p j => p * r.chunksAlong j) 1
    let i := g / before % n
    min (r.chunkExt k) (r.ext k - i * r.chunkExt k)
  dims.foldl (· * ·) 1

/-- The chunk coordinates of chunk `g`: its origin element. -/
def ObjRec.chunkOrigin (r : ObjRec) (g : Nat) : List Nat :=
  (List.range 4).map fun k =>
    let before := (List.range k).foldl (fun p j => p * r.chunksAlong j) 1
    g / before % r.chunksAlong k * r.chunkExt k

/-- The chunk numbers along one dimension that meet an interval of coordinates. -/
def ObjRec.chunkRange (r : ObjRec) (k : Nat) (start : Int) (len : Nat) : List Nat :=
  let lo := max start 0
  let hi := min (start + len) (r.ext k)
  if hi ≤ lo then []
  else
    let a := lo.toNat / r.chunkExt k
    let b := (hi - 1).toNat / r.chunkExt k
    (List.range (b + 1 - a)).map (· + a)

/-- The chunks that hold an in-shape element of a rectangle, rising (R194, R474). -/
def ObjRec.chunksMeeting (r : ObjRec) (start : List Int) (ext : List Nat) : List Nat :=
  let rng := fun k => r.chunkRange k (start.getD k 0) (ext.getD k 1)
  ((rng 3).map fun g3 => (rng 2).map fun g2 => (rng 1).map fun g1 => (rng 0).map fun g0 =>
    g0 + r.chunksAlong 0 * (g1 + r.chunksAlong 1 * (g2 + r.chunksAlong 2 * g3))).flatten.flatten.flatten

end Sys2Proof.Machine
end

