-- ==== Sys2Proof/Machine/Remote.lean ====
section
/-!
DEFINITION. Elements of another node that no queued access reads: those of an engine command, of an array, of a word that reads as it issues (R154, R156,
R162, R270). They are asked for with LOAD requests and taken once the data is back.
-/

namespace Sys2Proof.Machine

/-- Who asks: an engine command. -/
def askCommand (id : BitVec 16) : Nat := id.toNat

/-- Who asks: an array. -/
def askArray (y : Bool) : Nat := 65536 + y.toNat

/-- Who asks: an array, for the map of an operand. -/
def askMap (y : Bool) : Nat := 65538 + y.toNat

/-- Who asks: the word of a cluster. -/
def askWord (k : Cluster) : Nat := 131072 + clusterIndex k

/-- The core with a remote read replaced. -/
def Core.putAsk (c : Core) (e : RemoteRead) : Core := { c with remoteReads := c.remoteReads.map fun x => if x.id = e.id then e else x }

/-- The state without the remote reads of whoever asks. -/
def State.dropAsks (s : State) (n who : Nat) : State :=
  s.setCoreAt n { s.coreAt n with remoteReads := (s.coreAt n).remoteReads.filter fun x => x.who ≠ who }

/-- A remote read noted: its request is still to be sent. -/
def State.addAsk (s : State) (n who : Nat) (h : BitVec 32) (node off len : Nat) : State :=
  let c := s.coreAt n
  s.setCoreAt n { c with remoteReads := c.remoteReads ++ [⟨c.nextId, who, h, node, off, len, false, none, none⟩], nextId := c.nextId + 1 }

/-- The request of a remote read sent, where the transport takes it (R270, R281). -/
def State.sendAsk (s : State) (n : Nat) (e : RemoteRead) : State :=
  match s.transmit e.node 0 (s.header n 3 e.handle (BitVec.ofNat 32 e.id) (BitVec.ofNat 128 e.off) []) e.id false n with
  | .ok s _ => s.setCoreAt n ((s.coreAt n).putAsk { e with sent := true })
  | .wait => s
  | .unreach => s.setCoreAt n ((s.coreAt n).putAsk { e with failed := some .timeout })

/-- The data or the failure of a remote read taken in. -/
def State.askEnded (s : State) (n id : Nat) (value : Option Nat) (failed : Option Answer) : State :=
  let c := s.coreAt n
  match c.remoteReads.find? fun e => e.id = id && e.sent && e.value.isNone with
  | some e => s.setCoreAt n (c.putAsk { e with value := value, failed := failed })
  | none => s

/-- The word that a cluster is to fetch asked for at the node that holds it (R154, R270): 4 bytes. -/
def State.askForFetch (s : State) (n : Nat) (k : Cluster) : State :=
  match s.farFetch n k with
  | none => s
  | some (g, off) =>
    let h := (s.coreAt n).cr.ch
    let mine := fun (s : State) => (s.coreAt n).remoteReads.find? fun e => e.who = askFetch k && e.handle = h && e.node = g && e.off = off
    let s := if (mine s).isSome then s else (s.dropAsks n (askFetch k)).addAsk n (askFetch k) h g off 4
    match mine s with
    | some e => if e.sent || e.failed.isSome then s else s.sendAsk n e
    | none => s

/-- The remote read that covers one request's elements. -/
def Core.askFor (c : Core) (who : Nat) (h : BitVec 32) (ps : List Part) (g : Nat × Nat) : Option RemoteRead :=
  c.remoteReads.find? fun e => e.who = who && e.handle = h && e.node = g.1 && decide ((e.off, e.len) = remoteSpan g ps)

/-- What asking for elements came to: each remote one with its value; not yet; or why not. -/
inductive Fetched where
  | ok (s : State) (parts : List Part)
  | asking (s : State)
  | failed (s : State) (e : Hold)

/-- The requests of these elements noted, where they have not been. -/
def State.askAll (s : State) (n who : Nat) (h : BitVec 32) (ps : List Part) : List (Nat × Nat) → State
  | [] => s
  | g :: gs =>
    let t := if ((s.coreAt n).askFor who h ps g).isSome then s else s.addAsk n who h g.1 (remoteSpan g ps).1 (remoteSpan g ps).2
    t.askAll n who h ps gs

/-- The coordinates of the first element that a remote read covers; `cs` are the elements' own. -/
def askCoord (e : RemoteRead) (ps : List Part) (cs : List (List Int)) : List Int :=
  match (ps.zip cs).find? fun p => match p.1.group with
    | some g => decide (g.1 = e.node ∧ (remoteSpan g ps).1 = e.off)
    | none => false with
  | some p => p.2
  | none => cs.headD []

/-- Elements of which some belong to other nodes, asked for by `who` (R154, R270). What has come stays until it is given up; what has failed is given up. -/
def State.peekRemote (s : State) (n who : Nat) (h : BitVec 32) (acc : Nat) (cs : List (List Int)) (ps : List Part) : Fetched :=
  let gs := (ps.filterMap Part.group).eraseDups
  if gs.isEmpty then .ok s ps
  else
    let s := s.askAll n who h ps gs
    let es := gs.filterMap fun g => ((s.coreAt n).askFor who h ps g).map fun e => (g, e)
    match es.findSome? fun e => e.2.failed.map fun a => (e.2, a) with
    | some (e, a) => .failed (s.dropAsks n who) (answerHold h acc e.node (askCoord e ps cs) (s.unitAt (s.viewer n) h e.off) a)
    | none =>
      if es.all fun e => e.2.value.isSome then
        .ok s (es.foldl (fun ps e => answerParts e.1 e.2.off (bytesOfNat e.2.len (e.2.value.getD 0)) ps) ps)
      else .asking ((es.filter fun e => !e.2.sent).foldl (fun s e => s.sendAsk n e.2) s)

/-- The same, taken once they are all at hand. -/
def State.fetchRemote (s : State) (n who : Nat) (h : BitVec 32) (acc : Nat) (cs : List (List Int)) (ps : List Part) : Fetched :=
  match s.peekRemote n who h acc cs ps with
  | .ok s vs => .ok (s.dropAsks n who) vs
  | r => r

/-- The bytes of a map that hold the bits of these chunks (R150, R251), one for each chunk. -/
def State.mapParts (s : State) (v : Viewer) (h : BitVec 32) : List Nat → Except Hold (List Part)
  | [] => .ok []
  | g :: gs => do
    let p ← s.mapPlace v h (g / 8)
    let ps ← s.mapParts v h gs
    .ok (⟨p.1, g / 8, 0, 8, p.2⟩ :: ps)

/-- What looking for the bits of chunks came to: the first chunk that has not arrived, if any; not yet known; or why it cannot be known. -/
inductive MapLook where
  | ok (s : State) (missing : Option Nat)
  | asking (s : State)
  | failed (s : State) (e : Hold)

/-- The bits of chunks of a map read for whoever waits for them (R194, R233, R474); those at another node are asked for (R154). -/
def State.lookForChunks (s : State) (n who : Nat) (v : Viewer) (h : BitVec 32) (gs : List Nat) : MapLook :=
  match s.mapParts v h gs with
  | .error e => .failed s e
  | .ok ps =>
    match s.fetchRemote n who h 0 (gs.map fun g => s.coordsAt v h 0 (g / 8)) ps with
    | .asking s => .asking s
    | .failed s e => .failed s e
    | .ok s vs =>
      .ok (s.cacheUse v h ps) (((gs.zip vs).find? fun e => s.partValue (s.coreAt n) false e.2 / 2 ^ (e.1 % 8) % 2 = 0).map Prod.fst)

end Sys2Proof.Machine
end

