-- ==== Sys2Proof/Machine/Transcendentals.lean ====
section
/-!
DEFINITION. The transcendentals of R467: which FP32 results lie within 2 units in the last place of the exact value, and which of them a function has.
-/

namespace Sys2Proof.Machine

/-- One, as the numbers of this file stand: integers with 400 fraction bits, far more than a decision about 2 units in the last place of FP32 needs. -/
def fixOne : Int := 2 ^ 400

/-- ln 2. -/
def fixLn2 : Int := 0xB17217F7D1CF79ABC9E3B39803F2F6AF40F343267298B62D8A0D175B8BAAFA2BE7B876206DEBAC98559552FB4AFA1B10ED2E

/-- π / 2. -/
def fixHalfPi : Int := 0x1921FB54442D18469898CC51701B839A252049C1114CF98E804177D4C76273644A29410F31C6809BBDF2A33679A7486366056

/-- Such a number times a power of two, as a number of R123. -/
def fixNum (t e : Int) : Num := .fin (decide (t < 0)) t.natAbs (e - 400)

/-- e^r − 1 near 0, by its power series. -/
def fixExpm1 (r : Int) : Int :=
  ((List.range 90).foldl (fun (a : Int × Int) n =>
    let t := a.1 * r / fixOne / ((n : Int) + 1)
    (t, a.2 + t)) (fixOne, 0)).2

/-- The power of two nearest e^x, and what is left of x. -/
def fixReduce (x : Int) : Int × Int :=
  let k := (x + fixLn2 / 2) / fixLn2
  (k, x - k * fixLn2)

/-- e^x. -/
def fixExp (x : Int) : Num := fixNum (fixOne + fixExpm1 (fixReduce x).2) (fixReduce x).1

/-- 2^x. -/
def fixExp2 (x : Int) : Num := fixNum (fixOne + fixExpm1 (x % fixOne * fixLn2 / fixOne)) (x / fixOne)

/-- ln of m × 2^e, by the power series of the inverse hyperbolic tangent. -/
def fixLn (m : Nat) (e : Int) : Int :=
  let f : Int := ((m <<< (400 - Nat.log2 m) : Nat) : Int)
  let t := (f - fixOne) * fixOne / (f + fixOne)
  let sum := (List.range 130).foldl (fun (a : Int × Int) n => (a.1 * t / fixOne * t / fixOne, a.2 + a.1 / (2 * (n : Int) + 1))) (t, 0)
  (e + Nat.log2 m) * fixLn2 + 2 * sum.2

/-- 1 over the square root of m × 2^e. -/
def fixRsqrt (m : Nat) (e : Int) : Num :=
  let odd := e % 2 = 1
  let m := if odd then 2 * m else m
  .fin false (isqrt (2 ^ 800 / m)) (-400 - (if odd then e - 1 else e) / 2)

/-- tanh of a magnitude. -/
def fixTanh (x : Int) : Int :=
  let (k, r) := fixReduce (2 * x)
  let m := if k = 0 then fixExpm1 r else (fixOne + fixExpm1 r) * 2 ^ k.toNat - fixOne
  m * fixOne / (m + 2 * fixOne)

/-- 1 ÷ (1 + e^−x). -/
def fixSigm (x : Int) : Int :=
  let (k, r) := fixReduce (-(x.natAbs : Int))
  let p := (fixOne + fixExpm1 r) / 2 ^ (-k).toNat
  (if x < 0 then p else fixOne) * fixOne / (fixOne + p)

/-- The sine of r, or from `n` = 0 on its cosine, near 0. -/
def fixWave (cosine : Bool) (r : Int) : Int :=
  ((List.range 45).foldl (fun (a : Int × Int) n =>
    let d : Int := if cosine then (2 * n + 1) * (2 * n + 2) else (2 * n + 2) * (2 * n + 3)
    let t := -(a.1 * r / fixOne * r / fixOne / d)
    (t, a.2 + t)) (if cosine then (fixOne, fixOne) else (r, r))).2

/-- sin x, or cos x, of a magnitude. -/
def fixSinCos (cosine : Bool) (x : Int) : Int :=
  let k := (x + fixHalfPi / 2) / fixHalfPi
  let r := x - k * fixHalfPi
  match ((k + cosine.toNat) % 4).toNat with
  | 0 => fixWave false r
  | 1 => fixWave true r
  | 2 => -fixWave false r
  | _ => -fixWave true r

/-- A finite number that FP32 has, with 400 fraction bits. -/
def fixOf (m : Nat) (e : Int) : Int := ((m <<< (e + 400).toNat : Nat) : Int)

/-- The exact value of a transcendental at a finite number that is not zero, far more closely than FP32 can tell (R467). Beyond what FP32 can hold, an
argument of exp, exp2, tanh or sigm is cut off. -/
def transExact (op : Nat) (neg : Bool) (m : Nat) (e : Int) : Num :=
  let size := fixOf m e
  let cut := min size (400 * fixOne)
  let signed := if neg then -cut else cut
  match op with
  | 0x9A => fixExp signed
  | 0x9B => fixExp2 signed
  | 0x9C => fixNum (fixLn m e) 0
  | 0x9D => fixNum (fixLn m e * fixOne / fixLn2) 0
  | 0x9F => fixRsqrt m e
  | 0xA1 => fixNum (if neg then -fixTanh (min size (100 * fixOne)) else fixTanh (min size (100 * fixOne))) 0
  | 0xA2 => fixNum (fixSigm (if neg then -min size (200 * fixOne) else cut)) 0
  | 0xA3 => fixNum (if neg then -fixSinCos false size else fixSinCos false size) 0
  | _ => fixNum (fixSinCos true size) 0

/-- The place of an FP32 code in the order of the numbers; the zeros are 0. -/
def codeOrder (w : BitVec 32) : Int := if w.getLsbD 31 then -((w.toNat % 2 ^ 31 : Nat) : Int) else w.toNat

/-- The FP32 code at a place in that order. -/
def codeAt (i : Int) : BitVec 32 := if i < 0 then 0x80000000 ||| BitVec.ofNat 32 i.natAbs else BitVec.ofNat 32 i.toNat

/-- The number of an FP32 code, an infinity standing for the next power of two. -/
def codeNum (w : BitVec 32) : Num :=
  match num32 w with
  | .inf n => .fin n 1 128
  | x => x

/-- Does an FP32 code lie within 2 units in the last place of an exact value (R467)? -/
def withinUlps (y : Num) (w : BitVec 32) : Bool :=
  let unit := max (y.top - 23) (-149)
  !(codeNum w).isNan && !(Num.fin false (2 ^ 61 + 1) (unit - 60)).lt ((codeNum w).add y.negate).magnitude

/-- The FP32 results that R467 allows where the exact value is `y`. -/
def allowedCodes (y : Num) : List (BitVec 32) :=
  ((List.range 9).map fun (k : Nat) => codeAt (codeOrder (roundNE32 y) + k - 4)).filter (withinUlps y)

/-- The FP32 result of a function that R467 bounds: of the codes that lie within the bound the one that Clarober's library has, which the spec does not
give (log 3). -/
def transBounded (op : Nat) (w : BitVec 32) : BitVec 32 :=
  match num32 w with
  | .fin n m e =>
    let y := transExact op n m e
    let l := allowedCodes y
    l.getD (Config.approx op w.toNat % l.length) (roundNE32 y)
  | _ => 0x7FC00000

end Sys2Proof.Machine
end

