-- ==== Sys2Proof/Machine/VectorOps.lean ====
section
/-!
DEFINITION. The element operations of the vector pipeline (R144, R465 to R471), on rows as values: what one row step computes.
-/

namespace Sys2Proof.Machine

/-- The element codes of a row; the spare bits of a narrow element are ignored (R104, R124). -/
def rowCodes (f : Fmt) (r : Row) : List Nat :=
  (List.range f.perRow).map fun i => r.toNat >>> (i * f.slot) % 2 ^ f.codeWidth

/-- The elements of a row as bit strings of their whole slot (R104). -/
def rowSlots (f : Fmt) (r : Row) : List Nat := (List.range f.perRow).map fun i => r.toNat >>> (i * f.slot) % 2 ^ f.slot

/-- Codes laid side by side, the first in the low bits; spare bits are zero (R104, R124). -/
def joinNat (f : Fmt) : List Nat → Nat
  | [] => 0
  | c :: r => c % 2 ^ f.codeWidth + 2 ^ f.slot * joinNat f r

/-- The row of a list of codes. -/
def joinRow (f : Fmt) (cs : List Nat) : Row := BitVec.ofNat 4096 (joinNat f cs)

/-- The row whose elements are functions of those of three rows. -/
def mapRow (f : Fmt) (g : Nat → Nat → Nat → Nat) (a b d : Row) : Row :=
  joinRow f ((rowCodes f a).zip ((rowCodes f b).zip (rowCodes f d)) |>.map fun e => g e.1 e.2.1 e.2.2)

/-- Less, with −0 less than +0 (R465, R469). -/
def Num.lessTagged (a b : Num) : Bool :=
  a.lt b || (a.isZero && b.isZero && a.isNeg && !b.isNeg)

/-- The quotient of finite numbers, its rest kept as a sticky bit below any rounding (R465). -/
def Num.quotient (ma : Nat) (ea : Int) (mb : Nat) (eb : Int) (neg : Bool) : Num :=
  let k := 64 + Nat.log2 mb
  let q := (ma <<< k) / mb
  .fin neg (2 * q + (if (ma <<< k) % mb = 0 then 0 else 1)) (ea - eb - k - 1)

/-- The exact quotient as far as a rounding needs it: x ÷ ±0 is an Inf, 0 ÷ 0 and Inf ÷ Inf the default NaN (R465). -/
def Num.div : Num → Num → Num
  | .inf _, .inf _ => .defaultNan
  | .inf na, .fin nb _ _ => .inf (na != nb)
  | .fin na _ _, .inf nb => .fin (na != nb) 0 0
  | .fin na ma ea, .fin nb mb eb =>
    if mb = 0 then (if ma = 0 then .defaultNan else .inf (na != nb)) else Num.quotient ma ea mb eb (na != nb)
  | a, b => if a.isNan then a else b

/-- The square root of a finite positive number, its rest kept as a sticky bit (R467). -/
def sqrtNum (m : Nat) (e : Int) : Num :=
  let (m, e) := if e % 2 = 0 then (m, e) else (2 * m, e - 1)
  let r := isqrt (m <<< 128)
  .fin false (2 * r + (if r * r = m <<< 128 then 0 else 1)) (e / 2 - 64 - 1)

/-- A number rounded to an integral value (R465). -/
def Num.integral (rtz : Bool) : Num → Num
  | .fin n m e => if 0 ≤ e then .fin n m e else .fin n (roundTo rtz m e 0) 0
  | x => x.quiet

/-- Two's complement or natural value of an integer operation's operand (R120). -/
def intOp (op : Nat) (x y z : Int) : Int :=
  match op with
  | 0x80 => x + y
  | 0x81 => x - y
  | 0x82 => x * y
  | 0x83 => x * y + z
  | 0x84 => x * y - z
  | 0x85 => z - x * y
  | 0x86 => x + y
  | 0x87 => x - y
  | 0x88 => x * y
  | 0x89 => if y = 0 then -1 else Int.tdiv x y
  | 0x8A => x.natAbs
  | 0x8B => -x
  | 0x8C => min x y
  | 0x8D => max x y
  | 0x8E => min (max z x) y
  | _ => x

/-- Does the operation saturate (R465)? -/
def saturating (op : Nat) : Bool := op = 0x86 || op = 0x87 || op = 0x88

/-- An element operation on an integer format (R465, R120). -/
def intElement (f : Fmt) (op x y z : Nat) : Nat :=
  let v := intOp op (f.codeInt x) (f.codeInt y) (f.codeInt z)
  wrapCode f.codeWidth (if saturating op then clampInt f.bounds.1 f.bounds.2 v else v)

/-- The exact result of an arithmetic operation on numbers that are no NaN (R119, R465). -/
def fpExact (op : Nat) (a b d : Num) : Num :=
  match op with
  | 0x80 => a.add b
  | 0x81 => a.add b.negate
  | 0x82 => a.mul b
  | 0x83 => fused (a.mul b) d
  | 0x84 => fused (a.mul b) d.negate
  | 0x85 => fused (a.mul b).negate d
  | 0x86 => a.add b
  | 0x87 => a.add b.negate
  | 0x88 => a.mul b
  | _ => a.div b
where
  /-- A product and an addend: an invalid product gives the default NaN. -/
  fused (p c : Num) : Num := if p.isNan then .defaultNan else p.add c

/-- The operands an operation reads, in the order in which a NaN is looked for (R119, R465). -/
def fpOperands (op : Nat) (a b d : Num) : List Num := if 0x83 ≤ op ∧ op ≤ 0x85 then [a, b, d] else [a, b]

/-- The sign bit cleared or flipped; a format without one (R465). -/
def signElement (g : FpFormat) (flip : Bool) (x : Nat) : Nat :=
  if !g.sign then
    if flip && !(g.decode x).isNan then 0 else x
  else
    let s := 2 ^ (g.ew + g.mw)
    if flip then (if x / s % 2 = 1 then x - s else x + s) else x % s

/-- vmin, vmax and vclamp on codes that are no NaN (R465). -/
def pickElement (op : Nat) (a b d : Num) (x y z : Nat) : Nat :=
  if op = 0x8C then (if a.lessTagged b then x else y)
  else if op = 0x8D then (if a.lessTagged b then y else x)
  else
    let (m, c) := if d.lessTagged a then (a, x) else (d, z)
    if b.lessTagged m then y else c

/-- An element operation on a floating format (R465, R119, R144). -/
def fpElement (g : FpFormat) (op : Nat) (rtz : Bool) (x y z : Nat) : Nat :=
  let a := g.decode x
  let b := g.decode y
  let d := g.decode z
  let rtz := rtz && g.wide
  if op = 0x8A then signElement g false x
  else if op = 0x8B then signElement g true x
  else if op = 0x8F then
    if a.isInf then x else (g.encode rtz false (a.integral rtz)).1
  else if 0x8C ≤ op ∧ op ≤ 0x8E then
    match (if op = 0x8E then [d, a, b] else [a, b]).find? Num.isNan with
    | some n => (g.encode false false n.quiet).1
    | none => pickElement op a b d x y z
  else (g.encode rtz (saturating op) (Num.withNan (fpOperands op a b d) (fpExact op a b d))).1

/-- Element arithmetic (R465). -/
def arithElement (f : Fmt) (op : Nat) (rtz : Bool) (x y z : Nat) : Nat :=
  match f with
  | .fp g => fpElement g op rtz x y z
  | _ => intElement f op x y z

/-- The conversion of an element (R466, R126 to R129). -/
def convertElement (f t : Fmt) (rtz sat : Bool) (x : Nat) : Nat :=
  if f.isFp || t.isFp then
    let rne := !f.isFp && decide (t = .fp fp32)
    (t.encode (rtz && !rne) sat (f.decode x)).1
  else
    let v := f.codeInt x
    wrapCode t.codeWidth (if sat then clampInt t.bounds.1 t.bounds.2 v else v)

/-- The ratio of the elements per row of two formats (R466). -/
def partCount (f t : Fmt) : Nat := max f.perRow t.perRow / min f.perRow t.perRow

/-- A converted row (R466): part `p` of the source widened, or the source put at part `p` of the destination row `old`. -/
def convertRow (f t : Fmt) (rtz sat : Bool) (p : Nat) (a old : Row) : Row :=
  let xs := rowCodes f a
  let cv := convertElement f t rtz sat
  if t.perRow ≤ f.perRow then joinRow t (((xs.drop (p * t.perRow)).take t.perRow).map cv)
  else
    let part := joinNat t (xs.map cv)
    let bits := f.perRow * t.slot
    let hole := (2 ^ bits - 1) <<< (p * bits)
    BitVec.ofNat 4096 (old.toNat - (old.toNat &&& hole) + part <<< (p * bits))

/-- The special inputs of the transcendentals (R467); nothing where the function itself is evaluated. -/
def transSpecial (op : Nat) (x : Num) : Option Num :=
  let half : Num := .fin false 1 (-1)
  let negOne : Num := .fin true 1 0
  let root := op = 0x9C || op = 0x9D || op = 0x9F || op = 0xA0
  match x with
  | .nan n f => some (Num.nan n f).quiet
  | .inf false =>
    match op with
    | 0x9E => some .zero
    | 0x9F => some .zero
    | 0xA1 => some .one
    | 0xA2 => some .one
    | 0xA3 => some .defaultNan
    | 0xA4 => some .defaultNan
    | _ => some (.inf false)
  | .inf true =>
    match op with
    | 0x9A => some .zero
    | 0x9B => some .zero
    | 0xA2 => some .zero
    | 0xA1 => some negOne
    | 0x9E => some (.fin true 0 0)
    | _ => some .defaultNan
  | .fin n 0 e =>
    match op with
    | 0x9A => some .one
    | 0x9B => some .one
    | 0xA4 => some .one
    | 0x9C => some (.inf true)
    | 0x9D => some (.inf true)
    | 0x9E => some (.inf n)
    | 0x9F => some (.inf n)
    | 0xA2 => some half
    | _ => some (.fin n 0 e)
  | .fin true _ _ => if root then some .defaultNan else none
  | .fin false _ _ => none

/-- A transcendental evaluated in FP32 (R467): rcp and sqrt correctly rounded, the others within their bound. -/
def trans32 (op : Nat) (w : BitVec 32) : Num :=
  match transSpecial op (num32 w) with
  | some v => v
  | none =>
    match op, num32 w with
    | 0x9E, x => num32 (roundNE32 (Num.one.div x))
    | 0xA0, .fin _ m e => num32 (roundNE32 (sqrtNum m e))
    | _, _ => num32 (transBounded op w)

/-- A transcendental on an element (R467). -/
def transElement (g : FpFormat) (op x : Nat) : Nat :=
  (g.encode false false (trans32 op (roundNE32 (g.decode x)))).1

/-- vcmp's condition (R468). -/
def compareHolds (f : Fmt) (cond x y : Nat) : Bool :=
  let a := f.decode x
  let b := f.decode y
  if a.isNan || b.isNan then cond = 1 || cond = 6
  else
    match cond with
    | 0 => a.eq b
    | 1 => !a.eq b
    | 2 => a.lt b
    | 3 => !b.lt a
    | 4 => b.lt a
    | 5 => !a.lt b
    | 6 => false
    | _ => true

/-- A shift of a bit string of `w` bits (R468). -/
def shiftElement (op w x n : Nat) : Nat :=
  if op = 0xAC then (if n < w then x <<< n % 2 ^ w else 0)
  else if op = 0xAD then x >>> n
  else wrapCode w ((BitVec.ofNat w x).toInt >>> min n w)

/-- The 1 bits among the low `n` bits. -/
def onesIn (x : Nat) : Nat → Nat
  | 0 => 0
  | n + 1 => x % 2 + onesIn (x / 2) n

/-- Neighbours added with RNE (R144). -/
def addPairs : List (BitVec 32) → List (BitVec 32)
  | a :: b :: r => fadd32 a b :: addPairs r
  | l => l

/-- The pairwise tree of R144 over `n` levels. -/
def treeSum : Nat → List (BitVec 32) → BitVec 32
  | 0, l => l.headD 0
  | n + 1, l => treeSum n (addPairs l)

/-- The greatest or least of numbers by an order (R469). -/
def bestOf (better : Num → Num → Bool) : List Num → Num
  | [] => .zero
  | x :: r => r.foldl (fun m y => if better y m then y else m) x

/-- The FP32 result of a reduction of floating elements (R469, R144). -/
def fpReduce (op : Nat) (xs : List Num) : BitVec 32 :=
  match xs.find? Num.isNan with
  | some n => roundNE32 n.quiet
  | none =>
    match op with
    | 0xAF => treeSum (Nat.log2 xs.length) (xs.map roundNE32)
    | 0xB0 => treeSum (Nat.log2 xs.length) (xs.map fun x => roundNE32 (x.mul x))
    | 0xB1 => roundNE32 (bestOf (fun y m => m.lessTagged y) xs)
    | 0xB2 => roundNE32 (bestOf Num.lessTagged xs)
    | _ => roundNE32 (bestOf (fun y m => m.lessTagged y) (xs.map Num.magnitude))

/-- The result of a reduction of integer elements before it is wrapped (R469). -/
def intReduce (op : Nat) (xs : List Int) : Int :=
  let h := xs.headD 0
  match op with
  | 0xAF => xs.foldl (· + ·) 0
  | 0xB0 => xs.foldl (fun m x => m + x * x) 0
  | 0xB1 => xs.foldl max h
  | 0xB2 => xs.foldl min h
  | _ => xs.foldl (fun m x => max m x.natAbs) 0

/-- A row reduction's result: bytes 0 to 3 (R469). -/
def reduceRow (f : Fmt) (op : Nat) (a : Row) : Row :=
  if f.isFp then (fpReduce op ((rowCodes f a).map f.decode)).setWidth 4096
  else (BitVec.ofInt 32 (intReduce op ((rowCodes f a).map f.codeInt))).setWidth 4096

/-- The running FP32 values of a scan (R470, R144): the value before, the elements, the head flags. -/
def fpScan (maxima : Bool) : Option (BitVec 32) → List Num → List Bool → List (BitVec 32)
  | _, [], _ => []
  | run, x :: xs, heads =>
    let v := roundNE32 (if maxima then x.quiet else x)
    let next := match run with
      | none => v
      | some r =>
        if heads.headD false then v
        else if !maxima then fadd32 r v
        else if (num32 r).isNan then r
        else if x.isNan || (num32 r).lessTagged x then v
        else r
    next :: fpScan maxima (some next) xs heads.tail

/-- The running values of an integer scan (R470). -/
def intScan (maxima : Bool) : Option Int → List Int → List Bool → List Int
  | _, [], _ => []
  | run, x :: xs, heads =>
    let next := match run with
      | none => x
      | some r => if heads.headD false then x else if maxima then max r x else r + x
    next :: intScan maxima (some next) xs heads.tail

/-- A row scan (R470); `b` gives the head flags of vscanseg. -/
def scanRow (f : Fmt) (op : Nat) (a b : Row) : Row :=
  let heads := if op = 0xB6 then (rowCodes f b).map fun x => decide (x ≠ 0) else []
  let maxima := decide (op = 0xB5)
  let xs := rowCodes f a
  match f with
  | .fp g => joinRow f ((fpScan maxima none (xs.map f.decode) heads).map fun v => (g.encode false false (num32 v)).1)
  | _ => joinRow f ((intScan maxima none (xs.map f.codeInt) heads).map (wrapCode f.codeWidth))

/-- A move within a row (R471). -/
def moveRow (f : Fmt) (op : Nat) (a b : Row) : Row :=
  let xs := rowCodes f a
  let n := f.perRow
  let ks := rowSlots f b
  let k := ks.headD 0 % n
  match op with
  | 0xB7 => joinRow f (ks.map fun i => xs.getD (i % n) 0)
  | 0xB8 => joinRow f ((List.range n).map fun i => xs.getD ((i + k) % n) 0)
  | 0xB9 => joinRow f (List.replicate n (xs.getD k 0))
  | _ => joinRow f xs

/-- Logic on the whole row (R468). -/
def logicRow (op : Nat) (a b : Row) : Row :=
  match op with
  | 0xA7 => a &&& b
  | 0xA8 => a ||| b
  | 0xA9 => a ^^^ b
  | 0xAA => a &&& ~~~b
  | _ => ~~~a

/-- One row step (R464 to R471): OP, the field sub[7:5], the option field of VCVT, the format of SHP and that of a conversion, and the rows
of a, b and d. -/
def rowResult (op : Nat) (sub : BitVec 3) (opt : BitVec 5) (f t : Fmt) (a b d : Row) : Row :=
  if op < 0x90 then mapRow f (arithElement f op (sub.getLsbD 0)) a b d
  else if op < 0x9A then convertRow f t (opt.getLsbD 0) (opt.getLsbD 1) sub.toNat a d
  else if op < 0xA5 then
    match f with
    | .fp g => mapRow f (fun x _ _ => transElement g op x) a b d
    | _ => a
  else if op = 0xA5 then
    mapRow f (fun x y _ => if compareHolds f sub.toNat x y then 2 ^ f.codeWidth - 1 else 0) a b d
  else if op = 0xA6 then mapRow f (fun x y z => if z ≠ 0 then x else y) a b d
  else if op < 0xAC then logicRow op a b
  else if op < 0xAF then mapRow f (fun x y _ => shiftElement op f.codeWidth x y) a b d
  else if op < 0xB4 then reduceRow f op a
  else if op < 0xB7 then scanRow f op a b
  else if op = 0xBF then mapRow f (fun x _ _ => onesIn x f.codeWidth) a b d
  else moveRow f op a b

end Sys2Proof.Machine
end

