-- ==== Sys2Proof/Machine/Place.lean ====
section
/-!
DEFINITION. Delivery by coordinates, as a copy engine and a receiving port share it (R194, R249, R251, R266 to R269): elements translated,
checked by Sorrel and written, counted into arrival maps; ordered sums formed.
-/

namespace Sys2Proof.Machine

/-- Who delivers: the copy engine of a core on behalf of its issuing cluster, or a port (R194, R198). `who` is the party Sorrel sees,
`vector` its vector clock, `bitAgent` the identifier that sets map bits, `issuer` the cluster whose command it is. -/
structure Deliverer where
  viewer : Viewer
  who : Accessor
  vector : Tab Nat
  bitAgent : Nat
  issuer : Option Nat

/-- What a stop of translation means to a delivery (R157, R161, R255, R266). -/
def Hold.answer : Hold → Answer
  | .trap t =>
    if t.cause = 0x13 then .stale
    else if t.cause = 0x15 then .oshape
    else if t.cause = 0x19 then .timeout
    else .fault t.cause (t.trapv.extractLsb' 24 8).toNat (t.trapv.extractLsb' 32 32)
  | .fault t => if t.cause = 0x17 then .fault 0x17 0 (t.trapv.extractLsb' 32 32) else .notReady
  | _ => .notReady

/-- What delivering a run of elements came to: done with the state, the elements written, and the race and the watchpoint it met; not now,
because the metadata's unit of this handle's object, or a home or an era change, holds it; not now, because a unit of this handle's object is not present;
or an answer that ends it. -/
inductive Wrote where
  | ok (s : State) (n : Nat) (race : Option DWord) (strike : Option Nat)
  | held (unit : Option (BitVec 32))
  | absent (h : BitVec 32)
  | answer (a : Answer)

/-- A stop of translation through a handle, as a delivery takes it. -/
def wroteOf (h : BitVec 32) (e : Hold) : Wrote := if e.answer = .notReady then .absent h else .answer e.answer

/-- Every element of a delivery translated (R154, R158, R159). -/
def State.locateRun (s : State) (v : Viewer) (r : ObjRec) (h : BitVec 32) (acc : Nat) (shadow : Bool) :
    List (List Int) → Except Hold (List Part)
  | [] => .ok []
  | c :: cs =>
    match s.locate v r h acc c shadow with
    | .error e => .error e
    | .ok p =>
      match s.locateRun v r h acc shadow cs with
      | .error e => .error e
      | .ok ps => .ok (p :: ps)

/-- An access performed unchecked, counted once; a release's missing snapshot too (R211). -/
def State.bumpUnchecked (s : State) (d : Deliverer) : State :=
  let s := s.bumpRing d.who.ring 12
  if d.who.rel then s.bumpRing d.who.ring 20 else s

/-- Must the check of an engine's or a port's elements wait: for an era change or a home (false), or for its metadata's unit (true) (R205, R211)? `late`:
the wait for the unit has lasted 10 ms. -/
def State.checkBlocked (s : State) (d : Deliverer) (r : ObjRec) (late : Bool) (ps : List Part) : Option Bool :=
  if !r.rc || !d.who.checked || (linesOf ps).isEmpty then none
  else if s.eraDue then some false
  else
    match s.planCheck d.viewer r.metaH r.span d.who.rel (linesOf ps) with
    | .unchecked => none
    | .wait => if late then none else some true
    | .go lines => if s.metaHeld d.viewer r.metaH r.span d.who.rel lines then some false else none

/-- What checking a run came to: the state and the race found, or a wait, for the metadata's unit or for something else. -/
inductive RunCheck where
  | ok (s : State) (race : Option DWord)
  | held (isMeta : Bool)

/-- Sorrel's check of an engine's or a port's elements (R199, R210, R211), reported with the coordinates of the first (R217; DESIGN CHOICE, log 94). A port's acquire joins the snapshots into the port group's vector clock, and
where there was one to join the group's clock advances (R201, R202). -/
def State.checkRun (s : State) (d : Deliverer) (r : ObjRec) (h : BitVec 32) (acc : Nat) (write sync late : Bool) (coord : List Int)
    (ps : List Part) : RunCheck :=
  if !r.rc || !d.who.checked || (linesOf ps).isEmpty then .ok s none
  else
    match s.checkBlocked d r late ps with
    | some m => .held m
    | none =>
      match s.planCheck d.viewer r.metaH r.span d.who.rel (linesOf ps) with
      | .go lines =>
        let k := { d.who with write := write, sync := sync, acc := acc, handle := h, coord := coord }
        let joins := s.joinsSnapshot k d.viewer r.metaH r.span lines
        let (s, vec, race) := s.checkLines k d.viewer r.metaH r.span d.vector lines
        let s := if k.acq then s.setVector k.own vec else s
        .ok (if joins then s.tick k.own else s) race
      | _ => .ok (s.bumpUnchecked d) none

/-- DIRTY set before a delivery's write into a resident object (R166, R167). -/
def State.dirtyFor (s : State) (v : Viewer) (p : Part) : State :=
  match p.ru with
  | some a => if (s.ruBits v a).getLsbD 6 then s else s.setDirty a
  | none => s

/-- The value of an element at its home. -/
def State.elementAt (s : State) (v : Viewer) (p : Part) : Nat := s.partValue (s.coreAt v.core) false p

/-- One element written at its home, its own bits alone (R150). -/
def State.putElementAt (s : State) (v : Viewer) (p : Part) (x : Nat) : State :=
  let bytes := (p.bit + p.width + 7) / 8
  match p.place with
  | .device a => (s.dirtyFor v p).setHomeCells a (p.cells x)
  | .scratch o =>
    let c := s.coreAt v.core
    s.setCoreAt v.core { c with scratch := c.scratch.write o bytes (replaceBits (c.scratch.read o bytes) p.bit p.width x) }
  | _ => s

/-- The elements of a run written, or added as FP32 FADDs (R184, R268). -/
def State.putRun (s : State) (v : Viewer) (add : Bool) : List (Part × Nat) → State
  | [] => s
  | (p, x) :: r =>
    let x := if add then (fadd32 (BitVec.ofNat 32 (s.elementAt v p)) (BitVec.ofNat 32 x)).toNat else x
    (s.putElementAt v p x).putRun v add r

/-- Is an element of a run written somewhere here? -/
def Part.lands (p : Part) : Bool :=
  match p.place with
  | .device _ => true
  | .scratch _ => true
  | _ => false

/-- Does a home hold some element of a run back (R168, R197)? -/
def State.runHeld (s : State) (write : Bool) (ps : List Part) : Bool :=
  ps.any fun p => match p.key with
    | some k => s.homeHolds k write
    | none => false

/-- A run of elements written at coordinates of an object (R267, R268): checked, performed, watched. An element that belongs to another
node fails as a forwarded access met again does (R156). -/
def State.writeRun (s : State) (d : Deliverer) (r : ObjRec) (h : BitVec 32) (acc : Nat) (shadow add late : Bool)
    (es : List (List Int × Nat)) : Wrote :=
  match s.locateRun d.viewer r h 1 shadow (es.map Prod.fst) with
  | .error e => wroteOf h e
  | .ok ps =>
    if ps.any Part.isRemote then .answer (.fault 0x12 11 h)
    else if d.viewer.isCore && ps.any (s.partCut d.viewer.core) then .answer (.fault 0x1A 0 h)
    else if s.runHeld true ps then .held none
    else
      match s.checkRun d r h acc true add late ((es.map Prod.fst).headD []) ps with
      | .held m => .held (if m then some h else none)
      | .ok s race =>
        let s := (s.cacheUse d.viewer h ps).putRun d.viewer add (ps.zip (es.map Prod.snd))
        .ok (s.watchRun d.who.report true ps) (ps.filter Part.lands).length race (s.strike true ps)

/-- Why an object's arrival map cannot count: nothing while it can, not ready, or AMAP (R251). A map that fails translation counts as one
that is too small; so does one whose bytes another node holds, where no packet of R266 could count (DESIGN CHOICE, log 76). -/
def State.mapTrouble (s : State) (v : Viewer) (r : ObjRec) (g : Nat) : Option Answer :=
  if r.amap = 0 then none
  else
    match s.freshRecord v r.amap 0 with
    | .error _ => some .amap
    | .ok m =>
      if mapTooSmall r m then some .amap
      else
        match s.placeOf v m r.amap 0 [] (g / 8) false, s.placeOf v m r.amap 0 [] (bitmapBytes r.chunkCount + 4 * g) false with
        | .ok (.remote _ _, _), _ => some .amap
        | _, .ok (.remote _ _, _) => some .amap
        | .ok _, .ok _ => none
        | .error (.fault _), _ => some .notReady
        | _, .error (.fault _) => some .notReady
        | _, _ => some .amap

/-- What a delivery that sets a bit does to the clocks (R201, R203): the delivery clock of the issuing cluster, or the port group's clock. -/
def State.bitClocks (s : State) (d : Deliverer) : State :=
  match d.issuer with
  | some x => { s with dclk := s.dclk.set 0 x (max (s.dclk.get 0 x) d.who.clk) }
  | none => s.tick portGroup

/-- What counting, or forming an ordered result, came to: the state, an answer where forming failed, and the race and the watchpoint it met. -/
structure Counted where
  s : State
  answer : Option Answer
  race : Option DWord
  strike : Option Nat

/-- `k` writes counted into chunk `g` (R251): the add that takes the counter to T forms the result, where there is one to form, and then sets
the bit (R194, R269); an answer where forming it failed. -/
def State.countRun (s : State) (d : Deliverer) (h : BitVec 32) (r : ObjRec) (g k nc : Nat) (form : State → Counted) : Counted :=
  if r.amap = 0 ∨ k = 0 then ⟨s, none, none, none⟩
  else
    let t := r.chunkInShape g * nc
    let counted := s.mapStrike d.viewer r.amap (bitmapBytes r.chunkCount + 4 * g) 4
    let (s, old) := s.addMapCount d.viewer r.amap r.chunkCount g k d.who.report
    if old < t ∧ t ≤ old + k then
      let c := form s
      if c.answer.isSome then { c with strike := counted.or c.strike }
      else
        { c with
          s := (c.s.setMapBit d.viewer r.amap h g d.bitAgent d.who.report).bitClocks d
          strike := counted.or (c.strike.or (c.s.mapStrike d.viewer r.amap (g / 8) 1)) }
    else ⟨s, none, none, counted⟩

/-- The coordinates of element U of the chunk at an origin (R150). -/
def ObjRec.uCoord (r : ObjRec) (origin : List Int) (u : Nat) : List Int :=
  let e := r.chunkExt
  let q := [u % e 0, u / e 0 % e 1, u / (e 0 * e 1) % e 2, u / (e 0 * e 1 * e 2)]
  (origin.zip q).map fun p => p.1 + (p.2 : Int)

/-- The elements U of a chunk inside the shape, in order. -/
def ObjRec.chunkElements (r : ObjRec) (g : Nat) : List (Nat × List Int) :=
  let o := (r.chunkOrigin g).map fun n => (n : Int)
  ((List.range r.chunkSize).map fun u => (u, r.uCoord o u)).filter fun e => (r.outside e.2).isNone

/-- The linear index of staging element U of a contribution (R269). -/
def stageIndex (r : ObjRec) (g nc rank u : Nat) : Nat := (g * nc + rank) * r.chunkSize + u

/-- The staged contributions to element U of chunk `g`: their coordinates in the staging object (R269). -/
def stagedCoords (r : ObjRec) (g nc u : Nat) : List (List Int) := (List.range nc).map fun k => [((stageIndex r g nc k u : Nat) : Int), 0, 0, 0]

/-- The ACC code of a delivery's read (R217). -/
def Deliverer.readCode (d : Deliverer) : Nat := if d.viewer.isCore then 10 else 12

/-- A failure while an ordered result is formed (R269): FAULT with its cause, or STALE. -/
def formFailure (h : BitVec 32) : Hold → Answer
  | .trap t => if t.cause = 0x13 then .stale else .fault t.cause 0 (t.trapv.extractLsb' 32 32)
  | .fault t => .fault t.cause 0 (t.trapv.extractLsb' 32 32)
  | _ => .fault 0x16 0 h

/-- Elements that forming a result reads or writes: located, and here (R154, R156, R313). -/
def State.formParts (s : State) (d : Deliverer) (r : ObjRec) (h : BitVec 32) (acc : Nat) (shadow : Bool) (cs : List (List Int)) :
    Except Answer (List Part) :=
  match s.locateRun d.viewer r h acc shadow cs with
  | .error e => .error (formFailure h e)
  | .ok ps =>
    if ps.any Part.isRemote then .error (.fault 0x12 11 h)
    else if d.viewer.isCore && ps.any (s.partCut d.viewer.core) then .error (.fault 0x1A 0 h)
    else .ok ps

/-- Must forming the results of these elements wait: for a home or an era change, or for the metadata's unit of this handle's object (R168, R197, R205,
R211)? -/
def State.formBlocked (s : State) (d : Deliverer) (h aux : BitVec 32) (r st : ObjRec) (shadow late : Bool) (g nc : Nat) :
    List (Nat × List Int) → Option (Option (BitVec 32))
  | [] => none
  | (u, c) :: es =>
    let stop := fun (o : ObjRec) (oh : BitVec 32) (w : Bool) (x : Except Answer (List Part)) => match x with
      | .error _ => none
      | .ok ps => if s.runHeld w ps then some none else (s.checkBlocked d o late ps).map fun m => if m then some oh else none
    match stop st aux false (s.formParts d st aux 0 false (stagedCoords r g nc u)), stop r h true (s.formParts d r h 1 shadow [c]) with
    | some m, _ => some m
    | none, some m => some m
    | none, none => s.formBlocked d h aux r st shadow late g nc es

/-- The ordered results of a chunk written to the destination, up to the first element that fails (R269): staged values are read and results written as
the delivery's own accesses, checked by Sorrel (R199). -/
def State.formElements (s : State) (d : Deliverer) (h aux : BitVec 32) (r st : ObjRec) (shadow : Bool) (acc g nc : Nat) (race : Option DWord)
    (strike : Option Nat) : List (Nat × List Int) → Counted
  | [] => ⟨s, none, race, strike⟩
  | (u, c) :: es =>
    match s.formParts d st aux 0 false (stagedCoords r g nc u), s.formParts d r h 1 shadow [c] with
    | .error a, _ => ⟨s, some a, race, strike⟩
    | _, .error a => ⟨s, some a, race, strike⟩
    | .ok from_, .ok to_ =>
      let s := (s.cacheUse d.viewer aux from_).cacheUse d.viewer h to_
      match s.checkRun d st aux d.readCode false false true ((stagedCoords r g nc u).headD []) from_ with
      | .held _ => ⟨s, some .notReady, race, strike⟩
      | .ok s race₁ =>
        let xs := from_.map fun p => BitVec.ofNat 32 (s.elementAt d.viewer p)
        let x := match xs with
          | [] => 0
          | x :: xs => xs.foldl fadd32 x
        match s.checkRun d r h acc true false true c to_ with
        | .held _ => ⟨s, some .notReady, race, strike⟩
        | .ok s race₂ =>
          let s := (s.watchRun d.who.report false from_).putRun d.viewer false (to_.map fun p => (p, x.toNat))
          let race := race.or (race₁.or race₂)
          let strike := strike.or ((s.strike false from_).or (s.strike true to_))
          (s.watchRun d.who.report true to_).formElements d h aux r st shadow acc g nc race strike es

/-- An ordered result formed (R269): the staging object is looked up again. -/
def State.formChunk (s : State) (d : Deliverer) (h aux : BitVec 32) (r : ObjRec) (shadow : Bool) (acc g nc : Nat) : Counted :=
  match s.lookup d.viewer aux 0 with
  | .error e => ⟨s, some (formFailure aux e), none, none⟩
  | .ok st => s.formElements d h aux r st shadow acc g nc none none (r.chunkElements g)

/-- A contribution or placement of elements of chunk `g`, given as (U, coordinates, code in the destination's format): PLACE (0), REDU (1) or
REDO (2) of R266. -/
structure Delivery where
  opc : Nat
  handle : BitVec 32
  aux : BitVec 32
  shadow : Bool
  nc : Nat
  rank : Nat
  chunk : Nat
  elements : List (Nat × List Int × Nat)

/-- A staged contribution (R269): written to the staging object, an FP32 object of rank 1. -/
def State.writeStaged (s : State) (d : Deliverer) (r : ObjRec) (x : Delivery) (acc : Nat) (late : Bool) : Wrote :=
  match s.lookupData d.viewer x.aux with
  | .error e => wroteOf x.aux e
  | .ok st =>
    let es := x.elements.map fun e => ([((stageIndex r x.chunk x.nc x.rank e.1 : Nat) : Int), 0, 0, 0], e.2.2)
    if st.fmt ≠ 0 ∨ st.rank ≠ 1 ∨ (es.any fun e => (st.outside e.1).isSome) then .answer (.fault 0x15 0 x.aux)
    else s.writeRun d st x.aux acc false false late es

/-- Must a delivery wait before it writes anything: for the homes of its map, or, where it brings the last contributions, for what forming the result needs? -/
def State.deliverBlocked (s : State) (d : Deliverer) (r : ObjRec) (x : Delivery) (late : Bool) (n : Nat) : Option (Option (BitVec 32)) :=
  if r.amap = 0 then none
  else if s.mapHeld d.viewer r.amap r.chunkCount x.chunk then some none
  else
    let old := s.mapCount d.viewer r.amap r.chunkCount x.chunk
    let t := r.chunkInShape x.chunk * x.nc
    if x.opc = 2 ∧ old < t ∧ t ≤ old + n then
      match s.lookup d.viewer x.aux 0 with
      | .error _ => none
      | .ok st => s.formBlocked d x.handle x.aux r st x.shadow late x.chunk x.nc (r.chunkElements x.chunk)
    else none

/-- A delivery of whole elements inside the shape (R251, R267 to R269): the elements written and counted, or an answer that ends it. With
AMAP trouble the writes stand and nothing is counted; an ordered contribution without a map writes nothing. `extra` writes done elsewhere are
counted with them. -/
def State.deliver (s : State) (d : Deliverer) (r : ObjRec) (x : Delivery) (acc : Nat) (late : Bool) (extra : Nat) : Wrote × Option Answer :=
  if x.opc ≠ 0 ∧ r.fmt ≠ 0 then (.answer .dstfmt, none)
  else if x.opc = 2 ∧ r.amap = 0 then (.answer .amap, none)
  else
    let trouble := s.mapTrouble d.viewer r x.chunk
    if trouble = some .notReady then (.absent r.amap, none)
    else if x.opc = 2 ∧ trouble.isSome then (.answer .amap, none)
    else
      match (if trouble.isSome then none else s.deliverBlocked d r x late (x.elements.length + extra)) with
      | some m => (.held m, none)
      | none =>
        let w := if x.opc = 2 then s.writeStaged d r x acc late
          else s.writeRun d r x.handle acc x.shadow (decide (x.opc = 1)) late (x.elements.map fun e => (e.2.1, e.2.2))
        match w with
        | .ok s n race strike =>
          if trouble.isSome then (.ok s n race strike, some .amap)
          else
            let nc := if x.opc = 0 then 1 else x.nc
            let form := fun (s : State) => if x.opc = 2 then s.formChunk d x.handle x.aux r x.shadow acc x.chunk nc else ⟨s, none, none, none⟩
            let c := s.countRun d x.handle r x.chunk (n + extra) nc form
            (.ok c.s n (race.or c.race) (strike.or c.strike), c.answer)
        | w => (w, none)

end Sys2Proof.Machine
end

