-- ==== Sys2Proof/Machine/Saving.lean ====
section
/-!
DEFINITION. How a save begins (R297 to R301): the range list, what the save names, and PHINT (R440).
-/

namespace Sys2Proof.Machine

/-- Eight bytes of a range list as the task's loads see them; nothing where they cannot be read (R298). -/
def State.listEntry (s : State) (n : Nat) (h : BitVec 32) (r : ObjRec) (off : Nat) : Option (Nat × Nat) :=
  if r.span < off + 8 then none
  else
    let c := s.coreAt n
    let word := fun (bs : List Byte) => (natOfBytes (bs.take 4), natOfBytes (bs.drop 4))
    match s.placeOf (s.viewer n) r h 0 [] off false with
    | .ok (.device a, _) => some (word (s.taskBytes c a 8))
    | .ok (.scratch o, _) => some (word (c.scratch.bytes o 8))
    | _ => none

/-- The entries of a range list from entry `i`, up to the first of length 0; nothing where one cannot be read (R298). -/
def State.listEntries (s : State) (n : Nat) (h : BitVec 32) (r : ObjRec) (off : Nat) : Nat → Option (List (Nat × Nat))
  | 0 => some []
  | k + 1 =>
    match s.listEntry n h r off with
    | none => none
    | some (o, len) => if len = 0 then some [] else (s.listEntries n h r (off + 8) k).map ((o, len) :: ·)

/-- May an entry stand in a range list (R298)? -/
def rangeOk (e : Nat × Nat) : Bool := decide (e.1 + e.2 ≤ 0x400000) && decide (e.1 % 64 = 0) && decide (e.2 % 64 = 0)

/-- The ranges a PHINT names; nothing where the list is bad (R298). -/
def State.rangeList (s : State) (n : Nat) (p : DWord) : Option (List (Nat × Nat)) :=
  let h := p.extractLsb' 32 32
  if h = 0 then some []
  else
    match s.lookup (s.viewer n) h 0 with
    | .error _ => none
    | .ok r =>
      match s.listEntries n h r (p.extractLsb' 0 32).toNat 256 with
      | some l => if l.all rangeOk then some l else none
      | none => none

/-- A forced save names everything (R300). -/
def forcedSave (badList : Bool) : Save :=
  ⟨true, badList, 0xFFFF, 0xFFFFFFFF, 0xFF, 0xF, [(0, 0x400000)], false, 0, 0⟩

/-- The save that a PHINT begins (R298, R299): the fixed range is saved whatever it names. -/
def namedSave (lw : DWord) (ranges : List (Nat × Nat)) : Save :=
  ⟨false, false, lw.extractLsb' 0 16, lw.extractLsb' 16 32, lw.extractLsb' 48 8, lw.extractLsb' 56 4,
    ranges ++ [(0x3FB000, 0x5000)], false, 0, 0⟩

/-- A save of core `n` begins: the clusters stop, a word of DXW that waits is abandoned, the request is met, the device counts it (R287, R301 step 1, R330). Where a trap is pending it satisfies the
request, and no save is taken (R291). -/
def State.beginSave (s : State) (n : Nat) (v : Save) : State :=
  if (s.coreAt n).trapOwed then s.setCoreAt n { s.coreAt n with preempt := none }
  else
  let s := s.stopClusters n
  let v := { v with infl := (s.coreAt n).commands.length }
  let c := s.coreAt n
  (s.setCoreAt n { c with save := some v, preempt := none, halting := false, dxw := dxwDone c.dxw, dxwIssued := none }).count keyPreempt

/-- The save a PHINT with these operands begins (R298). -/
def State.phintSave (s : State) (n : Nat) (lw rl : DWord) : Save :=
  match s.rangeList n rl with
  | none => forcedSave true
  | some l => if lw.extractLsb' 60 4 ≠ 0 then forcedSave false else namedSave lw l

/-- PHINT (R297, R440): it completes, and where a request is pending the save begins. -/
def execPhint (a b : BitVec 5) (m n : Bool) (s : State) : Host.Outcome State Fault Refusal :=
  runWord (.phint a b m n) s fun s => do
    let lw ← s.src a m
    let rl ← s.src b n
    if s.cur.preempt.isNone then .ok s.retire
    else .ok (s.retire.beginSave s.core (s.phintSave s.core lw rl))

end Sys2Proof.Machine
end

