-- ==== Sys2Proof/Machine/Waits.lean ====
section
/-!
DEFINITION. The waits: WAITF (R477), WAITD (R476), WAITC and WAITCT (R475), WAITA (R474), and the limits on them (R61, R94).
-/

namespace Sys2Proof.Machine

/-- A scalar at the register itself, as WAITF's step of the focused cluster sees it. -/
def State.viewAt (s : State) (also : Option Bool) (r : BitVec 5) : DWord × Bool := s.cur.viewNow s.dcc s.cluster also r

/-- The wait of a WAITF for register `r` to be full. -/
def waitFull (r : BitVec 5) : Hold := .wait 1 (r.setWidth 64)

/-- The wait of a WAITF for register `r` to be empty. -/
def waitEmpty (r : BitVec 5) : Hold := .wait 5 (r.setWidth 64)

/-- WAITF.READ (R477): the takes and puts alone see the register at once (R91). -/
def execWaitfRead (d a : BitVec 5) (s : State) : Host.Outcome State Fault Refusal :=
  runWord (.waitfRead d a) s fun s => do
    if !(s.view a).2 then .error (waitFull a) else
    s.aluDest d
    .ok ((s.putScal d (s.view a).1).retire)

/-- WAITF.TAKE (R96, R477): the value is read and the register emptied in one step; the write to d follows. -/
def execWaitfTake (d a : BitVec 5) (s : State) : Host.Outcome State Fault Refusal :=
  runWord (.waitfTake d a) s fun s => do
    let (v, full) := s.viewAt (some false) a
    if !full then .error (waitFull a) else
    s.markFree
    s.aluDest d
    let s := s.setCur (s.cur.change s.dcc s.cluster a v false)
    .ok ((s.putScal d v).retire)

/-- WAITF.PUT (R477): d must be empty; a wait for its pending producer is none of FEMODE's (R93). -/
def execWaitfPut (d a : BitVec 5) (s : State) : Host.Outcome State Fault Refusal :=
  runWord (.waitfPut d a) s fun s => do
    if (s.viewAt (some true) d).2 then .error (waitEmpty d) else
    s.aluDest d
    let v ← s.src a false
    .ok ((s.putScal d v).retire)

/-- WAITF.EMPTY (R477). -/
def execWaitfEmpty (a : BitVec 5) (s : State) : Host.Outcome State Fault Refusal :=
  runWord (.waitfEmpty a) s fun s => if (s.view a).2 then .error (waitEmpty a) else .ok s.retire

/-- WAITD (R476): until DCC has reached the target; d takes DCC. -/
def execWaitd (d a : BitVec 5) (m : Bool) (s : State) : Host.Outcome State Fault Refusal :=
  runWord (.waitd d a m) s fun s => do
    let t ← s.src a m
    s.aluDest d
    if s.dcc < t.toNat then .error (.wait 7 0) else
    .ok ((s.putScal d (BitVec.ofNat 64 s.dcc)).retire)

/-- The scratchpad offset of command `n`'s completion record (R253). -/
def ringSlot (n : BitVec 16) : Nat := 0x3FB000 + 32 * (n.toNat % 128)

/-- Is command `n` of a core still in flight (R252)? -/
def Core.inFlight (c : Core) (n : BitVec 16) : Bool := c.commands.any fun x => x.id = n

/-- The outcome of waiting for command `n` (R475): not issued, complete with its slot perhaps reused, or the slot's record. -/
def Core.waitCommand (c : Core) (n : BitVec 16) : Except Hold (Option DWord) :=
  let g := (c.cmdn - n).toNat
  if g = 0 ∨ 2 ^ 15 < g then .error (trapOf 0x04)
  else if 128 < g then .ok (some 0x100)
  else if c.inFlight n then .ok none
  else .ok (some (BitVec.ofNat 64 (c.scratch.read (ringSlot n) 1)))

/-- A completion acquired: the engine horizon of the cluster that issued the command takes its clock (R203, R475). -/
def State.acquireCommand (s : State) (n : BitVec 16) : State :=
  match s.cur.cmdClk.find n.toNat with
  | some k => s.joinStamp (agentId s.core s.cluster) k
  | none => s

/-- WAITC (R475). -/
def execWaitc (d a : BitVec 5) (m : Bool) (s : State) : Host.Outcome State Fault Refusal :=
  runWord (.waitc d a m) s fun s => do
    let n ← s.src a m
    let id := n.extractLsb' 0 16
    let r ← s.cur.waitCommand id
    s.aluDest d
    match r with
    | none => .error (.wait 3 (id.setWidth 64))
    | some v => .ok (((s.acquireCommand id).putScal d v).retire)

/-- Has the focused word's wait for its command's record reached its limit (R475)? It has issued once its sources are read. -/
def State.waitedFor (s : State) (limit : Nat) : Bool :=
  s.cl.since.isSome && decide (s.cl.waitKind = 3) && decide (s.cl.waitFrom + limit ≤ s.dcc)

/-- WAITCT (R475): as WAITC, with a limit counted from issue; the record wins where both fall together. -/
def execWaitct (d a b : BitVec 5) (m n : Bool) (s : State) : Host.Outcome State Fault Refusal :=
  runWord (.waitct d a b m n) s fun s => do
    let k ← s.src a m
    let limit ← s.src b n
    if limit = 0 then .error (trapOf 0x04) else
    let id := k.extractLsb' 0 16
    let r ← s.cur.waitCommand id
    s.aluDest d
    match r with
    | none => if s.waitedFor limit.toNat then .ok ((s.putScal d 0x200).retire) else .error (.wait 3 (id.setWidth 64))
    | some v => .ok (((s.acquireCommand id).putScal d v).retire)

/-- The chunks a WAITA waits for, and the map's handle; or its trap (R474): the map's size is looked at before its handle is checked. -/
def State.waitaChunks (s : State) (h v e : DWord) : Except Hold (BitVec 32 × List Nat) := do
  let hd := h.extractLsb' 32 32
  let r ← s.freshRecord s.here hd 0
  let small : Bool := match s.findRecord s.here r.amap 0 with
    | .ok map => mapTooSmall r map
    | .error _ => false
  if r.amap = 0 || small then .error (.trap (xlateInfo 0x12 hd 13 0 0 [] 0)) else
  let _ ← s.lookup s.here r.amap 0
  let start : List Int :=
    [(h.extractLsb' 0 32).toInt, (v.extractLsb' 0 32).toInt, (v.extractLsb' 32 32).toInt, ((e.extractLsb' 48 16).toNat : Int)]
  let ext := [(e.extractLsb' 0 16).toNat, (e.extractLsb' 16 16).toNat, (e.extractLsb' 32 16).toNat, 1]
  .ok (r.amap, r.chunksMeeting start ext)

/-- The object word of a WAITA's wait (R339): handle and chunk. -/
def chunkWord (h : DWord) (g : Nat) : DWord := h.extractLsb' 32 32 ++ BitVec.ofNat 32 g

/-- The map's handle and the chunks of the focused WAITA: as it found them when it read its operands, or now (R10, R474). -/
def State.waitaFound (s : State) (h v e : DWord) : Except Hold (BitVec 32 × List Nat) :=
  match s.cl.found with
  | amap :: gs => .ok (BitVec.ofNat 32 amap, gs)
  | [] => s.waitaChunks h v e

/-- The focused WAITA waits, with what it has found. -/
def State.waitaWaits (s : State) (h : DWord) (amap : BitVec 32) (gs : List Nat) (g : Nat) : State :=
  (s.setCl { s.cl with found := amap.toNat :: gs }).waited 2 (chunkWord h g)

/-- The chunk among these whose bit was set last (R339). -/
def State.lastChunk (s : State) (h : DWord) (gs : List Nat) : Nat :=
  gs.foldl (fun m g => if s.bitAgents.get 0 (chunkWord h m).toNat < s.bitAgents.get 0 (chunkWord h g).toNat then g else m) (gs.headD 0)

/-- WAITA (R474): until the bits of every chunk that meets the rectangle are set; its success is an acquire at device scope (R194, R203). -/
def execWaita (d a b : BitVec 5) (m n : Bool) (s : State) : Host.Outcome State Fault Refusal :=
  runWord (.waita d a b m n) s fun s => do
    let h ← s.src a m
    let v ← s.src b n
    let e ← s.srcDef d
    let (amap, gs) ← s.waitaFound h v e
    match s.lookForChunks s.core (askWord s.cluster) s.here amap gs with
    | .failed _ e => .error e
    | .asking s => .ok (s.waitaWaits h amap gs (gs.headD 0))
    | .ok s (some g) => .ok (s.waitaWaits h amap gs g)
    | .ok s none =>
      let s := s.setCl { s.cl with waitObj := chunkWord h (s.lastChunk h gs) }
      .ok ((s.joinMap (agentId s.core s.cluster)).retire)

/-- May cluster `k`'s word be waiting in block mode on a register (R94)? -/
def ClusterState.blocked (x : ClusterState) : Bool := x.waitKind = 1 || x.waitKind = 5

/-- The limit of block-mode waits (R95). -/
def ClusterState.limit (x : ClusterState) : Nat := (x.femode.extractLsb' 32 32).toNat

/-- FEMODE_LIMIT_EXPIRY (R94, R477): a block-mode wait that has lasted LIMIT cycles raises the restartable fault FEMPTY. A wait for a pending
producer is none (R93). -/
def execFemodeLimitExpiry (core : Nat) (c : Cluster) (s : State) : Host.Outcome State Fault Refusal :=
  .next (
    let x := (s.coreAt core).cl c
    if (s.coreAt core).stop.isNone ∧ x.running ∧ x.since.isSome ∧ x.blocked ∧ x.limit ≠ 0 ∧ x.waitFrom + x.limit ≤ s.dcc then
      ({ s with core := core, cluster := c } : State).stopPrecise .fault false ⟨0x02, 0, 0, [], 0⟩
    else s)

/-- The sync wait count of a cluster (R61). -/
def ClusterState.syncWaited (x : ClusterState) (now : Nat) : Nat :=
  x.syncCount + match x.syncSince with
    | some t => now - t
    | none => 0

/-- SYNCTO_EXPIRY (R61): the count of some cluster has reached LIMIT: the task traps. Of several clusters the first in the order C, A, V, M
is reported (R291). -/
def execSynctoExpiry (core : Nat) (s : State) : Host.Outcome State Fault Refusal :=
  .next (
    let c := s.coreAt core
    let limit := (c.syncto.extractLsb' 0 32).toNat
    if c.stop.isSome ∨ !c.busy ∨ limit = 0 then s
    else
      match [Cluster.C, .A, .V, .M].find? fun k => (c.cl k).running && decide (limit ≤ (c.cl k).syncWaited s.dcc) with
      | some k => ({ s with core := core, cluster := k } : State).stopPrecise .trap false ⟨0x03, 0, 0, [], 0⟩
      | none => s)

end Sys2Proof.Machine
end

