-- ==== Sys2Proof/Machine/Engine.lean ====
section
/-!
DEFINITION. The copy engine (R246 to R257, R388 to R391, R452 to R455): descriptors, acceptance, transfers chunk by chunk, completion records.
-/

namespace Sys2Proof.Machine

/-- A field of a command descriptor (R247). -/
def descAt (x : BitVec 512) (lo n : Nat) : Nat := bitsAt x.toNat lo n

/-- SRCH. -/
def descSrch (x : BitVec 512) : BitVec 32 := x.extractLsb' 0 32

/-- DSTH. -/
def descDsth (x : BitVec 512) : BitVec 32 := x.extractLsb' 32 32

/-- SC, the source's start coordinates. -/
def descSc (x : BitVec 512) : List Int := (List.range 4).map fun k => (x.extractLsb' (64 + 32 * k) 32).toInt

/-- DC, the destination's start coordinates. -/
def descDc (x : BitVec 512) : List Int := (List.range 4).map fun k => (x.extractLsb' (192 + 32 * k) 32).toInt

/-- EXT. -/
def descExt (x : BitVec 512) : List Nat := (List.range 4).map fun k => descAt x (320 + 16 * k) 16

/-- AUXH. -/
def descAuxh (x : BitVec 512) : BitVec 32 := x.extractLsb' 384 32

/-- NODE. -/
def descNode (x : BitVec 512) : Nat := descAt x 416 11

/-- SHD. -/
def descShd (x : BitVec 512) : Bool := x.getLsbD 427

/-- RM. -/
def descRm (x : BitVec 512) : Bool := x.getLsbD 428

/-- SAT. -/
def descSat (x : BitVec 512) : Bool := x.getLsbD 429

/-- ORD. -/
def descOrd (x : BitVec 512) : Bool := x.getLsbD 430

/-- NC. -/
def descNc (x : BitVec 512) : Nat := descAt x 432 8

/-- RANK. -/
def descRank (x : BitVec 512) : Nat := descAt x 440 8

/-- The trap XDESC (R248). -/
def xdesc : Hold := trapOf 0x0A

/-- Do the descriptor's own fields pass for function `fn` (R248, R389, R452)? -/
def descOk (fn : Nat) (x : BitVec 512) : Bool :=
  let common := descAt x 480 32 = 0 && !x.getLsbD 431 && ((descExt x).all fun e => decide (e ≠ 0)) && decide (descRank x < descNc x) &&
    (!descOrd x || decide (descAuxh x ≠ 0))
  let single := decide (descNc x = 1) && decide (descRank x = 0) && !descOrd x
  common && (match fn with
    | 0 => single && decide (descNode x = 0) && decide (descAuxh x = 0)
    | 1 => single && decide (descNode x ≤ 1057) && decide (descAuxh x = 0)
    | 2 => single && decide (descNode x = 0) && decide (descAuxh x ≠ 0)
    | _ => decide (descNode x ≤ 1057) && !descRm x && !descSat x && (descOrd x || decide (descAuxh x = 0)))

/-- Who the copy engine of core `n` is to Sorrel, for a command of cluster A issued at clock `clk` in a race mode (R198, R204, R220). An engine
access has no scope of its own; it counts as one of device scope. -/
def State.engineParty (s : State) (n clk : Nat) (vc : Tab Nat) (mode : BitVec 2) : Deliverer :=
  let c := s.coreAt n
  let me := agentId n .A
  { viewer := s.viewer n
    who :=
      { agent := me, ident := me, report := 0x100 + n, own := 256 + me, clk := clk, scope := 4, write := false, acq := false, rel := false,
        sync := false, eng := true, checked := decide (mode ≠ 0), precise := false, rpt := decide (mode = 2), stops := false, acc := 10,
        handle := 0, coord := [], pc := 0, ctx := c.ctx.ctx, launch := c.cr.launch, ring := c.ctx.rring }
    vector := vc
    bitAgent := 0x100 + n
    issuer := some me }

/-- A stop that falls due imprecisely at the next boundary (R220, R341). -/
def State.owe (s : State) (n : Nat) (kind : StopKind) (debug : Bool) (unit cause : Nat) (tv : DWord) : State :=
  s.deferStop n ⟨kind, mkTrapc 0 unit true 0 cause, tv, [], 0, 0, s.dcc, debug, false, false, 0⟩

/-- What an engine access's race and strike do to its task: in mode 1 it traps with RACE (R220), in a context with DBG = 1 a strike is a debug
stop (R341). -/
def State.engineReports (s : State) (n : Nat) (mode : BitVec 2) (race : Option DWord) (strike : Option Nat) : State :=
  let s := match race with
    | some tv => if mode = 1 then s.owe n .trap false 6 0x18 tv else s
    | none => s
  match strike with
  | some _ => if (s.coreAt n).ctx.dbg then s.owe n .fault true 6 0x1E 0 else s
  | none => s

/-- The values of elements that an engine reads at their homes (R190). -/
def State.engineValues (s : State) (n : Nat) (ps : List Part) : List Nat := ps.map (s.partValue (s.coreAt n) false)

/-- The outcome of an engine's read of elements: their values, a wait, a wait for another node's, or a failure. -/
inductive EngineRead where
  | ok (s : State) (values : List Nat) (race : Option DWord) (strike : Option Nat)
  | held (isMeta : Bool)
  | asking (s : State)
  | failed (s : State) (e : Hold)

/-- Elements read by an engine for `who` (R154, R158, R164, R199); those of other nodes are asked for first. -/
def State.engineRead (s : State) (d : Deliverer) (who : Nat) (r : ObjRec) (h : BitVec 32) (late : Bool) (cs : List (List Int)) : EngineRead :=
  match s.locateRun d.viewer r h 0 false cs with
  | .error e => .failed s e
  | .ok ps =>
    if ps.any (s.partCut d.viewer.core) then .failed s bridgeError
    else if s.runHeld false ps then .held false
    else
      match s.checkBlocked d r late ps with
      | some m => .held m
      | none =>
        match s.fetchRemote d.viewer.core who h 0 cs ps with
        | .asking s => .asking s
        | .failed s e => .failed s e
        | .ok s vs =>
          match (s.cacheUse d.viewer h ps).checkRun d r h 10 false false late (cs.headD []) ps with
          | .held m => .held m
          | .ok s race => .ok (s.watchRun d.who.report false ps) (s.engineValues d.viewer.core vs) race (s.strike false ps)

/-- What reading a descriptor, and what is done with it, came to (R248): done; not yet, because of the metadata's unit or of something else; or a stop, with
the state it leaves. -/
inductive CommandStep where
  | done (s : State)
  | held (isMeta : Bool)
  | asking (s : State)
  | stop (s : State) (e : Hold)

/-- The descriptor's 64 bytes read as an engine read of the focused core, and what is done with them (R248, R389). A stop after the read leaves the read
done. `late`: a wait for the metadata's unit has lasted 10 ms. -/
def State.readDescriptor (s : State) (d : Deliverer) (who : Nat) (h : BitVec 32) (ib : DWord) (late : Bool)
    (goOn : State → BitVec 512 → Except Hold State) : CommandStep :=
  let placed : Except Hold (ObjRec × List (List Int)) := do
    let r ← s.lookupAt d.viewer h 0 ib.toNat
    let cs := (List.range 64).map fun j => r.linear (ib.toNat + j)
    let inShape := cs.filter fun c => (r.outside c).isNone
    let first := r.linearBit ib.toNat / 8
    let _ ← if 2 ^ 32 ≤ ib.toNat then .ok [] else s.locateRun d.viewer r h 0 false inShape
    if 2 ^ 32 ≤ ib.toNat ∨ ib.toNat % 64 ≠ 0 ∨ r.eb ≠ 8 ∨ inShape.length < 64 ∨
        ((List.range 64).any fun j => r.linearBit (ib.toNat + j) ≠ 8 * (first + j)) then .error xdesc
    else .ok (r, cs)
  match placed with
  | .error (.wait _ _) => .held false
  | .error e => .stop s e
  | .ok (r, cs) =>
    match s.engineRead d who r h late cs with
    | .failed s e => .stop s e
    | .asking s => .asking s
    | .held m => .held m
    | .ok s vs race strike =>
      let s := s.engineReports s.core s.raceMode race strike
      match goOn s (BitVec.ofNat 512 (natOfBytes (vs.map fun v => BitVec.ofNat 8 v))) with
      | .ok s => .done s
      | .error (.wait _ _) => .held false
      | .error e => .stop s e

/-- May a source of this format take part in a reduction (R452)? -/
def reducible (r : ObjRec) : Bool := r.fmt ≠ 3 && r.fmt ≠ 6

/-- The handles of a command checked at issue (R248): the source's record and the one that gives the destination's layout. A stop names the first element of
the operand whose handle fails (R155; DESIGN CHOICE, log 69). -/
def State.checkHandles (s : State) (v : Viewer) (fn : Nat) (x : BitVec 512) : Except Hold (ObjRec × ObjRec) := do
  let src ← withCoords (descSc x) (s.lookup v (descSrch x) 0)
  let dest := withCoords (descDc x) (s.lookupData v (descDsth x))
  if fn = 3 ∧ !reducible src then .error xdesc
  else
    let dst ← if fn = 0 then dest else .ok src
    let lst ← if fn = 2 then withCoords [0, 0, 0, 0] (s.lookup v (descAuxh x) 0) else .ok src
    let dst ← if fn = 0 then .ok dst else dest
    if fn = 2 ∧ (lst.fmt ≠ 7 ∨ lst.rank ≠ 1 ∨ 256 < lst.ext 0) then .error (xlateTrap 0x12 (descAuxh x) 14 0)
    else .ok (src, dst)

/-- The records that those checks have brought into the caches (R164): all of them, or up to the one that failed. -/
def State.cacheHandles (s : State) (v : Viewer) (fn : Nat) (x : BitVec 512) (e : Option Hold) : State :=
  let hs := [descSrch x] ++ (if fn = 2 then [descAuxh x] else []) ++ [descDsth x]
  let hs := match e with
    | some (.trap t) => (hs.takeWhile fun h => h ≠ t.trapv.extractLsb' 32 32) ++ [t.trapv.extractLsb' 32 32]
    | _ => hs
  hs.foldl (fun s h => s.cacheUse v h []) s

/-- Does a rectangle lie inside the shape? -/
def ObjRec.holdsRect (r : ObjRec) (start : List Int) (ext : List Nat) : Bool :=
  (List.range 4).all fun k => decide (0 ≤ start.getD k 0) && decide (start.getD k 0 + ext.getD k 1 ≤ r.ext k)

/-- The handle of the first rectangle with a position that would trap (R158): reads of the source, writes of the destination, and the adds of
an unordered reduction as atomics. -/
def rectTrap (fn : Nat) (x : BitVec 512) (src dst : ObjRec) : Option (BitVec 32) :=
  if !src.holdsRect (descSc x) (descExt x) && decide (src.padp = 0) then some (descSrch x)
  else if !dst.holdsRect (descDc x) (descExt x) && (decide (dst.padp ≠ 1) || (decide (fn = 3) && !descOrd x)) then some (descDsth x)
  else none

/-- The work of one member of a command: the destination chunks its rectangle meets. -/
def memberWork (x : BitVec 512) (dst : ObjRec) (m : Nat) : List (Nat × Nat × Nat) :=
  (dst.chunksMeeting (descDc x) (descExt x)).map fun g => (m, g, 0)

/-- How a command fails as it starts: on a device without a node number of its own every SEND and REDW is UNREACH (R453); else with OSHAPE, where a position
of its rectangles would trap (R158). -/
def State.startFailure (s : State) (fn : Nat) (x : BitVec 512) (src dst : ObjRec) : Option Failure :=
  if s.node = 0x7FF ∧ (fn = 1 ∨ fn = 3) then some ⟨5, 0, 0⟩ else (rectTrap fn x src dst).map fun h => ⟨3, h, 0⟩

/-- A command as it starts (R252): its clock is the issuing cluster's before the step that its issue is (R201). -/
def State.newCommand (s : State) (fn : BitVec 7) (x : BitVec 512) (src dst : ObjRec) : Command :=
  let me := agentId s.core .A
  let bad := s.startFailure fn.toNat x src dst
  let members := if fn = 0 then [s.node.toNat] else if fn = 2 then (if bad.isSome then [s.node.toNat] else []) else [descNode x]
  { id := s.cur.cmdn, fn := fn, desc := x, clk := s.clockOf me, vc := s.vectorOf me, mode := s.raceMode, members := members
    work := if bad.isSome ∨ fn = 2 then [] else memberWork x dst 0
    bits := .empty
    fails := match bad with
      | some f => Tab.empty.put 0 f
      | none => .empty
    unacked := 0, waiting := none, waitMeta := false, waitHandle := 0, since := s.dcc, issued := s.dcc, top := 0, finished := .empty, squash := false
    dropped := 0 }

/-- A command accepted by the focused core (R252, R390, R453). -/
def State.accept (s : State) (fn : BitVec 7) (x : BitVec 512) (src dst : ObjRec) : State :=
  let c := s.cur
  let k := s.newCommand fn x src dst
  let c :=
    { c with
      commands := c.commands ++ [k]
      cmdn := c.cmdn + 1
      cmdClk := c.cmdClk.put k.id.toNat (cmdStamp (agentId s.core .A) k.clk) }
  ((s.setCur c).tick (agentId s.core .A)).setCl { s.cl with lastCmdClock := cmdStamp (agentId s.core .A) k.clk }

/-- Must a new command wait for commands in flight (R252, R390, R453)? -/
def Core.commandsFull (c : Core) : Bool := decide (96 ≤ c.commands.length) || c.inFlight (c.cmdn - 128)

/-- Who asks another node for the descriptor of a command: its word. -/
def askCommandWord : Nat := 131076

/-- A command of the focused core's cluster A taken as far as it goes: its descriptor is read and checked, and it is accepted (R248, R389, R390, R453). -/
def State.tryCommand (s : State) (fn : BitVec 7) (h : BitVec 32) (ib : DWord) (late : Bool) : CommandStep :=
  let me := agentId s.core .A
  let p := { s.engineParty s.core (s.clockOf me) (s.vectorOf me) s.raceMode with viewer := s.here }
  match s.readDescriptor p askCommandWord h ib late fun s x =>
      if !descOk fn.toNat x then .error xdesc
      else
        match s.checkHandles p.viewer fn.toNat x with
        | .ok (src, dst) => .ok ((s.cacheHandles p.viewer fn.toNat x none).accept fn x src dst)
        | .error e => .error e with
  | .stop s e => .stop (match e with
    | .trap t => s.cacheUse p.viewer (t.trapv.extractLsb' 32 32) []
    | _ => s) e
  | r => r

/-- A command that is not accepted yet stands in the queue of cluster A, its destination emptied (R390, R421). -/
def State.queueCommand (s : State) (fn : BitVec 7) (h : BitVec 32) (ib : DWord) (d : Option (BitVec 5)) : State :=
  let c := s.cur
  let x : Access :=
    { id := c.nextId, cluster := .A, unit := 0, pc := s.cl.pc, code := 0, handle := h, coord := [], op := .command fn h ib d, parts := [], acq := false
      rel := false, scope := 0, versioned := false, mode := s.raceMode, checked := false, metaH := 0, span := 0, phase := .issued, since := s.dcc
      before := some ⟨c.nextId, s.cl, d.map fun r => (r, s.view r), none⟩ }
  let s := match d with
    | some r => s.produce r false none
    | none => s
  s.setCur { s.cur with accesses := s.cur.accesses ++ [x], nextId := c.nextId + 1 }

/-- An engine command of cluster A (R246, R248, R390, R421, R453). Behind a MARK, an acquire or a FENCE that holds it one without a reply waits in the queue,
and so does one whose descriptor cannot be read at once; one with a reply, which writes a scalar, waits at issue. -/
def planCommand (fn : BitVec 7) (d a b : BitVec 5) (reply : Bool) (s : State) : Except Hold State := do
  let ha ← s.srcDef a
  let ib ← s.srcDef b
  let h := ha.extractLsb' 0 32
  let dest := if reply then some d else none
  if s.cur.commandsFull ∨ (reply ∧ s.cur.commandsHeld) then .error plainWait
  else
    if reply then s.destFree d else .ok ()
    if s.cur.commandsHeld then .ok (s.queueCommand fn h ib dest).retire
    else
      match s.tryCommand fn h ib false with
      | .done t => .ok (if reply then t.produce d false (some (s.cur.cmdn.setWidth 64)) else t).retire
      | .held _ => .ok (s.queueCommand fn h ib dest).retire
      | .asking t => .ok (t.queueCommand fn h ib dest).retire
      | .stop t e => .ok (t.settle (.error e))

/-- COPY (R388, R390). -/
def execCopy (d a b : BitVec 5) (r : Bool) (s : State) : Host.Outcome State Fault Refusal := runWord (.copy d a b r) s (planCommand 0 d a b r)

/-- SEND (R452, R453). -/
def execSend (d a b : BitVec 5) (r : Bool) (s : State) : Host.Outcome State Fault Refusal := runWord (.send d a b r) s (planCommand 1 d a b r)

/-- MCAST (R257, R388, R390). -/
def execMcast (d a b : BitVec 5) (r : Bool) (s : State) : Host.Outcome State Fault Refusal := runWord (.mcast d a b r) s (planCommand 2 d a b r)

/-- REDW (R452, R453). -/
def execRedw (d a b : BitVec 5) (r : Bool) (s : State) : Host.Outcome State Fault Refusal := runWord (.redw d a b r) s (planCommand 3 d a b r)

/-- A command by its identifier. -/
def Core.findCommand (c : Core) (id : BitVec 16) : Option Command := c.commands.find? fun x => x.id = id

/-- The core with command `k` in the place of the one with its number. -/
def Core.putCommand (c : Core) (k : Command) : Core := { c with commands := c.commands.map fun y => if y.id = k.id then k else y }

/-- The state with a command of core `n` replaced. -/
def State.putCommand (s : State) (n : Nat) (k : Command) : State := s.setCoreAt n ((s.coreAt n).putCommand k)

/-- A member fails: the transfer stops at a chunk boundary (R161, R255). Its chunks not yet begun are dropped, and so is the item that failed; those begun are
finished. The first failure counts. -/
def Command.fail (k : Command) (m : Nat) (item : Option (Nat × Nat × Nat)) (f : Failure) : Command :=
  { k with
    fails := if k.fails.has m then k.fails else k.fails.put m f
    work := k.work.filter fun w => decide (w.1 ≠ m) || (decide (w.2.2 ≠ 0) && decide (item ≠ some w))
    waiting := none }

/-- A member's map cannot count: the transfer goes on and ends with status AMAP (R251). -/
def Command.unmapped (k : Command) (m : Nat) : Command :=
  { k with fails := if k.fails.has m then k.fails else k.fails.put m ⟨8, descDsth k.desc, 0⟩ }

/-- The failure an answer stands for (R255); `h` is the handle concerned where the answer names none. -/
def failureOf (h : BitVec 32) : Answer → Failure
  | .stale => ⟨2, h, 0⟩
  | .oshape => ⟨3, h, 0⟩
  | .fault c _ g => ⟨4, g, BitVec.ofNat 8 c⟩
  | .noJob => ⟨4, h, 0x11⟩
  | .timeout => ⟨5, 0, 0⟩
  | .notReady => ⟨6, h, 0⟩
  | .dstfmt => ⟨7, h, 0⟩
  | .amap => ⟨8, h, 0⟩
  | _ => ⟨1, 0, 0⟩

/-- A command waits with a part of its transfer at a residency unit, its own or its metadata's (R157, R211, R256): the service kernel instance that homes the
unit's table is signalled once, and the 10 ms run from then. -/
def State.waitUnit (s : State) (n : Nat) (k : Command) (w : Nat × Nat × Nat) (isMeta : Bool) (h : BitVec 32) : State :=
  if k.waiting = some w ∧ k.waitMeta = isMeta ∧ k.waitHandle = h then s
  else
    let s := s.putCommand n { k with waiting := some w, waitMeta := isMeta, waitHandle := h, since := s.dcc }
    if isMeta then s.signalMeta (s.viewer n) h else s.signalUnit (s.viewer n) h

/-- A part of a command that was held or failed: it waits, or its member ends (R157, R161, R255); across a failed bridge its task stops (R313). -/
def State.troubled (s : State) (n : Nat) (k : Command) (w : Nat × Nat × Nat) (h : BitVec 32) (a : Answer) : State :=
  match a with
  | .notReady => s.waitUnit n k w false h
  | .fault 0x1A _ _ => s.uncorrectable n 6
  | a => s.putCommand n (k.fail w.1 (some w) (failureOf h a))

/-- Work item `w` done up to position `p` of its chunk, or altogether. -/
def Command.progress (k : Command) (w : Nat × Nat × Nat) (p : Option Nat) (bits : Nat) (now : Nat) : Command :=
  { k with
    work := match p with
      | some p => k.work.map fun v => if v = w then (w.1, w.2.1, p) else v
      | none => k.work.filter fun v => v ≠ w
    bits := k.bits.set 0 w.1 (k.bits.get 0 w.1 + bits)
    waiting := none
    since := now
    top := max k.top (w.2.1 + 1) }

/-- One more chunk of a member is finished (R332). -/
def Command.chunkFinished (k : Command) (m : Nat) : Command := { k with finished := k.finished.set 0 m (k.finished.get 0 m + 1) }

/-- The chunks that a command has finished: of a multicast the least over its members (R332). -/
def Command.chunksFinished (k : Command) : Nat :=
  let per := (List.range k.members.length).map fun m => k.finished.get 0 m
  per.foldl min (per.headD 0)

/-- Has the wait for a metadata unit lasted 10 ms (R211)? -/
def Command.late (k : Command) (now : Nat) : Bool :=
  k.waiting.isSome && k.waitMeta && decide (k.since + 10000000 ≤ now)

/-- Is a coordinate inside the rectangle? -/
def inRect (start : List Int) (ext : List Nat) (c : List Int) : Bool :=
  (List.range 4).all fun k => decide (start.getD k 0 ≤ c.getD k 0) && decide (c.getD k 0 < start.getD k 0 + ext.getD k 1)

/-- A chunk's share of a command's rectangle: U and destination coordinates, in the order of U (R267). -/
def chunkShare (x : BitVec 512) (dst : ObjRec) (g : Nat) : List (Nat × List Int) :=
  (dst.chunkElements g).filter fun e => inRect (descDc x) (descExt x) e.2

/-- The source coordinates of a destination element (R247). -/
def sourceOf (x : BitVec 512) (c : List Int) : List Int :=
  (List.range 4).map fun k => (descSc x).getD k 0 + (c.getD k 0 - (descDc x).getD k 0)

/-- An element's code in the format it is delivered in (R249, R453): FP32 for a reduction, else the destination's. -/
def deliveredCode (fn : Nat) (x : BitVec 512) (src dst : ObjRec) (v : Nat) : Nat :=
  match src.format with
  | none => v
  | some f =>
    let fmt := if fn = 3 then some (.fp fp32) else dst.format
    match fmt with
    | none => v
    | some t => if f = t then v % 2 ^ f.codeWidth else convertElement f t (descRm x) (descSat x) v

/-- The elements at the head of a share whose U follow one another, at most `most` (R264, R267). -/
def headRun : Nat → List (Nat × List Int) → List (Nat × List Int)
  | 0, _ => []
  | _, [] => []
  | _, [e] => [e]
  | most + 1, e :: f :: r => if f.1 = e.1 + 1 then e :: headRun most (f :: r) else [e]

/-- OPC of the packets of a command (R266). -/
def commandOpc (fn : Nat) (x : BitVec 512) : Nat := if fn = 3 then 1 + (descOrd x).toNat else 0

/-- Codes packed, the first in the low bits. -/
def packCodes (w : Nat) : List Nat → Nat
  | [] => 0
  | v :: r => v % 2 ^ w + 2 ^ w * packCodes w r

/-- The owner of a command's packet: the command, the member and the chunk. -/
def packetOwner (k : Command) (m g : Nat) : Nat := k.id.toNat + 65536 * m + 2 ^ 24 * g

/-- ENT of a command: COPY ignores it (R389). -/
def Command.entropy (k : Command) : Nat := if k.fn = 0 then 0 else descAt k.desc 464 16

/-- The packet of a run (R266, R267). -/
def State.runPacket (s : State) (n : Nat) (k : Command) (dst : ObjRec) (eb g : Nat) (run : List (Nat × List Int)) (codes : List Nat) :
    Packet :=
  let x := k.desc
  let o := (dst.chunkOrigin g).map fun v => BitVec.ofNat 32 v
  let coord : BitVec 128 := o.getD 3 0 ++ o.getD 2 0 ++ o.getD 1 0 ++ o.getD 0 0
  let aux := if k.fn = 3 then descAuxh x else 0
  { s.header n (BitVec.ofNat 4 (commandOpc k.fn.toNat x)) (descDsth x) aux coord (bytesOfNat ((codes.length * eb + 7) / 8) (packCodes eb codes))
    with rank := BitVec.ofNat 8 (descRank x), nc := BitVec.ofNat 8 (descNc x), nelem := BitVec.ofNat 16 codes.length,
         uoff := BitVec.ofNat 32 ((run.map Prod.fst).headD 0) }

/-- A packet of a command handed to the transport (R265, R453): with no node number of its own, or to a node that cannot be, it fails. -/
def State.sendRun (s : State) (n : Nat) (k : Command) (node : Nat) (w : Nat × Nat × Nat) (p : Option Nat) (packet : Packet) : State :=
  if s.node = 0x7FF ∨ 1057 < node then s.putCommand n (k.fail w.1 (some w) (failureOf 0 .timeout))
  else
    match s.transmit node k.entropy packet (packetOwner k w.1 w.2.1) true n with
    | .ok s _ => s.putCommand n { k.progress w p 0 s.dcc with unacked := k.unacked + 1 }
    | .wait => s
    | .unreach => s.putCommand n (k.fail w.1 (some w) (failureOf 0 .timeout))

/-- Must a command wait before it can send `len` bytes to a node (R281)? Nothing is read before then. -/
def State.sendBlocked (s : State) (n : Nat) (k : Command) (node len : Nat) : Bool :=
  match s.transmit node k.entropy (s.header n 0 0 0 0 (List.replicate len 0)) 0 true n with
  | .wait => true
  | _ => false

/-- A chunk's share as a delivery here (R249, R453). -/
def Command.delivery (k : Command) (g : Nat) (es : List (Nat × List Int × Nat)) : Delivery :=
  { opc := commandOpc k.fn.toNat k.desc, handle := descDsth k.desc, aux := descAuxh k.desc, shadow := descShd k.desc, nc := descNc k.desc,
    rank := descRank k.desc, chunk := g, elements := es }

/-- A delivery here that cannot be done now, or not at all; nothing where it can. The source is read only once it can (R220, R211). -/
def State.deliverStops (s : State) (n : Nat) (k : Command) (d : Deliverer) (dst : ObjRec) (w : Nat × Nat × Nat) (run : List (Nat × List Int)) (extra : Nat) :
    Option State :=
  match s.deliver d dst (k.delivery w.2.1 (run.map fun e => (e.1, e.2, 0))) 11 (k.late s.dcc) extra with
  | (.held (some h), _) => some (s.waitUnit n k w true h)
  | (.held none, _) => some s
  | (.absent h, _) => some (s.waitUnit n k w false h)
  | (.answer a, _) => some (s.troubled n k w (descDsth k.desc) a)
  | (.ok _ _ _ _, _) => none

/-- A chunk's share delivered here by the engine (R249, R453). -/
def State.deliverHere (s : State) (n : Nat) (k : Command) (d : Deliverer) (dst : ObjRec) (w : Nat × Nat × Nat) (eb : Nat)
    (es : List (Nat × List Int × Nat)) (extra : Nat) : State :=
  match s.deliver d dst (k.delivery w.2.1 es) 11 (k.late s.dcc) extra with
  | (.held (some h), _) => s.waitUnit n k w true h
  | (.held none, _) => s
  | (.absent h, _) => s.waitUnit n k w false h
  | (.answer a, _) => s.troubled n k w (descDsth k.desc) a
  | (.ok s count race strike, a) =>
    let k' := (k.progress w none (eb * (count + extra)) s.dcc).chunkFinished w.1
    let k' := match a with
      | none => k'
      | some .amap => k'.unmapped w.1
      | some a => k'.fail w.1 none (failureOf (descDsth k.desc) a)
    (s.putCommand n k').engineReports n k.mode race strike

/-- The source elements of a run read and put in the destination's format, and what is then done with them (R249, R257, R453). -/
def State.withSource (s : State) (n : Nat) (k : Command) (d : Deliverer) (src dst : ObjRec) (w : Nat × Nat × Nat) (run : List (Nat × List Int))
    (goOn : State → List Nat → State) : State :=
  match s.engineRead d (askCommand k.id) src (descSrch k.desc) (k.late s.dcc) (run.map fun e => sourceOf k.desc e.2) with
  | .failed s e => s.troubled n k w (descSrch k.desc) e.answer
  | .asking s => s
  | .held m => if m then s.waitUnit n k w true (descSrch k.desc) else s
  | .ok s vs race strike => goOn (s.engineReports n k.mode race strike) (vs.map (deliveredCode k.fn.toNat k.desc src dst))

/-- The elements of a share that one forwarded store carries: those at one node in one 256-byte block, one after another (R154, R162; log 11). -/
def remoteRuns : List (Part × (Nat × List Int)) → List (List (Part × (Nat × List Int)))
  | [] => []
  | e :: r =>
    match remoteRuns r with
    | (f :: g) :: rest => if e.1.group = f.1.group ∧ f.1.far * 8 + f.1.bit = e.1.far * 8 + e.1.bit + e.1.width then (e :: f :: g) :: rest else [e] :: (f :: g) :: rest
    | rest => [e] :: rest

/-- The forwarded store of a run (R266, R270): its bytes, and for elements of 4 bits at which bit they begin (log 70). -/
def State.runStore (s : State) (n : Nat) (k : Command) (run : List (Part × (Nat × List Int))) (codes : List Nat) : Packet :=
  let ps := run.map Prod.fst
  let p := ps.headD ⟨.drop, 0, 0, 8, none⟩
  let g := p.group.getD (0, 0)
  let (off, len) := remoteSpan g ps
  { s.header n 5 (descDsth k.desc) 0 (BitVec.ofNat 128 off) (bytesOfNat len (packCodes p.width codes * 2 ^ p.bit)) with
    uoff := BitVec.ofNat 32 p.bit, nelem := BitVec.ofNat 16 codes.length }

/-- A share of a chunk placed here, which may lie in part on other nodes: those elements go out as stores first, run by run, and once they are answered the
others are written and all are counted (R154, R251, R270; log 11). -/
def State.placeHere (s : State) (n : Nat) (k : Command) (d : Deliverer) (src dst : ObjRec) (w : Nat × Nat × Nat) (share : List (Nat × List Int)) : State :=
  match s.locateRun d.viewer dst (descDsth k.desc) 1 (descShd k.desc) (share.map Prod.snd) with
  | .error e => s.troubled n k w (descDsth k.desc) e.answer
  | .ok ps =>
    let es := ps.zip share
    let out := remoteRuns (es.filter fun e => e.1.isRemote)
    let run := (es.filter fun e => !e.1.isRemote).map Prod.snd
    match out[w.2.2]? with
    | some r =>
      let node := match r.map fun e => e.1.place with
        | .remote m _ :: _ => m
        | _ => 0
      if s.sendBlocked n k node (remoteSpan (((r.map Prod.fst).head?.bind Part.group).getD (0, 0)) (r.map Prod.fst)).2 then s
      else s.withSource n k d src dst w (r.map Prod.snd) fun s codes => s.sendRun n k node w (some (w.2.2 + 1)) (s.runStore n k r codes)
    | none =>
      let extra := (es.filter fun e => e.1.isRemote).length
      if extra ≠ 0 ∧ k.unacked ≠ 0 then s
      else
        match s.deliverStops n k d dst w run extra with
        | some t => t
        | none => s.withSource n k d src dst w run fun s codes =>
            s.deliverHere n k d dst w dst.eb ((run.zip codes).map fun e => (e.1.1, e.1.2, e.2)) extra

/-- A handle's record at a step of the transfer (R161): its generation is compared where a chunk begins. -/
def State.stepRecord (s : State) (v : Viewer) (h : BitVec 32) (acc : Nat) (w : Nat × Nat × Nat) : Except Hold ObjRec :=
  if w.2.2 ≠ 0 then s.latched v h acc else if acc = 1 then s.lookupData v h else s.lookup v h acc

/-- One work item of a command taken further: its source elements read and converted, then written here or sent (R249, R250, R453). -/
def State.stepItem (s : State) (n : Nat) (k : Command) (w : Nat × Nat × Nat) : State :=
  let x := k.desc
  let d := s.engineParty n k.clk k.vc k.mode
  let node := k.members.getD w.1 0
  let isHere := decide (node = s.node.toNat) || decide (k.fn = 0)
  match s.stepRecord d.viewer (descSrch x) 0 w, s.stepRecord d.viewer (descDsth x) 1 w with
  | .error e, _ => s.troubled n k w (descSrch x) e.answer
  | _, .error e => s.troubled n k w (descDsth x) e.answer
  | .ok src, .ok dst =>
    let share := chunkShare x dst w.2.1
    if isHere ∧ k.fn ≠ 3 then s.placeHere n k d src dst w share
    else if isHere then
      match s.deliverStops n k d dst w share 0 with
      | some t => t
      | none => s.withSource n k d src dst w share fun s codes => s.deliverHere n k d dst w 32 ((share.zip codes).map fun e => (e.1.1, e.1.2, e.2)) 0
    else
      let eb := if k.fn = 3 then 32 else dst.eb
      let run := headRun (8192 / eb) (share.drop w.2.2)
      let next := w.2.2 + run.length
      if s.sendBlocked n k node ((run.length * eb + 7) / 8) then s
      else
        s.withSource n k d src dst w run fun s codes =>
          s.sendRun n k node w (if next < share.length then some next else none) (s.runPacket n k dst eb w.2.1 run codes)

/-- A multicast that fails before it has its members (R389). -/
def Command.failEarly (k : Command) (node : Nat) (f : Failure) : Command := { k with members := [node], fails := k.fails.put 0 f }

/-- A multicast's member list read, once its unit is present: every member gets the whole rectangle (R257, R389). -/
def State.readMembers (s : State) (n : Nat) (k : Command) : State :=
  let v := s.viewer n
  let h := descAuxh k.desc
  match s.lookup v h 0, s.lookupData v (descDsth k.desc) with
  | .error e, _ => s.putCommand n (k.failEarly s.node.toNat (failureOf h e.answer))
  | _, .error e => s.putCommand n (k.failEarly s.node.toNat (failureOf (descDsth k.desc) e.answer))
  | .ok lst, .ok dst =>
    let d := s.engineParty n k.clk k.vc k.mode
    match s.engineRead d (askCommand k.id) lst h (k.late s.dcc) ((List.range (lst.ext 0)).map fun i => [((i : Nat) : Int), 0, 0, 0]) with
    | .asking s => s
    | .failed s e =>
      match e.answer with
      | .notReady => s.waitUnit n k (0, 0, 0) false h
      | .fault 0x1A _ _ => s.uncorrectable n 6
      | a => s.putCommand n (k.failEarly s.node.toNat (failureOf h a))
    | .held m => if m then s.waitUnit n k (0, 0, 0) true h else s
    | .ok s vs race strike =>
      let work := ((List.range vs.length).map fun m => memberWork k.desc dst m).flatten
      (s.putCommand n { k with members := vs, work := work, waiting := none, since := s.dcc }).engineReports n k.mode race strike

/-- The work that may go on: of each member the first 16 chunks left, since chunks are started in rising order and at most 16 are started
(R302). -/
def Command.current (k : Command) : List (Nat × Nat × Nat) :=
  (((k.work.map Prod.fst).eraseDups).map fun m => (k.work.filter fun w => w.1 = m).take 16).flatten

/-- One step of a command: its member list, the part that waits at a residency unit, or one of its work items, in any order (R250). -/
def State.stepCommand (s : State) (n : Nat) (k : Command) : State :=
  if k.fn = 2 ∧ k.members = [] then s.readMembers n k
  else if k.waiting.isSome then s.stepItem n k (k.waiting.getD (0, 0, 0))
  else
    match k.current[Config.pick (8 * s.steps + 4) % k.current.length]? with
    | some w => s.stepItem n k w
    | none => s

/-- Does a command wait for a residency unit of its transfer (R157)? -/
def Command.waits (k : Command) : Bool :=
  k.waiting.isSome && !k.waitMeta

/-- ENGINE_CHUNK_WRITE (R249): one part of a command's transfer. -/
def execEngineChunkWrite (core : Nat) (cmd : BitVec 16) (s : State) : Host.Outcome State Fault Refusal :=
  .next (match (s.coreAt core).findCommand cmd with
    | none => s
    | some k => if k.waits then s else s.stepCommand core k)

/-- The first failing member of a command, and how it failed (R254, R390). -/
def Command.failure (k : Command) : Option (Nat × Failure) := k.fails.cells.head?

/-- BYTES (R254): of a multicast the least over its members. -/
def Command.bytes (k : Command) : Nat :=
  let per := (List.range k.members.length).map fun m => (k.bits.get 0 m + 7) / 8
  per.foldl min (per.headD 0)

/-- The completion record of a command (R254). -/
def Command.record (k : Command) (now : Nat) : Nat :=
  let (m, f) := k.failure.getD (0, ⟨1, 0, 0⟩)
  now % 2 ^ 64 * 2 ^ 192 + k.bytes % 2 ^ 64 * 2 ^ 128 + descAt k.desc 448 16 * 2 ^ 112 + f.handle.toNat * 2 ^ 64 + f.fcode.toNat * 2 ^ 56 +
    m % 256 * 2 ^ 48 + k.fn.toNat * 2 ^ 32 + k.id.toNat * 2 ^ 16 + f.status

/-- Has a command nothing left to do but to write its record (R192)? A squashed one that has not failed writes none (R302). -/
def Command.over (k : Command) : Bool :=
  k.work.isEmpty && decide (k.unacked = 0) && decide (k.members ≠ []) && (!k.squash || !k.fails.cells.isEmpty)

/-- ENGINE_COMPLETION (R192, R253): once every write of the transfer has been performed, the record is written as one write. -/
def execEngineCompletion (core : Nat) (cmd : BitVec 16) (s : State) : Host.Outcome State Fault Refusal :=
  .next (
    let c := s.coreAt core
    match c.findCommand cmd with
    | none => s
    | some k =>
      if k.over then
        s.setCoreAt core { c with
          scratch := c.scratch.write (ringSlot k.id) 32 (k.record s.dcc)
          commands := c.commands.filter fun y => y.id ≠ k.id
          remoteReads := c.remoteReads.filter fun x => x.who ≠ askCommand k.id }
      else s)

/-- RESIDENCY_WAIT_TIMEOUT (R255, R256): 10 ms without progress at a residency unit end the transfer with status RESID, at a chunk boundary. -/
def execResidencyWaitTimeout (core : Nat) (cmd : BitVec 16) (s : State) : Host.Outcome State Fault Refusal :=
  .next (match (s.coreAt core).findCommand cmd with
    | none => s
    | some k =>
      if k.waits ∧ k.since + 10000000 ≤ s.dcc then
        let k := if k.members = [] then { k with members := [s.node.toNat] } else k
        s.putCommand core (k.fail (k.waiting.getD (0, 0, 0)).1 k.waiting (failureOf k.waitHandle .notReady))
      else s)

/-- One step of an engine command that stands in the queue of core `n` (R390, R421): it is accepted once there is room and its descriptor has been read; a
stop is precise at its word (R248). Its destination, emptied when it issued, takes the identifier. -/
def State.stepQueued (s : State) (n : Nat) (x : Access) (fn : BitVec 7) (h : BitVec 32) (ib : DWord) (d : Option (BitVec 5)) : State :=
  if (s.coreAt n).commandsFull then s
  else
    let id := (s.coreAt n).cmdn
    match ({ s with core := n, cluster := .A } : State).tryCommand fn h ib (x.phase = .waiting && decide (x.since + 10000000 ≤ s.dcc)) with
    | .done t =>
      let c := (t.coreAt n).dropAccess x.id
      t.setCoreAt n (match d with
        | some r => c.deliver r (id.setWidth 64)
        | none => c)
    | .asking t => t
    | .held m =>
      if m ∧ x.phase ≠ .waiting then
        (s.setCoreAt n ((s.coreAt n).putAccess { x with phase := .waiting, since := s.dcc })).signalMeta (s.viewer n) h
      else s
    | .stop t (.trap i) =>
      if i.cause = 0x1A then (t.setCoreAt n ((t.coreAt n).dropAccess x.id)).uncorrectable n i.trapv.toNat else t.stopAccess n x .trap i
    | .stop t (.fault i) => t.stopAccess n x .fault i
    | .stop t _ => t

/-- ACCESS_AT_HOME (R495): the access numbered `id` of a core takes its next step where the ordering rules allow it, or an engine command that waits behind
it. -/
def execAccessAtHome (core id : Nat) (s : State) : Host.Outcome State Fault Refusal :=
  .next (match (s.coreAt core).findAccess id with
    | none => s
    | some x =>
      if x.mayPerform ((s.coreAt core).accessesBefore x.cluster id) then
        match x.op with
        | .command fn h ib d => s.stepQueued core x fn h ib d
        | _ => s.stepAccess core x
      else s)

/-- RESIDENCY_WAIT_RESUME (R157): what waits at a residency unit goes on once it is present: a command, an access that waits with its check,
or a drain. -/
def execResidencyWaitResume (core : Nat) (w : WaitId) (s : State) : Host.Outcome State Fault Refusal :=
  match w with
  | .command cmd => .next (match (s.coreAt core).findCommand cmd with
    | none => s
    | some k => if k.waiting.isSome then s.stepCommand core k else s)
  | .access id => execAccessAtHome core id s
  | .drain y =>
    let c := s.coreAt core
    let a := match y with
      | .X => c.arrayX
      | .Y => c.arrayY
    let b := { a with ops := a.ops.map fun o => if o.isDrain && o.waiting then { o with waiting := false } else o }
    .next (s.setCoreAt core (match y with
      | .X => { c with arrayX := b }
      | .Y => { c with arrayY := b }))

/-- May a stop that fell due imprecisely be taken now: not once DONE's commit has begun (R396)? -/
def Core.canStop (c : Core) : Bool := c.busy && !c.finishing

/-- The stop that is owed, taken (R290, R291): not while a save is under way, nor before the record of a stop that stands is written. -/
def State.takeOwed (s : State) (n : Nat) (debug : Bool) : State :=
  let c := s.coreAt n
  match c.pendingTrap with
  | none => s
  | some st =>
    if st.debug = debug ∧ c.canStop ∧ !c.defersStop st.kind true then
      let s := s.setCoreAt n { c with pendingTrap := none }
      if c.ignoresStop st.kind then s else s.stopWith n st
    else s

/-- Has the task's time to take the stop it is owed passed: 64 cycles for a watchpoint, 200 for a race (R220, R341)? No word issues any more. -/
def Core.owedLate (c : Core) (now : Nat) : Bool :=
  match c.pendingTrap with
  | some st => !c.finishing && decide (st.dcc + (if st.debug then 64 else 200) < now)
  | none => false

/-- ENGINE_RACE_TRAP (R220): the trap of a race that an engine access of the task met. -/
def execEngineRaceTrap (core : Nat) (s : State) : Host.Outcome State Fault Refusal := .next (s.takeOwed core false)

/-- ENGINE_WATCH_STOP (R341): the debug stop of a watchpoint that an engine access of the task struck. -/
def execEngineWatchStop (core : Nat) (s : State) : Host.Outcome State Fault Refusal := .next (s.takeOwed core true)

end Sys2Proof.Machine
end

