-- ==== Sys2Proof/Machine/MatrixOps.lean ====
section
/-!
DEFINITION. The arithmetic of the arrays (R131 to R143): format table entries, the groups of an MMUL, and the conversion of a drain.
-/

namespace Sys2Proof.Machine

/-- The fields of a format table entry (R137). -/
structure MatEntry where
  aDesc : BitVec 16
  bDesc : BitVec 16
  aFmt : BitVec 4
  bFmt : BitVec 4
  aBlk : Nat
  bBlk : Nat
  aScl : Bool
  bScl : Bool
  oFmt : BitVec 4
  rtz : Bool
  sat : Bool
  ak : Bool
  oDesc : BitVec 16
deriving DecidableEq, Repr

/-- The fields of an entry's 16 bytes (R137); L is 16, 32, 64 or 128. -/
def MatEntry.ofBits (w : BitVec 128) : MatEntry where
  aDesc := w.extractLsb' 0 16
  bDesc := w.extractLsb' 16 16
  aFmt := w.extractLsb' 32 4
  bFmt := w.extractLsb' 36 4
  aBlk := 16 * 2 ^ (w.extractLsb' 40 2).toNat
  bBlk := 16 * 2 ^ (w.extractLsb' 42 2).toNat
  aScl := w.getLsbD 44
  bScl := w.getLsbD 45
  oFmt := w.extractLsb' 48 4
  rtz := w.getLsbD 52
  sat := w.getLsbD 53
  ak := w.getLsbD 54
  oDesc := w.extractLsb' 64 16

/-- The classes of R139. -/
inductive MatClass where
  | half | integer | narrow8 | narrow4
deriving DecidableEq, Repr

/-- The extent K of a class (R139). -/
def MatClass.k : MatClass → Nat
  | .half => 128
  | .integer => 256
  | .narrow8 => 256
  | .narrow4 => 512

/-- The class whose row admits a format code with its code width (R139). -/
def admits (f : BitVec 4) (d : BitVec 16) : Option MatClass :=
  match f.toNat with
  | 1 => some .half
  | 2 => some .half
  | 5 => some .integer
  | 8 => some .integer
  | 15 =>
    let w := (FpFormat.ofDesc d).width
    if 5 ≤ w ∧ w ≤ 8 then some .narrow8 else if 2 ≤ w ∧ w ≤ 4 then some .narrow4 else none
  | _ => none

/-- Do AK, the scale bits and OFMT fit the class (R139)? -/
def MatEntry.fits (e : MatEntry) : MatClass → Bool
  | .half => !e.aScl && !e.bScl && !e.ak && [0, 1, 2, 15].contains e.oFmt.toNat
  | .integer => !e.aScl && !e.bScl && e.ak && decide (3 ≤ e.oFmt.toNat ∧ e.oFmt.toNat ≤ 8)
  | _ => !e.ak && [0, 1, 2, 15].contains e.oFmt.toNat

/-- The descriptor named for a format code: it counts only where the code is 0xF (R139). -/
def namedDesc (f : BitVec 4) (d : BitVec 16) : BitVec 16 := if f = 0xF then d else 0

/-- The first failing check of an entry (R139): WHERE, REASON and DESC; or its class. -/
def MatEntry.check (e : MatEntry) : Except (Nat × Nat × BitVec 16) MatClass :=
  let bad := fun (f : BitVec 4) (d : BitVec 16) => f = 0xF && descReason d != 0
  if bad e.aFmt e.aDesc then .error (0, descReason e.aDesc, e.aDesc)
  else if bad e.bFmt e.bDesc then .error (1, descReason e.bDesc, e.bDesc)
  else if bad e.oFmt e.oDesc then .error (2, descReason e.oDesc, e.oDesc)
  else
    match admits e.aFmt e.aDesc with
    | none => .error (0, 5, namedDesc e.aFmt e.aDesc)
    | some c =>
      if admits e.bFmt e.bDesc ≠ some c then .error (1, 5, namedDesc e.bFmt e.bDesc)
      else if e.fits c then .ok c
      else .error (2, 5, namedDesc e.oFmt e.oDesc)

/-- The class of a checked entry. -/
def MatEntry.cls (e : MatEntry) : MatClass :=
  match e.check with
  | .ok c => c
  | .error _ => .half

/-- The format of operand A's elements. -/
def MatEntry.fmtA (e : MatEntry) : Fmt := (Fmt.ofCode e.aFmt e.aDesc).getD (.int 8)

/-- The format of operand B's elements. -/
def MatEntry.fmtB (e : MatEntry) : Fmt := (Fmt.ofCode e.bFmt e.bDesc).getD (.int 8)

/-- The format a drain writes. -/
def MatEntry.fmtO (e : MatEntry) : Fmt := (Fmt.ofCode e.oFmt e.oDesc).getD (.int 32)

/-- A finite number truncated towards zero to a multiple of 2^q (R141). -/
def Num.truncTo (q : Int) : Num → Num
  | .fin n m e => if q ≤ e then .fin n m e else .fin n (m >>> (q - e).toNat) q
  | x => x

/-- The exact sum of finite numbers; a sum of zero is +0 (R140). -/
def sumFinite (xs : List Num) : Num :=
  match xs.foldl Num.add .zero with
  | .fin _ 0 _ => .zero
  | x => x

/-- The result t of a group of products before the scales (R140 rules 3 and 4, R141): NaN, an Inf, or the exact sum, of truncated products
where `trunc`. -/
def groupSum (trunc : Bool) (ps : List Num) : Num :=
  if ps.any Num.isNan then .defaultNan
  else if ps.any (fun p => decide (p = .inf false)) then (if ps.any (fun p => decide (p = .inf true)) then .defaultNan else .inf false)
  else if ps.any (fun p => decide (p = .inf true)) then .inf true
  else
    let live := ps.filter fun p => !p.isZero
    match live with
    | [] => .zero
    | p :: r =>
      let top := r.foldl (fun e x => max e x.top) p.top
      sumFinite (if trunc then live.map (Num.truncTo (top - 48)) else live)

/-- A block scale (R132): one that makes every product NaN, one that masks its block, or a value. -/
inductive BlockScale where
  | bad | zero | value (x : Num)
deriving DecidableEq, Repr

/-- The scale of an E4M3 code (R132). -/
def BlockScale.ofCode (c : Nat) : BlockScale :=
  if 128 ≤ c % 256 ∨ c % 128 = 127 then .bad else if c % 128 = 0 then .zero else .value (e4m3.decode (c % 128))

/-- The group result with its scales (R140 rules 1, 2 and 4). -/
def scaledGroup (nanElement : Bool) (t : Num) (a b : BlockScale) : Num :=
  match a, b with
  | .bad, _ => .defaultNan
  | _, .bad => .defaultNan
  | .zero, _ => if nanElement then .defaultNan else .zero
  | _, .zero => if nanElement then .defaultNan else .zero
  | .value x, .value y => if t.isNan then .defaultNan else (t.mul x).mul y

/-- The scale of block `i` of a list of scale codes; without scales it is 1.0 (R132). -/
def blockScale (codes : List Nat) (i : Nat) : BlockScale :=
  match codes with
  | [] => .value .one
  | l => BlockScale.ofCode (l.getD i 0)

/-- The groups of a floating accumulation (R140, R141) added to the accumulator word, in increasing K from group `g`. -/
def addGroups (e : MatEntry) (size : Nat) (sa sb : List Nat) (acc : BitVec 32) : Nat → List Num → List Num → Nat → BitVec 32
  | 0, _, _, _ => acc
  | n + 1, xs, ys, g =>
    let x := xs.take size
    let y := ys.take size
    let half := decide (e.cls = .half)
    let t := groupSum half (List.zipWith Num.mul x y)
    let nan := x.any Num.isNan || y.any Num.isNan
    let k0 := g * size
    let t := if half then t else scaledGroup nan t (blockScale sa (k0 / e.aBlk)) (blockScale sb (k0 / e.bBlk))
    let acc := roundNE32 (Num.withNan [num32 acc, t] ((num32 acc).add t))
    addGroups e size sa sb acc n (xs.drop size) (ys.drop size) (g + 1)

/-- The length of a reduction group (R140, R141). -/
def MatEntry.group (e : MatEntry) : Nat := if e.cls = .half then 16 else min e.aBlk e.bBlk

/-- One accumulator element of a row (R140 to R142), and whether an integer sum wrapped. -/
def accumulate (e : MatEntry) (acc : BitVec 32) (xs : List Nat) (sa : List Nat) (ys : List Nat) (sb : List Nat) : BitVec 32 × Bool :=
  if e.cls = .integer then
    let sum := (List.zipWith (fun x y => e.fmtA.codeInt x * e.fmtB.codeInt y) xs ys).foldl (· + ·) 0
    let v := acc.toInt + sum
    (BitVec.ofInt 32 v, decide (v < -(2 : Int) ^ 31 ∨ (2 : Int) ^ 31 ≤ v))
  else
    (addGroups e e.group (if e.aScl then sa else []) (if e.bScl then sb else []) acc (e.cls.k / e.group) (xs.map e.fmtA.decode)
      (ys.map e.fmtB.decode) 0, false)

/-- A row of an accumulator after its products have been added; and whether some sum wrapped. -/
def accumulateRow (e : MatEntry) (xs : List Nat) (sa : List Nat) : List (BitVec 32) → List (List Nat) → List (List Nat) → List (BitVec 32) × Bool
  | acc :: accs, col :: cols, scales =>
    let (v, w) := accumulate e acc xs sa col (scales.headD [])
    let (vs, ws) := accumulateRow e xs sa accs cols scales.tail
    (v :: vs, w || ws)
  | _, _, _ => ([], false)

/-- An element of a drain (R143): its code, and whether it was saturated or clamped in the sense of MSTAT.DSAT. Of the NaNs among the accumulator, TA and TB
the first, quieted, is the result's, and an invalid product gives the default NaN, as R119 has it for its operations (DESIGN CHOICE, log 80). -/
def drainElement (e : MatEntry) (isInt : Bool) (ta tb acc : BitVec 32) : Nat × Bool :=
  if isInt then
    let w := e.fmtO.codeWidth
    let v := acc.toInt
    if e.fmtO ≠ .int 32 ∧ e.sat then
      let c := clampInt e.fmtO.bounds.1 e.fmtO.bounds.2 v
      (wrapCode w c, decide (c ≠ v))
    else (wrapCode w v, false)
  else
    let a := num32 acc
    let t := num32 ta
    let u := num32 tb
    let at_ := Num.withNan [a, t] (a.mul t)
    e.fmtO.encode e.rtz e.sat (Num.withNan [a, t, u] (if at_.isNan then at_ else at_.mul u))

end Sys2Proof.Machine
end

