-- ==== Sys2Proof/Machine/Vector.lean ====
section
/-!
DEFINITION. The vector instructions (R103 to R109, R464 to R473): the shape, the row steps and their operands, VGET, VPUT, VSHP and VSHPR.
-/

namespace Sys2Proof.Machine

/-- SHP.FMT (R104). -/
def shpFmt (w : DWord) : BitVec 4 := w.extractLsb' 16 4

/-- SHP.COUNT (R104). -/
def shpCount (w : DWord) : Nat := (w.extractLsb' 8 5).toNat

/-- SHP.BASE (R104). -/
def shpBase (w : DWord) : Nat := (w.extractLsb' 0 4).toNat

/-- SHP.DESC (R104). -/
def shpDesc (w : DWord) : BitVec 16 := w.extractLsb' 48 16

/-- The format fault (R131). -/
def formatTrap (place reason : Nat) (desc : BitVec 16) : Hold :=
  .trap ⟨0x0E, 0, BitVec.ofNat 64 (place * 2 ^ 20 + reason * 2 ^ 16 + desc.toNat), [], 0⟩

/-- The format a shape names, or SHAPE, or the format fault (R104). -/
def shapeFormat (w : DWord) : Except Hold Fmt :=
  match Fmt.ofCode (shpFmt w) (shpDesc w) with
  | none => .error (ilg 0x06)
  | some f =>
    if shpCount w = 0 ∨ 16 < shpCount w ∨ 16 < shpBase w + shpCount w then .error (ilg 0x06)
    else if shpFmt w = 0xF ∧ descReason (shpDesc w) ≠ 0 then .error (formatTrap 3 (descReason (shpDesc w)) (shpDesc w))
    else .ok f

/-- Is OP a conversion (R466)? -/
def isConvert (op : Byte) : Bool := decide (0x90 ≤ op.toNat ∧ op.toNat ≤ 0x99)

/-- The selectors of the sources a row step takes entries or rows from: VCVT's b is no selector (R466). -/
def VecOp.sources (v : VecOp) : List (BitVec 5) := if isConvert v.op then [v.a] else [v.a, v.b]

/-- The load queues a row step takes an entry from, each once (R109). -/
def VecOp.queues (v : VecOp) : List Nat :=
  ((v.sources.filter fun x => decide (16 ≤ x.toNat ∧ x.toNat ≤ 23)).map fun x => x.toNat - 16).eraseDups

/-- Row `r` of tile `t` (R103). -/
def Core.tileRow (c : Core) (t r : Nat) : Row := c.tiles.get 0 (16 * t + r)

/-- The core with row `r` of tile `t` written. -/
def Core.setTileRow (c : Core) (t r : Nat) (v : Row) : Core := { c with tiles := c.tiles.set 0 (16 * t + r) v }

/-- The format of an instruction's shape; a word without a valid one does not get this far. -/
def VecOp.fmt (v : VecOp) : Fmt := (Fmt.ofCode (shpFmt v.shape) (shpDesc v.shape)).getD (.int 8)

/-- The destination format of a conversion (R466). -/
def VecOp.target (v : VecOp) : Fmt :=
  if isConvert v.op then
    (if v.op = 0x99 then .fp (.ofDesc v.desc) else (Fmt.ofCode (BitVec.ofNat 4 (v.op.toNat - 0x90)) 0).getD (.int 8))
  else v.fmt

/-- The row a source selector names in the next row step (R108). -/
def Core.sourceRow (c : Core) (v : VecOp) (x : BitVec 5) : Row :=
  if x.toNat < 16 then c.tileRow x.toNat (shpBase v.shape + v.row)
  else if x.toNat < 24 then (c.loadq.get [] (x.toNat - 16)).headD 0
  else if x = 29 then joinRow v.fmt (List.replicate v.fmt.perRow (v.scal.toNat % 2 ^ v.fmt.codeWidth))
  else 0

/-- May the next row step run: an entry in each queue it takes from, room in the store queue it appends to (R105 to R107)? -/
def Core.rowReady (c : Core) (v : VecOp) : Bool :=
  (v.queues.all fun q => !(c.loadq.get [] q).isEmpty) &&
    (decide (v.d.toNat < 24) || decide ((c.storeq.get [] (v.d.toNat - 24)).length < 8))

/-- What the next row step computes. -/
def Core.rowValue (c : Core) (v : VecOp) : Row :=
  let d := if v.d.toNat < 16 then c.tileRow v.d.toNat (shpBase v.shape + v.row) else 0
  rowResult v.op.toNat v.sub v.b v.fmt v.target (c.sourceRow v v.a) (if isConvert v.op then 0 else c.sourceRow v v.b) d

/-- The core after the heads of these load queues have been taken (R109). -/
def Core.takeHeads (c : Core) (qs : List Nat) : Core :=
  { c with loadq := qs.foldl (fun t q => t.set [] q (t.get [] q).tail) c.loadq }

/-- A row put where the destination selector says (R107, R108). -/
def Core.placeRow (c : Core) (v : VecOp) (r : Row) : Core :=
  if v.d.toNat < 16 then c.setTileRow v.d.toNat (shpBase v.shape + v.row) r
  else { c with storeq := c.storeq.set [] (v.d.toNat - 24) (c.storeq.get [] (v.d.toNat - 24) ++ [r]) }

/-- The core after one row step (R105, R464). -/
def Core.rowStep (c : Core) (v : VecOp) : Core := (c.takeHeads v.queues).placeRow v (c.rowValue v)

/-- A row step of the focused core: after the last the instruction is complete; before it the rest is held in the vector pipeline. -/
def State.vectorStep (s : State) (v : VecOp) : State :=
  let c := s.cur.rowStep v
  if v.row + 1 < shpCount v.shape then s.setCur { c with vop := some { v with row := v.row + 1 } }
  else (s.setCur { c with vop := none }).retire

/-- The conditions of an instruction on its shape and, for conversions, on its target (R466 to R468). -/
def VecOp.shapeOk (v : VecOp) : Except Hold Unit :=
  let op := v.op.toNat
  if isConvert v.op then
    if v.op = 0x99 ∧ descReason v.desc ≠ 0 then .error (formatTrap 4 (descReason v.desc) v.desc)
    else if partCount v.fmt v.target ≤ v.sub.toNat then .error (ilg 0x06)
    else .ok ()
  else if 0x9A ≤ op ∧ op ≤ 0xA4 ∧ !v.fmt.isFp then .error (ilg 0x06)
  else if 0xAC ≤ op ∧ op ≤ 0xAE ∧ v.fmt.isNarrow then .error (ilg 0x06)
  else .ok ()

/-- The focused word has issued and the rest of it goes on by itself: its wait is over and logged (R339). -/
def State.underway (s : State) : State :=
  let s := s.logWait s.core s.cluster false
  s.setCl { s.cl with stage := 1, since := none, waitKind := 0, reex := false }

/-- A VR word (R464, R105): the shape and the broadcast scalar are read once, row step 0 issues, and the other steps follow on their own; the
cluster's next word waits for the last of them. -/
def planVector (op : Byte) (d a b : BitVec 5) (sub : BitVec 3) (x : BitVec 5) (s : State) : Except Hold State := do
  if s.cl.stage ≠ 0 ∨ s.cur.vop.isSome then .error plainWait else
  let shape := s.cur.shp
  let _ ← shapeFormat shape
  let uses := op = 0x99 ∨ a = 29 ∨ (isConvert op = false ∧ b = 29)
  let w ← if uses then s.srcDef x else .ok 0
  let v : VecOp :=
    { op := op, d := d, a := a, b := b, sub := sub, shape := shape, row := 0, scal := w, desc := w.extractLsb' 0 16 }
  v.shapeOk
  if !s.cur.rowReady v then .error plainWait
  else if shpCount shape = 1 then .ok (s.vectorStep v)
  else .ok (s.vectorStep v).underway

/-- VECTOR_ROW_STEP (R105): the next row step of the core's vector instruction, where its operands allow it. -/
def execVectorRowStep (core : Nat) (s : State) : Host.Outcome State Fault Refusal :=
  .next (match (s.coreAt core).vop with
    | none => s
    | some v =>
      if (s.coreAt core).rowReady v then ({ s with core := core, cluster := .V } : State).vectorStep v else s)

/-- VADD (R465). -/
def execVadd (d : BitVec 5) (a : BitVec 5) (b : BitVec 5) (r : Bool) (x : BitVec 5) (s : State) : Host.Outcome State Fault Refusal :=
  runWord (.vadd d a b r x) s (planVector 0x80 d a b (BitVec.ofNat 3 r.toNat) x)

/-- VSUB (R465). -/
def execVsub (d : BitVec 5) (a : BitVec 5) (b : BitVec 5) (r : Bool) (x : BitVec 5) (s : State) : Host.Outcome State Fault Refusal :=
  runWord (.vsub d a b r x) s (planVector 0x81 d a b (BitVec.ofNat 3 r.toNat) x)

/-- VMUL (R465). -/
def execVmul (d : BitVec 5) (a : BitVec 5) (b : BitVec 5) (r : Bool) (x : BitVec 5) (s : State) : Host.Outcome State Fault Refusal :=
  runWord (.vmul d a b r x) s (planVector 0x82 d a b (BitVec.ofNat 3 r.toNat) x)

/-- VFMA (R465). -/
def execVfma (d : BitVec 5) (a : BitVec 5) (b : BitVec 5) (r : Bool) (x : BitVec 5) (s : State) : Host.Outcome State Fault Refusal :=
  runWord (.vfma d a b r x) s (planVector 0x83 d a b (BitVec.ofNat 3 r.toNat) x)

/-- VFMS (R465). -/
def execVfms (d : BitVec 5) (a : BitVec 5) (b : BitVec 5) (r : Bool) (x : BitVec 5) (s : State) : Host.Outcome State Fault Refusal :=
  runWord (.vfms d a b r x) s (planVector 0x84 d a b (BitVec.ofNat 3 r.toNat) x)

/-- VFNMA (R465). -/
def execVfnma (d : BitVec 5) (a : BitVec 5) (b : BitVec 5) (r : Bool) (x : BitVec 5) (s : State) : Host.Outcome State Fault Refusal :=
  runWord (.vfnma d a b r x) s (planVector 0x85 d a b (BitVec.ofNat 3 r.toNat) x)

/-- VADDS (R465). -/
def execVadds (d : BitVec 5) (a : BitVec 5) (b : BitVec 5) (r : Bool) (x : BitVec 5) (s : State) : Host.Outcome State Fault Refusal :=
  runWord (.vadds d a b r x) s (planVector 0x86 d a b (BitVec.ofNat 3 r.toNat) x)

/-- VSUBS (R465). -/
def execVsubs (d : BitVec 5) (a : BitVec 5) (b : BitVec 5) (r : Bool) (x : BitVec 5) (s : State) : Host.Outcome State Fault Refusal :=
  runWord (.vsubs d a b r x) s (planVector 0x87 d a b (BitVec.ofNat 3 r.toNat) x)

/-- VMULS (R465). -/
def execVmuls (d : BitVec 5) (a : BitVec 5) (b : BitVec 5) (r : Bool) (x : BitVec 5) (s : State) : Host.Outcome State Fault Refusal :=
  runWord (.vmuls d a b r x) s (planVector 0x88 d a b (BitVec.ofNat 3 r.toNat) x)

/-- VDIV (R465). -/
def execVdiv (d : BitVec 5) (a : BitVec 5) (b : BitVec 5) (r : Bool) (x : BitVec 5) (s : State) : Host.Outcome State Fault Refusal :=
  runWord (.vdiv d a b r x) s (planVector 0x89 d a b (BitVec.ofNat 3 r.toNat) x)

/-- VABS (R465). -/
def execVabs (d : BitVec 5) (a : BitVec 5) (r : Bool) (x : BitVec 5) (s : State) : Host.Outcome State Fault Refusal :=
  runWord (.vabs d a r x) s (planVector 0x8A d a 28 (BitVec.ofNat 3 r.toNat) x)

/-- VNEG (R465). -/
def execVneg (d : BitVec 5) (a : BitVec 5) (r : Bool) (x : BitVec 5) (s : State) : Host.Outcome State Fault Refusal :=
  runWord (.vneg d a r x) s (planVector 0x8B d a 28 (BitVec.ofNat 3 r.toNat) x)

/-- VMIN (R465). -/
def execVmin (d : BitVec 5) (a : BitVec 5) (b : BitVec 5) (r : Bool) (x : BitVec 5) (s : State) : Host.Outcome State Fault Refusal :=
  runWord (.vmin d a b r x) s (planVector 0x8C d a b (BitVec.ofNat 3 r.toNat) x)

/-- VMAX (R465). -/
def execVmax (d : BitVec 5) (a : BitVec 5) (b : BitVec 5) (r : Bool) (x : BitVec 5) (s : State) : Host.Outcome State Fault Refusal :=
  runWord (.vmax d a b r x) s (planVector 0x8D d a b (BitVec.ofNat 3 r.toNat) x)

/-- VCLAMP (R465). -/
def execVclamp (d : BitVec 5) (a : BitVec 5) (b : BitVec 5) (r : Bool) (x : BitVec 5) (s : State) : Host.Outcome State Fault Refusal :=
  runWord (.vclamp d a b r x) s (planVector 0x8E d a b (BitVec.ofNat 3 r.toNat) x)

/-- VRINT (R465). -/
def execVrint (d : BitVec 5) (a : BitVec 5) (r : Bool) (x : BitVec 5) (s : State) : Host.Outcome State Fault Refusal :=
  runWord (.vrint d a r x) s (planVector 0x8F d a 28 (BitVec.ofNat 3 r.toNat) x)

/-- VEXP (R467). -/
def execVexp (d : BitVec 5) (a : BitVec 5) (x : BitVec 5) (s : State) : Host.Outcome State Fault Refusal :=
  runWord (.vexp d a x) s (planVector 0x9A d a 28 0 x)

/-- VEXP2 (R467). -/
def execVexp2 (d : BitVec 5) (a : BitVec 5) (x : BitVec 5) (s : State) : Host.Outcome State Fault Refusal :=
  runWord (.vexp2 d a x) s (planVector 0x9B d a 28 0 x)

/-- VLOG (R467). -/
def execVlog (d : BitVec 5) (a : BitVec 5) (x : BitVec 5) (s : State) : Host.Outcome State Fault Refusal :=
  runWord (.vlog d a x) s (planVector 0x9C d a 28 0 x)

/-- VLOG2 (R467). -/
def execVlog2 (d : BitVec 5) (a : BitVec 5) (x : BitVec 5) (s : State) : Host.Outcome State Fault Refusal :=
  runWord (.vlog2 d a x) s (planVector 0x9D d a 28 0 x)

/-- VRCP (R467). -/
def execVrcp (d : BitVec 5) (a : BitVec 5) (x : BitVec 5) (s : State) : Host.Outcome State Fault Refusal :=
  runWord (.vrcp d a x) s (planVector 0x9E d a 28 0 x)

/-- VRSQRT (R467). -/
def execVrsqrt (d : BitVec 5) (a : BitVec 5) (x : BitVec 5) (s : State) : Host.Outcome State Fault Refusal :=
  runWord (.vrsqrt d a x) s (planVector 0x9F d a 28 0 x)

/-- VSQRT (R467). -/
def execVsqrt (d : BitVec 5) (a : BitVec 5) (x : BitVec 5) (s : State) : Host.Outcome State Fault Refusal :=
  runWord (.vsqrt d a x) s (planVector 0xA0 d a 28 0 x)

/-- VTANH (R467). -/
def execVtanh (d : BitVec 5) (a : BitVec 5) (x : BitVec 5) (s : State) : Host.Outcome State Fault Refusal :=
  runWord (.vtanh d a x) s (planVector 0xA1 d a 28 0 x)

/-- VSIGM (R467). -/
def execVsigm (d : BitVec 5) (a : BitVec 5) (x : BitVec 5) (s : State) : Host.Outcome State Fault Refusal :=
  runWord (.vsigm d a x) s (planVector 0xA2 d a 28 0 x)

/-- VSIN (R467). -/
def execVsin (d : BitVec 5) (a : BitVec 5) (x : BitVec 5) (s : State) : Host.Outcome State Fault Refusal :=
  runWord (.vsin d a x) s (planVector 0xA3 d a 28 0 x)

/-- VCOS (R467). -/
def execVcos (d : BitVec 5) (a : BitVec 5) (x : BitVec 5) (s : State) : Host.Outcome State Fault Refusal :=
  runWord (.vcos d a x) s (planVector 0xA4 d a 28 0 x)

/-- VCMP (R468). -/
def execVcmp (d : BitVec 5) (a : BitVec 5) (b : BitVec 5) (c : BitVec 3) (x : BitVec 5) (s : State) : Host.Outcome State Fault Refusal :=
  runWord (.vcmp d a b c x) s (planVector 0xA5 d a b c x)

/-- VSEL (R468). -/
def execVsel (d : BitVec 5) (a : BitVec 5) (b : BitVec 5) (x : BitVec 5) (s : State) : Host.Outcome State Fault Refusal :=
  runWord (.vsel d a b x) s (planVector 0xA6 d a b 0 x)

/-- VAND (R468). -/
def execVand (d : BitVec 5) (a : BitVec 5) (b : BitVec 5) (x : BitVec 5) (s : State) : Host.Outcome State Fault Refusal :=
  runWord (.vand d a b x) s (planVector 0xA7 d a b 0 x)

/-- VOR (R468). -/
def execVor (d : BitVec 5) (a : BitVec 5) (b : BitVec 5) (x : BitVec 5) (s : State) : Host.Outcome State Fault Refusal :=
  runWord (.vor d a b x) s (planVector 0xA8 d a b 0 x)

/-- VXOR (R468). -/
def execVxor (d : BitVec 5) (a : BitVec 5) (b : BitVec 5) (x : BitVec 5) (s : State) : Host.Outcome State Fault Refusal :=
  runWord (.vxor d a b x) s (planVector 0xA9 d a b 0 x)

/-- VANDN (R468). -/
def execVandn (d : BitVec 5) (a : BitVec 5) (b : BitVec 5) (x : BitVec 5) (s : State) : Host.Outcome State Fault Refusal :=
  runWord (.vandn d a b x) s (planVector 0xAA d a b 0 x)

/-- VNOT (R468). -/
def execVnot (d : BitVec 5) (a : BitVec 5) (x : BitVec 5) (s : State) : Host.Outcome State Fault Refusal :=
  runWord (.vnot d a x) s (planVector 0xAB d a 28 0 x)

/-- VSLL (R468). -/
def execVsll (d : BitVec 5) (a : BitVec 5) (b : BitVec 5) (x : BitVec 5) (s : State) : Host.Outcome State Fault Refusal :=
  runWord (.vsll d a b x) s (planVector 0xAC d a b 0 x)

/-- VSRL (R468). -/
def execVsrl (d : BitVec 5) (a : BitVec 5) (b : BitVec 5) (x : BitVec 5) (s : State) : Host.Outcome State Fault Refusal :=
  runWord (.vsrl d a b x) s (planVector 0xAD d a b 0 x)

/-- VSRA (R468). -/
def execVsra (d : BitVec 5) (a : BitVec 5) (b : BitVec 5) (x : BitVec 5) (s : State) : Host.Outcome State Fault Refusal :=
  runWord (.vsra d a b x) s (planVector 0xAE d a b 0 x)

/-- VRSUM (R469). -/
def execVrsum (d : BitVec 5) (a : BitVec 5) (x : BitVec 5) (s : State) : Host.Outcome State Fault Refusal :=
  runWord (.vrsum d a x) s (planVector 0xAF d a 28 0 x)

/-- VRSUMSQ (R469). -/
def execVrsumsq (d : BitVec 5) (a : BitVec 5) (x : BitVec 5) (s : State) : Host.Outcome State Fault Refusal :=
  runWord (.vrsumsq d a x) s (planVector 0xB0 d a 28 0 x)

/-- VRMAX (R469). -/
def execVrmax (d : BitVec 5) (a : BitVec 5) (x : BitVec 5) (s : State) : Host.Outcome State Fault Refusal :=
  runWord (.vrmax d a x) s (planVector 0xB1 d a 28 0 x)

/-- VRMIN (R469). -/
def execVrmin (d : BitVec 5) (a : BitVec 5) (x : BitVec 5) (s : State) : Host.Outcome State Fault Refusal :=
  runWord (.vrmin d a x) s (planVector 0xB2 d a 28 0 x)

/-- VRAMAX (R469). -/
def execVramax (d : BitVec 5) (a : BitVec 5) (x : BitVec 5) (s : State) : Host.Outcome State Fault Refusal :=
  runWord (.vramax d a x) s (planVector 0xB3 d a 28 0 x)

/-- VSCAN (R470). -/
def execVscan (d : BitVec 5) (a : BitVec 5) (x : BitVec 5) (s : State) : Host.Outcome State Fault Refusal :=
  runWord (.vscan d a x) s (planVector 0xB4 d a 28 0 x)

/-- VSCANMAX (R470). -/
def execVscanmax (d : BitVec 5) (a : BitVec 5) (x : BitVec 5) (s : State) : Host.Outcome State Fault Refusal :=
  runWord (.vscanmax d a x) s (planVector 0xB5 d a 28 0 x)

/-- VSCANSEG (R470). -/
def execVscanseg (d : BitVec 5) (a : BitVec 5) (b : BitVec 5) (x : BitVec 5) (s : State) : Host.Outcome State Fault Refusal :=
  runWord (.vscanseg d a b x) s (planVector 0xB6 d a b 0 x)

/-- VPERM (R471). -/
def execVperm (d : BitVec 5) (a : BitVec 5) (b : BitVec 5) (x : BitVec 5) (s : State) : Host.Outcome State Fault Refusal :=
  runWord (.vperm d a b x) s (planVector 0xB7 d a b 0 x)

/-- VROTE (R471). -/
def execVrote (d : BitVec 5) (a : BitVec 5) (b : BitVec 5) (x : BitVec 5) (s : State) : Host.Outcome State Fault Refusal :=
  runWord (.vrote d a b x) s (planVector 0xB8 d a b 0 x)

/-- VBCAST (R471). -/
def execVbcast (d : BitVec 5) (a : BitVec 5) (b : BitVec 5) (x : BitVec 5) (s : State) : Host.Outcome State Fault Refusal :=
  runWord (.vbcast d a b x) s (planVector 0xB9 d a b 0 x)

/-- VMOV (R471). -/
def execVmov (d : BitVec 5) (a : BitVec 5) (x : BitVec 5) (s : State) : Host.Outcome State Fault Refusal :=
  runWord (.vmov d a x) s (planVector 0xBA d a 28 0 x)

/-- VPOPC (R468). -/
def execVpopc (d : BitVec 5) (a : BitVec 5) (x : BitVec 5) (s : State) : Host.Outcome State Fault Refusal :=
  runWord (.vpopc d a x) s (planVector 0xBF d a 28 0 x)

/-- VCVT to a format code (R466): b is the option field, SAT and RTZ. -/
def execVcvt (f : BitVec 4) (d : BitVec 5) (a : BitVec 5) (t : Bool) (r : Bool) (p : BitVec 3) (x : BitVec 5) (s : State) :
    Host.Outcome State Fault Refusal :=
  runWord (.vcvt f d a t r p x) s (planVector (0x9#4 ++ f) d a (BitVec.ofNat 5 (2 * t.toNat + r.toNat)) p x)

/-- VCVT to the narrow format of a scalar's descriptor (R466). -/
def execVcvtN (d : BitVec 5) (a : BitVec 5) (t : Bool) (r : Bool) (p : BitVec 3) (x : BitVec 5) (s : State) :
    Host.Outcome State Fault Refusal :=
  runWord (.vcvtN d a t r p x) s (planVector 0x99 d a (BitVec.ofNat 5 (2 * t.toNat + r.toNat)) p x)

/-- A scalar of the focused cluster written full by a word that takes 2 cycles: the change is that of the next cycle (R472). -/
def State.putScalNext (s : State) (d : BitVec 5) (v : DWord) : State :=
  if d = 0 then s
  else
    let c := s.cur
    let r := c.reg d
    s.setCur { c with
      scal := c.scal.put d.toNat { r with hist := insertChange ⟨s.dcc + 1, s.cluster, v, true⟩ (pruneHist s.dcc r.hist) } }

/-- The row offset of VGET and VPUT is one of SHP's rows (R472). -/
def rowOffset (shape : DWord) (r : BitVec 4) : Except Hold Nat :=
  if shpCount shape ≤ r.toNat then .error (ilg 0x06) else .ok (shpBase shape + r.toNat)

/-- An element as VGET reads it: an I format is sign-extended, any other zero-extended (R472). -/
def elementValue (f : Fmt) (row : Row) (k : Nat) : DWord :=
  BitVec.ofInt 64 (f.codeInt ((rowCodes f row).getD k 0))

/-- VGET (R472). -/
def execVget (d a b : BitVec 5) (n : Bool) (r : BitVec 4) (s : State) : Host.Outcome State Fault Refusal :=
  runWord (.vget d a b n r) s fun s => do
    if s.cur.vop.isSome then .error plainWait else
    let f ← shapeFormat s.cur.shp
    let row ← rowOffset s.cur.shp r
    let k ← s.src b n
    s.aluDest d
    let q := a.toNat - 16
    let i := k.toNat % f.perRow
    if a.toNat < 16 then .ok ((s.putScalNext d (elementValue f (s.cur.tileRow a.toNat row) i)).retire)
    else if 24 ≤ a.toNat then .ok ((s.putScalNext d 0).retire)
    else
      match s.cur.loadq.get [] q with
      | [] => .error plainWait
      | v :: _ => .ok (((s.setCur (s.cur.takeHeads [q])).putScalNext d (elementValue f v i)).retire)

/-- An element of a row replaced by the low bits of a scalar; spare bits of a narrow element are zero (R472, R124). -/
def putElement (f : Fmt) (row : Row) (k : Nat) (v : DWord) : Row :=
  BitVec.ofNat 4096 (replaceBits row.toNat (k * f.slot) f.slot (v.toNat % 2 ^ f.codeWidth))

/-- VPUT (R472). -/
def execVput (d a b : BitVec 5) (n : Bool) (r : BitVec 4) (s : State) : Host.Outcome State Fault Refusal :=
  runWord (.vput d a b n r) s fun s => do
    if s.cur.vop.isSome then .error plainWait else
    let f ← shapeFormat s.cur.shp
    let row ← rowOffset s.cur.shp r
    let v ← s.srcDef d
    let k ← s.src b n
    let c := s.cur
    .ok ((s.setCur (c.setTileRow a.toNat row (putElement f (c.tileRow a.toNat row) (k.toNat % f.perRow) v))).retire)

/-- SHP with its fields FMT, COUNT and BASE (R104, R473). -/
def shpWith (old : DWord) (f : BitVec 4) (c : BitVec 5) (b : BitVec 4) : DWord :=
  shpDesc old ++ 0#28 ++ f ++ 0#3 ++ c ++ 0#4 ++ b

/-- SHP written by the shape-set instructions; other clusters see it as any control register (R91, R104). -/
def State.setShape (s : State) (v : DWord) : State := s.writeTaskCsr 0x028 s.cur.shp v (fun c v => { c with shp := v })

/-- VSHP (R473). -/
def execVshp (f : BitVec 4) (c : BitVec 5) (b : BitVec 4) (s : State) : Host.Outcome State Fault Refusal :=
  runWord (.vshp f c b) s fun s =>
    if s.cur.vop.isSome then .error plainWait else .ok ((s.setShape (shpWith s.cur.shp f c b)).retire)

/-- VSHPR (R473). -/
def execVshpr (a : BitVec 5) (m : Bool) (s : State) : Host.Outcome State Fault Refusal :=
  runWord (.vshpr a m) s fun s => do
    if s.cur.vop.isSome then .error plainWait else
    let v ← s.src a m
    .ok ((s.setShape (v &&& 0xFFFF0000000F1F0F)).retire)

end Sys2Proof.Machine
end

