-- ==== Sys2Proof/Machine/Matrix.lean ====
section
/-!
DEFINITION. The matrix steps of cluster M and the arrays (R82, R110 to R112, R223 to R240, R423 to R437).
-/

namespace Sys2Proof.Machine

/-- Array X or Y of a core. -/
def Core.array (c : Core) (y : Bool) : ArrayState := if y then c.arrayY else c.arrayX

/-- The core with an array replaced. -/
def Core.setArray (c : Core) (y : Bool) (a : ArrayState) : Core := if y then { c with arrayY := a } else { c with arrayX := a }

/-- Which array an event names. -/
def isArrayY : ArrayId → Bool
  | .X => false
  | .Y => true

/-- The unit code of an array (R289). -/
def arrayUnit (y : Bool) : Nat := 4 + y.toNat

/-- A step register with bits `lo` to `lo + n − 1` replaced. -/
def setField (w : BitVec 256) (lo n v : Nat) : BitVec 256 := BitVec.ofNat 256 (replaceBits w.toNat lo n v)

/-- A field of a step register. -/
def stepField (w : BitVec 256) (lo n : Nat) : Nat := bitsAt w.toNat lo n

/-- MC.ACC (R224). -/
def StepRegs.accumulator (r : StepRegs) : Nat := stepField r.mc 192 4

/-- The four coordinates of a step register, signed (R223, R224). -/
def stepCoords (w : BitVec 256) : List Int := (List.range 4).map fun k => signed32 (stepField w (32 + 32 * k) 32)

/-- The state with array `y` of the focused core replaced. -/
def State.setArray (s : State) (y : Bool) (a : ArrayState) : State := s.setCur (s.cur.setArray y a)

/-- A setting step (R424): it changes step registers of its array alone. -/
def planStep (y : Bool) (a b : BitVec 5) (f : DWord → DWord → ArrayState → ArrayState) (s : State) : Except Hold State := do
  let u ← s.srcDef a
  let v ← s.srcDef b
  .ok ((s.setArray y (f u v (s.cur.array y))).retire)

/-- MSETA and MSETB on a step register (R431). -/
def setOperand (w : BitVec 256) (a b : DWord) (n : BitVec 3) (q aw tr : Bool) : BitVec 256 :=
  let w := if q then setField w 196 3 n.toNat else setField (setField w 196 3 0) 0 32 (a.toNat % 2 ^ 32)
  let w := setField w 199 1 q.toNat
  let w := setField w 193 1 aw.toNat
  let w := setField w 192 1 tr.toNat
  setField w 224 32 (b.toNat % 2 ^ 32)

/-- The coordinate forms on a step register (R433): set, or increment modulo 2^32. -/
def setCoords (inc : Bool) (w : BitVec 256) (a b : DWord) : BitVec 256 :=
  let vs := [a.toNat % 2 ^ 32, a.toNat / 2 ^ 32, b.toNat % 2 ^ 32, b.toNat / 2 ^ 32]
  vs.zipIdx.foldl (fun w e =>
    let lo := 32 + 32 * e.2
    setField w lo 32 (((if inc then stepField w lo 32 else 0) + e.1) % 2 ^ 32)) w

/-- MSETA (R431). -/
def execMseta (y : Bool) (a b : BitVec 5) (n : BitVec 3) (q w t : Bool) (s : State) : Host.Outcome State Fault Refusal :=
  runWord (.mseta y a b n q w t) s (planStep y a b fun u v r => { r with regs := { r.regs with ma := setOperand r.regs.ma u v n q w t } })

/-- MSETB (R431). -/
def execMsetb (y : Bool) (a b : BitVec 5) (n : BitVec 3) (q w t : Bool) (s : State) : Host.Outcome State Fault Refusal :=
  runWord (.msetb y a b n q w t) s (planStep y a b fun u v r => { r with regs := { r.regs with mb := setOperand r.regs.mb u v n q w t } })

/-- MSETAC (R433). -/
def execMsetac (y : Bool) (a b : BitVec 5) (s : State) : Host.Outcome State Fault Refusal :=
  runWord (.msetac y a b) s (planStep y a b fun u v r => { r with regs := { r.regs with ma := setCoords false r.regs.ma u v } })

/-- MINCA (R433). -/
def execMinca (y : Bool) (a b : BitVec 5) (s : State) : Host.Outcome State Fault Refusal :=
  runWord (.minca y a b) s (planStep y a b fun u v r => { r with regs := { r.regs with ma := setCoords true r.regs.ma u v } })

/-- MSETBC (R433). -/
def execMsetbc (y : Bool) (a b : BitVec 5) (s : State) : Host.Outcome State Fault Refusal :=
  runWord (.msetbc y a b) s (planStep y a b fun u v r => { r with regs := { r.regs with mb := setCoords false r.regs.mb u v } })

/-- MINCB (R433). -/
def execMincb (y : Bool) (a b : BitVec 5) (s : State) : Host.Outcome State Fault Refusal :=
  runWord (.mincb y a b) s (planStep y a b fun u v r => { r with regs := { r.regs with mb := setCoords true r.regs.mb u v } })

/-- MSETC's fields in MC (R432). -/
def setDrain (w : BitVec 256) (a : DWord) (dclr dtr : Bool) (acc : BitVec 4) : BitVec 256 :=
  let w := setField w 0 32 (a.toNat % 2 ^ 32)
  let w := setField w 192 4 acc.toNat
  let w := setField w 199 1 dtr.toNat
  setField w 200 1 dclr.toNat

/-- MSETC (R432): fld[5] is DCLR, fld[4] DTR. -/
def execMsetc (y : Bool) (a : BitVec 5) (l r : Bool) (c : BitVec 4) (s : State) : Host.Outcome State Fault Refusal :=
  runWord (.msetc y a l r c) s (planStep y a 0 fun u _ x => { x with regs := { x.regs with mc := setDrain x.regs.mc u l r c } })

/-- MSETCC (R433). -/
def execMsetcc (y : Bool) (a b : BitVec 5) (s : State) : Host.Outcome State Fault Refusal :=
  runWord (.msetcc y a b) s (planStep y a b fun u v r => { r with regs := { r.regs with mc := setCoords false r.regs.mc u v } })

/-- MINCC (R433). -/
def execMincc (y : Bool) (a b : BitVec 5) (s : State) : Host.Outcome State Fault Refusal :=
  runWord (.mincc y a b) s (planStep y a b fun u v r => { r with regs := { r.regs with mc := setCoords true r.regs.mc u v } })

/-- MFMT (R426). -/
def execMfmt (y : Bool) (a : BitVec 5) (i : BitVec 13) (s : State) : Host.Outcome State Fault Refusal :=
  runWord (.mfmt y a i) s (planStep y a 0 fun u _ r => { r with mf := BitVec.ofNat 64 ((u.toNat + i.toNat) % 2 ^ 16) })

/-- MSTAMP (R434). -/
def execMstamp (y : Bool) (a : BitVec 5) (s : State) : Host.Outcome State Fault Refusal :=
  runWord (.mstamp y a) s (planStep y a 0 fun u _ r => { r with ms := u })

/-- MPROG (R430). -/
def execMprog (y : Bool) (a : BitVec 5) (s : State) : Host.Outcome State Fault Refusal :=
  runWord (.mprog y a) s (planSet a fun s => (s.cur.array y).mprog)

/-- Word `j` of row `r` of accumulator `n` (R110). -/
def accKey (n r j : Nat) : Nat := 16384 * n + 128 * r + j

/-- Row `r` of accumulator `n`. -/
def Core.accRow (c : Core) (n r : Nat) : List (BitVec 32) := (List.range 128).map fun j => c.acc.get 0 (accKey n r j)

/-- The core with row `r` of accumulator `n` replaced. -/
def Core.setAccRow (c : Core) (n r : Nat) (vs : List (BitVec 32)) : Core :=
  { c with acc := vs.zipIdx.foldl (fun t e => t.set 0 (accKey n r e.2) e.1) c.acc }

/-- The core with accumulator `n` zero (R235). -/
def Core.zeroAcc (c : Core) (n : Nat) : Core := { c with acc := ⟨c.acc.cells.filter fun e => e.1 / 16384 ≠ n⟩ }

/-- The recorded state of accumulator `n` (R226). -/
def Core.accState (c : Core) (n : Nat) : AccState := c.accs.get .start n

/-- The core with that state replaced. -/
def Core.setAccState (c : Core) (n : Nat) (a : AccState) : Core := { c with accs := c.accs.set .start n a }

/-- Does an operation on accumulator `n` still have rows to write or read (R235, R237)? -/
def ArrayState.uses (a : ArrayState) (n : Nat) : Bool :=
  (match a.pend with
   | some p => decide (p.regs.accumulator = n)
   | none => false) || a.ops.any fun o => decide (o.regs.accumulator = n)

/-- MZERO (R235, R437). -/
def execMzero (y : Bool) (c : BitVec 4) (s : State) : Host.Outcome State Fault Refusal :=
  runWord (.mzero y c) s fun s =>
    let n := c.toNat
    if (s.cur.array y).uses n then .error plainWait
    else .ok ((s.setCur ((s.cur.zeroAcc n).setAccState n .start)).retire)

/-- Are an array's operations finished and its drains' writes performed (R237)? -/
def Core.arrayDone (c : Core) (y : Bool) : Bool := (c.array y).idle && !(c.accesses.any fun x => decide (x.unit = arrayUnit y))

/-- MWAIT (R237, R436). -/
def execMwait (y b : Bool) (s : State) : Host.Outcome State Fault Refusal :=
  runWord (.mwait y b) s fun s =>
    if s.cur.arrayDone y && (!b || s.cur.arrayDone (!y)) then .ok s.retire else .error plainWait

/-- The codes of elements that an array reads (R187: the version's bytes first). -/
def State.elementCodes (s : State) (c : Core) (ps : List Part) : List Nat := ps.map (s.partValue c true)

/-- The index of the format table entry that an operation of array `y` uses (R138), as MF, FTS and the loop's count stand. -/
def State.entryIndex (s : State) (y : Bool) : Nat :=
  let fts := s.csrView 0x041 s.cur.fts
  ((s.cur.array y).mf.toNat % 2 ^ 16) + if fts.getLsbD 0 then (((s.cur.cl .M).loop (fts.getLsbD 1)).iter).toNat else 0

/-- The coordinates of an entry's 16 bytes: beyond byte 2^32 they are out of shape (R138). -/
def entryCoords (r : ObjRec) (off : Nat) : List (List Int) :=
  let cs := r.elements off 128
  if off < 2 ^ 32 then cs else cs.map fun c => c.take 3 ++ [(r.ext 3 : Int)]

/-- Where the format table entry of an index is, as a load of cluster M finds it (R138, R313, R341): the table's handle and the entry's bytes. -/
def State.entryPlaces (s : State) (index : Nat) : Except Hold (BitVec 32 × Nat × List Part) := do
  let ftb := s.csrView 0x040 s.cur.ftb
  let h := ftb.extractLsb' 32 32
  let off := (ftb.toNat % 2 ^ 32) / 16 * 16 + 16 * index
  let r ← s.lookupAt s.here h 6 off
  if r.eb ≠ 8 ∨ r.linearBit off % 128 ≠ 0 ∨
      (List.range 16).any (fun i => decide (r.linearBit (off + i) ≠ r.linearBit off + 8 * i)) then .error (trapOf 0x09)
  else
    let ps ← s.locateAll s.here r h 6 (entryCoords r off)
    s.watchIssue false (r.linear off) ps
    if ps.any (s.partCut s.core) then withCoords (r.linear off) (.error bridgeError)
    else if ps.any fun p => (match p.key with
      | some k => s.homeHolds k false
      | none => false) then .error plainWait
    else .ok (h, off, ps)

/-- What an operation does with the format table entry that it reads for `who` as it issues (R138); of another node the entry is asked for first. -/
def State.withEntry (s : State) (index who : Nat) (waits : State → State) (goOn : State → BitVec 128 → Except Hold State) : Except Hold State := do
  let (h, off, ps) ← s.entryPlaces index
  match s.fetchRemote s.core who h 6 (entryCoords (s.record s.here (handleIndex h)) off) ps with
  | .asking s => .ok (waits s)
  | .failed _ e => .error e
  | .ok s vs =>
    goOn ((s.watchRecord false false ps).cacheUse s.here h ps) (BitVec.ofNat 128 ((s.elementCodes s.cur vs).foldr (fun c w => c % 256 + 256 * w) 0))

/-- The entry checked (R139), with its class. -/
def checkedEntry (w : BitVec 128) : Except Hold MatEntry :=
  match (MatEntry.ofBits w).check with
  | .ok _ => .ok (.ofBits w)
  | .error (place, reason, desc) => .error (formatTrap place reason desc)

/-- An operand's K dimension (R229): 0 or 1. -/
def kDim (isB : Bool) (w : BitVec 256) : Nat := if (stepField w 192 1 = 1) = isB then 0 else 1

/-- The coordinates of the element of an operand at position `k` along K and `i` across it (R229). -/
def operandCoord (isB : Bool) (w : BitVec 256) (i k : Nat) : List Int :=
  let c := stepCoords w
  let at_ := fun (n : Nat) (v : Int) => c.getD n 0 + v
  if kDim isB w = 0 then [at_ 0 k, at_ 1 i, c.getD 2 0, c.getD 3 0] else [at_ 0 i, at_ 1 k, c.getD 2 0, c.getD 3 0]

/-- The coordinates of row or column `i` of an operand's window. -/
def lineCoords (isB : Bool) (w : BitVec 256) (kk i : Nat) : List (List Int) := (List.range kk).map fun k => operandCoord isB w i k

/-- The coordinates of the block scales of that row or column (R132): one for each block of `l` elements. At a negative K coordinate, which R133 lets a window
start at, a block's scale is that of its first element (DESIGN CHOICE, log 77). -/
def scaleCoords (isB : Bool) (w : BitVec 256) (kk l i : Nat) : List (List Int) :=
  (List.range (kk / l)).map fun b =>
    let c := operandCoord isB w i (b * l)
    [c.getD (1 - kDim isB w) 0, c.getD (kDim isB w) 0 / l, 0, 0]

/-- HANDLE of a step register. -/
def stepHandle (w : BitVec 256) : BitVec 32 := BitVec.ofNat 32 (stepField w 0 32)

/-- The record of an operand object (R228 step 4); of a queue-sourced one there is none. -/
def State.operandLookup (s : State) (queue : Bool) (w : BitVec 256) : Except Hold ObjRec :=
  if queue then .ok .scratchpad else withCoords (stepCoords w) (s.lookup s.here (stepHandle w) 4)

/-- R228 step 5 for one operand. DESC is the entry's descriptor, not the record's (DESIGN CHOICE, log 77). -/
def formatCheck (queue : Bool) (r : ObjRec) (f : BitVec 4) (d : BitVec 16) (place : Nat) : Except Hold Unit :=
  if !queue ∧ (r.fmt ≠ f ∨ (f = 0xF ∧ r.fdesc ≠ d)) then .error (formatTrap place 5 (namedDesc f d)) else .ok ()

/-- The scale object of one operand (R132, R228 step 6): DESC names a descriptor where the object has one. -/
def State.scaleObject (s : State) (queue : Bool) (r : ObjRec) (w : BitVec 256) (scaled : Bool) : Except Hold Unit :=
  if !scaled then .ok ()
  else if queue ∨ r.scale = 0 then .error (formatTrap 5 8 0)
  else do
    let sc ← withCoords (stepCoords w) (s.lookup s.here r.scale 5)
    if sc.fmt ≠ 0xF ∨ sc.fdesc ≠ 0xC687 ∨ sc.rank ≠ 2 then .error (formatTrap 5 8 (namedDesc sc.fmt sc.fdesc)) else .ok ()

/-- The K start of one operand (R133, R228 step 6). No descriptor is concerned: DESC is 0 (DESIGN CHOICE, log 77). -/
def startCheck (isB : Bool) (w : BitVec 256) (scaled : Bool) (l : Nat) : Except Hold Unit :=
  if scaled ∧ (stepCoords w).getD (kDim isB w) 0 % (l : Int) ≠ 0 then .error (formatTrap isB.toNat 6 0) else .ok ()

/-- The arrival map of an operand that waits for its chunks (R233). -/
def State.mapCheck (s : State) (w : BitVec 256) (r : ObjRec) : Except Hold Unit :=
  if stepField w 193 1 = 0 then .ok ()
  else
    let bad : Hold := .trap (xlateInfo 0x12 (BitVec.ofNat 32 (stepField w 0 32)) 13 4 0 [] 0)
    if r.amap = 0 then .error bad
    else do
      let map ← s.lookup s.here r.amap 0
      if mapTooSmall r map then .error bad else .ok ()

/-- TRAPV.WHERE of FORMAT reason 7: no rule gives it, so it is an open value (R131, R134, R236; log 3). -/
def State.openWhere (s : State) : Nat := (Config.free s.steps).toNat % 16

/-- The accumulator check (R134, R228 step 7). -/
def Core.accCheck (c : Core) (n : Nat) (ak : Bool) (ta tb place : Nat) : Except Hold Unit :=
  let a := c.accState n
  let same := a.ta.toNat = ta ∧ a.tb.toNat = tb
  if a.fresh then .ok ()
  else if mstatKind c.mstat n ≠ ak ∨ (!ak ∧ ¬same) then .error (formatTrap place 7 0)
  else .ok ()

/-- Is A taken from a load queue (R223)? -/
def StepRegs.queueA (g : StepRegs) : Bool := decide (stepField g.ma 199 1 = 1)

/-- R228 steps 1 and 2. -/
def sourceCheck (y : Bool) (g : StepRegs) : Except Hold Unit :=
  if otherArray y (BitVec.ofNat 4 g.accumulator) then .error (ilg 0x05)
  else if stepField g.mb 199 1 = 1 ∨ (g.queueA ∧ (stepField g.ma 192 1 = 1 ∨ stepField g.ma 193 1 = 1)) then .error (ilg 0x0F)
  else .ok ()

/-- R228 steps 3 to 7 with the entry read, each step for A and then for B; the maps of R233 after step 6. The spec orders neither the two operands within a
step nor the maps among the steps (DESIGN CHOICE, log 77). -/
def State.checkMmul (s : State) (g : StepRegs) (bits : BitVec 128) : Except Hold MatEntry := do
  let q := g.queueA
  let e ← checkedEntry bits
  let a ← s.operandLookup q g.ma
  let b ← s.operandLookup false g.mb
  formatCheck q a e.aFmt e.aDesc 0
  formatCheck false b e.bFmt e.bDesc 1
  s.scaleObject q a g.ma e.aScl
  s.scaleObject false b g.mb e.bScl
  startCheck false g.ma e.aScl e.aBlk
  startCheck true g.mb e.bScl e.bBlk
  if q then .ok () else s.mapCheck g.ma a
  s.mapCheck g.mb b
  s.cur.accCheck g.accumulator e.ak (stepField g.ma 224 32) (stepField g.mb 224 32) s.openWhere
  .ok e

/-- A stamped MMUL in a pending slot holds cluster M's next word (R82, R227). -/
def Core.stampHeld (c : Core) : Bool :=
  [c.arrayX, c.arrayY].any fun a => match a.pend with
    | some p => p.stamp ≠ 0
    | none => false

/-- The first MMUL into an accumulator that is FRESH records its scales and its kind (R226). -/
def Core.openAcc (c : Core) (n : Nat) (ak : Bool) (ta tb : Nat) : Core :=
  if (c.accState n).fresh then
    let c := c.setAccState n { c.accState n with fresh := false, ta := BitVec.ofNat 32 ta, tb := BitVec.ofNat 32 tb }
    { c with mstat := mstatSetKind c.mstat n ak }
  else c

/-- An UNCORR of the read of an MMUL's format entry is precise at the MMUL (R428). -/
def State.preciseError (s : State) : Except Hold State → Except Hold State
  | .error (.trap t) => if t.cause = 0x1A then .ok (s.uncorrectableAt s.core 2 (BitVec.ofInt 32 s.cl.pc) false t) else .error (.trap t)
  | r => r

/-- MMUL (R427): into the array's pending slot, where it is free and its checks pass, with the index of its format entry (R424). -/
def execMmul (y : Bool) (s : State) : Host.Outcome State Fault Refusal :=
  runWord (.mmul y) s fun s => do
    let a := s.cur.array y
    if a.pend.isSome then .error plainWait else
    if a.ms ≠ 0 ∧ (s.dcc + 2 ^ 32 < a.ms.toNat ∨ a.ms.toNat ≤ s.dcc) then .error (.trap ⟨0x0D, 0, a.ms, [], 0⟩) else
    let g := a.regs
    sourceCheck y g
    let index := s.entryIndex y
    s.preciseError (s.withEntry index (askWord .M) (fun t => t.waited 0 0) fun s bits => do
      let e ← s.checkMmul g bits
      let c := s.cur.openAcc g.accumulator e.ak (stepField g.ma 224 32) (stepField g.mb 224 32)
      let p : PendingOp :=
        { regs := g, entry := bits, stamp := a.ms, seq := c.seq, pc := s.cl.pc, index := some index, checked := true, entered := s.dcc, mode := s.raceMode,
          steps := [], staged := [], waiting := false, since := 0 }
      .ok ((s.setCur ({ c with seq := c.seq + 1 } : Core)).setArray y { a with pend := some p }).retire)

/-- The checks of a drain at its issue (R236 step 1) with its entry read. DESC is the entry's descriptor (DESIGN CHOICE, log 77). -/
def State.checkDrain (s : State) (g : StepRegs) (bits : BitVec 128) : Except Hold Unit := do
  let e ← checkedEntry bits
  let r ← withCoords (stepCoords g.mc) (s.lookup s.here (stepHandle g.mc) 9)
  if r.fmt ≠ e.oFmt ∨ (e.oFmt = 0xF ∧ r.fdesc ≠ e.oDesc) then .error (formatTrap 2 5 (namedDesc e.oFmt e.oDesc)) else
  if e.ak ≠ mstatKind s.cur.mstat g.accumulator then .error (formatTrap s.openWhere 7 0) else
  .ok ()

/-- FP32 1.0. -/
def oneBits : BitVec 32 := 0x3F800000

/-- MDRAIN (R425): into the array's drain slot, with the scales recorded for its accumulator. -/
def execMdrain (y : Bool) (s : State) : Host.Outcome State Fault Refusal :=
  runWord (.mdrain y) s fun s => do
    let a := s.cur.array y
    if a.ops.any fun o => o.isDrain then .error plainWait else
    if otherArray y (BitVec.ofNat 4 a.regs.accumulator) then .error (ilg 0x05) else
    s.withEntry (s.entryIndex y) (askWord .M) (fun t => t.waited 0 0) fun s bits => do
      s.checkDrain a.regs bits
      let c := s.cur
      let n := a.regs.accumulator
      let st := c.accState n
      let op : ArrayOp :=
        { isDrain := true, regs := a.regs, entry := bits, seq := c.seq, row := 0, b := [], bScale := [],
          ta := if st.fresh then oneBits else st.ta, tb := if st.fresh then oneBits else st.tb,
          waiting := false, since := 0, latched := true, pc := s.cl.pc, mode := s.raceMode, steps := [], staged := [] }
      let c := ({ c with seq := c.seq + 1 } : Core).setAccState n { st with fresh := true }
      .ok ((s.setCur c).setArray y { a with ops := a.ops ++ [op] }).retire

/-- Who makes an array's checked access, as Sorrel sees it (R199, R219), in the race mode its operation issued in (R215). -/
def State.arrayAccessor (s : State) (n acc : Nat) (mode : BitVec 2) (h : BitVec 32) (coord : List Int) (pc : Int) : Accessor :=
  let c := s.coreAt n
  let me := agentId n .M
  { agent := me, ident := me, report := me, own := me, clk := s.clockOf me, scope := c.cr.dscope.toNat, write := false, acq := false,
    rel := false, sync := false, eng := false, checked := true, precise := true, rpt := decide (mode = 2), stops := decide (mode = 1), acc := acc,
    handle := h, coord := coord, pc := pc, ctx := c.ctx.ctx, launch := c.cr.launch, ring := c.ctx.rring }

/-- On whose behalf an array reads: its core and side, its MMUL's race mode and program counter, and the wait for a metadata's unit: whether it waits, and
whether 10 ms have passed (R211). -/
structure ArrayReader where
  core : Nat
  y : Bool
  mode : BitVec 2
  pc : Int
  waiting : Bool
  late : Bool

/-- What an array's read came to: elements, with their object; not yet, because of the metadata of this handle's object or of something else; or a stop. -/
inductive ArrayRead where
  | ok (s : State) (r : ObjRec) (codes : List Nat)
  | wait (s : State) (unit : Option (BitVec 32))
  | stop (s : State) (e : Hold)

/-- Elements an array is to read, found and at hand: their object, their places and, of those of another node, their values; or why not. -/
inductive ArrayFind where
  | ok (s : State) (r : ObjRec) (places values : List Part)
  | wait (s : State) (unit : Option (BitVec 32))
  | stop (s : State) (e : Hold)

/-- Must Sorrel's check of an array's elements wait: for an era change, an earlier checked access of cluster M or a home (false), or for the metadata's unit
(true) (R205, R211, R219)? -/
def State.arrayBlocked (s : State) (a : ArrayReader) (r : ObjRec) (ps : List Part) : Option Bool :=
  let c := s.coreAt a.core
  if !r.rc ∨ a.mode = 0 ∨ (linesOf ps).isEmpty then none
  else if s.eraDue ∨ (!a.waiting ∧ c.arrayWaits) ∨ c.accesses.any (fun x => x.cluster = .M && x.checked) then some false
  else
    match s.planCheck (s.viewer a.core) r.metaH r.span false (linesOf ps) with
    | .unchecked => none
    | .wait => if a.late then none else some true
    | .go lines => if s.metaHeld (s.viewer a.core) r.metaH r.span false lines then some false else none

/-- Sorrel's check of elements an array reads (R210 to R212): the state after it, and the race that stops its task. -/
def State.checkArray (s : State) (a : ArrayReader) (acc : Nat) (r : ObjRec) (h : BitVec 32) (coord : List Int) (ps : List Part) : State × Option Hold :=
  let c := s.coreAt a.core
  if !r.rc ∨ a.mode = 0 ∨ (linesOf ps).isEmpty then (s, none)
  else
    match s.planCheck (s.viewer a.core) r.metaH r.span false (linesOf ps) with
    | .go lines =>
      let k := s.arrayAccessor a.core acc a.mode h coord a.pc
      let (s, _, race) := s.checkLines k (s.viewer a.core) r.metaH r.span (s.vectorOf k.agent) lines
      (s, if k.stops then race.map fun tv => .trap ⟨0x18, 0, tv, coord, 0⟩ else none)
    | _ => (s.bumpRing c.ctx.rring 12, none)

/-- Elements that an array is to read through a handle whose generation was checked as its MMUL issued (R239): translated, held to watchpoints and found free
of what Sorrel's check must wait for (R154, R197, R341, R427); those of another node are asked for first. -/
def State.findElements (s : State) (a : ArrayReader) (acc : Nat) (h : BitVec 32) (cs : List (List Int)) : ArrayFind :=
  let v := s.viewer a.core
  let coord := cs.headD []
  match withCoords coord (s.latched v h acc) with
  | .error e => .stop s e
  | .ok r =>
    match s.locateAll v r h acc cs with
    | .error e => .stop s e
    | .ok ps =>
      if ps.any (s.partCut a.core) then .stop s (.trap ⟨0x1A, 0, 6, coord, 0⟩)
      else if ps.any fun p => (match p.key with
        | some k => s.homeHolds k false
        | none => false) then .wait s none
      else if (s.strike false ps).isSome ∧ (s.coreAt a.core).ctx.dbg then .stop s (.watch (s.strikes false ps) false coord)
      else
        match s.arrayBlocked a r ps with
        | some m => .wait s (if m then some h else none)
        | none =>
          match s.peekRemote a.core (askArray a.y) h acc cs ps with
          | .asking s => .wait s none
          | .failed s e => .stop s e
          | .ok s vs => .ok s r ps vs

/-- Those elements read (R164, R199, R341): cached, recorded where a watchpoint strikes, checked by Sorrel. -/
def State.takeElements (s : State) (a : ArrayReader) (acc : Nat) (h : BitVec 32) (r : ObjRec) (coord : List Int) (ps vs : List Part) : ArrayRead :=
  let s := s.cacheUse (s.viewer a.core) h ps
  let s := s.logStrikes a.core (agentId a.core .M) false false (s.strikes false ps)
  match s.checkArray a acc r h coord ps with
  | (s, some e) => .stop s e
  | (s, none) => .ok s r (s.elementCodes (s.coreAt a.core) vs)

/-- Elements fetched for an array. -/
def State.fetchElements (s : State) (a : ArrayReader) (acc : Nat) (h : BitVec 32) (cs : List (List Int)) : ArrayRead :=
  match s.findElements a acc h cs with
  | .stop s e => .stop s e
  | .wait s m => .wait s m
  | .ok s r ps vs => (s.dropAsks a.core (askArray a.y)).takeElements a acc h r (cs.headD []) ps vs

/-- What fetching a row of A or a step of B came to: its elements and block scales. -/
inductive LineRead where
  | ok (s : State) (codes scales : List Nat)
  | wait (s : State) (unit : Option (BitVec 32))
  | stop (s : State) (e : Hold)

/-- An operand's elements and their block scales fetched (R229, R132): both are at hand before either is read, so that each is checked once (R211, R212). -/
def State.fetchOperand (s : State) (a : ArrayReader) (w : BitVec 256) (scaled : Bool) (cs scs : List (List Int)) : LineRead :=
  if !scaled || scs.isEmpty then
    match s.fetchElements a 4 (stepHandle w) cs with
    | .stop s e => .stop s e
    | .wait s m => .wait s m
    | .ok s _ codes => .ok s codes []
  else
    match s.findElements a 4 (stepHandle w) cs with
    | .stop s e => .stop s e
    | .wait s m => .wait s m
    | .ok s r ps vs =>
      match s.findElements a 5 r.scale scs with
      | .stop s e => .stop s e
      | .wait s m => .wait s m
      | .ok s sr sps svs =>
        match (s.dropAsks a.core (askArray a.y)).takeElements a 4 (stepHandle w) r (cs.headD []) ps vs with
        | .stop s e => .stop s e
        | .wait s m => .wait s m
        | .ok s _ codes =>
          match s.takeElements a 5 r.scale sr (scs.headD []) sps svs with
          | .stop s e => .stop s e
          | .wait s m => .wait s m
          | .ok s _ scales => .ok s codes scales

/-- Rows turned into columns. -/
def columnsOf (n : Nat) (rows : List (List Nat)) : List (List Nat) := rows.foldr (fun r cols => List.zipWith (· :: ·) r cols) (List.replicate n [])

/-- A list cut into rows of `size`. -/
def pieces {α : Type} (size : Nat) : Nat → List α → List (List α)
  | 0, _ => []
  | n + 1, l => l.take size :: pieces size n (l.drop size)

/-- The K positions of step `t` of B's preload: 256 bytes, in increasing K (R230). -/
def stepRange (kk t : Nat) : List Nat := (List.range (kk / 128)).map (· + t * (kk / 128))

/-- The coordinates of step `t` of B. -/
def bCoords (w : BitVec 256) (kk t : Nat) : List (List Int) := ((stepRange kk t).map fun k => (List.range 128).map fun j => operandCoord true w j k).flatten

/-- The coordinates of the block scales read with step `t` of B: of the blocks that begin in it (R230). -/
def bScaleCoords (w : BitVec 256) (kk l t : Nat) : List (List Int) :=
  (((stepRange kk t).filter fun k => k % l = 0).map fun k => (List.range 128).map fun j => (scaleCoords true w kk l j).getD (k / l) []).flatten

/-- B by columns, and its scales, from the steps preloaded. -/
def bColumns (kk : Nat) (steps : List (List Nat × List Nat)) : List (List Nat) × List (List Nat) :=
  let rows := (steps.map fun t => pieces 128 (kk / 128) t.1).flatten
  let scales := (steps.map fun t => pieces 128 (t.2.length / 128) t.2).flatten
  (columnsOf 128 rows, if scales.isEmpty then [] else columnsOf 128 scales)

/-- Have the chunks that hold in-shape elements of these coordinates arrived (R233)? A map byte in a unit that is not present is a RESID. -/
def State.arrived (s : State) (a : ArrayReader) (w : BitVec 256) (cs : List (List Int)) : MapLook :=
  if stepField w 193 1 = 0 then .ok s none
  else
    match s.latched (s.viewer a.core) (stepHandle w) 4 with
    | .error _ => .ok s none
    | .ok r =>
      s.lookForChunks a.core (askMap a.y) (s.viewer a.core) r.amap
        (((cs.filter fun c => (r.outside c).isNone).map fun c => r.chunkIndex (natCoords c)).eraseDups)

/-- A wait for chunks that has succeeded is an acquire at device scope (R233). -/
def State.arrivalJoin (s : State) (n : Nat) (w : BitVec 256) : State :=
  if stepField w 193 1 = 0 then s else s.joinMap (agentId n .M)

/-- Elements of an operand and their block scales, once their chunks have arrived (R231, R233). -/
def State.fetchLine (s : State) (a : ArrayReader) (w : BitVec 256) (scaled : Bool) (cs scs : List (List Int)) : LineRead :=
  match s.arrived a w cs with
  | .failed s e => .stop s e
  | .asking s => .wait s none
  | .ok s (some _) => .wait s none
  | .ok s none => (s.arrivalJoin a.core w).fetchOperand a w scaled cs scs

/-- Step `t` of B (R230). -/
def State.fetchStep (s : State) (a : ArrayReader) (g : StepRegs) (e : MatEntry) (t : Nat) : LineRead :=
  s.fetchLine a g.mb e.bScl (bCoords g.mb e.cls.k t) (if e.bScl then bScaleCoords g.mb e.cls.k e.bBlk t else [])

/-- Row `r` of A (R231). -/
def State.fetchRow (s : State) (a : ArrayReader) (g : StepRegs) (e : MatEntry) (r : Nat) : LineRead :=
  s.fetchLine a g.ma e.aScl (lineCoords false g.ma e.cls.k r) (if e.aScl then scaleCoords false g.ma e.cls.k e.aBlk r else [])

/-- The pending MMUL's fetches begun anew, and its checks (R238): it re-executes whole. -/
def PendingOp.again (p : PendingOp) : PendingOp := { p with checked := false, steps := [], staged := [], waiting := false }

/-- The state with the pending MMUL of an array replaced. -/
def State.setPend (s : State) (n : Nat) (y : Bool) (p : PendingOp) : State :=
  s.setCoreAt n ((s.coreAt n).setArray y { (s.coreAt n).array y with pend := some p })

/-- What an array has asked other nodes for is given up: after a stop it asks again. -/
def State.dropArrayAsks (s : State) (n : Nat) (y : Bool) : State := (s.dropAsks n (askArray y)).dropAsks n (askMap y)

/-- A stop found before array issue is precise at the MMUL (R428): a restartable one leaves it in its slot, to be done again whole. -/
def State.stopPending (s : State) (n : Nat) (y : Bool) (p : PendingOp) : Hold → State
  | .trap t =>
    if t.cause = 0x1A then s.uncorrectableAt n 2 (BitVec.ofInt 32 p.pc) false t else s.takeStop n .trap 2 (BitVec.ofInt 32 p.pc) false false t 0
  | .fault t => ((s.dropArrayAsks n y).setPend n y p.again).takeStop n .fault 2 (BitVec.ofInt 32 p.pc) false false t 0
  | .watch a w c =>
    (((s.dropArrayAsks n y).setPend n y p.again).logStrikes n (agentId n .M) true w a).takeStop n .fault 2 (BitVec.ofInt 32 p.pc) false true ⟨0x1E, 0, 0, c, 0⟩ 0
  | _ => s

/-- A stamped MMUL that misses its stamp (R82). -/
def State.missStamp (s : State) (n : Nat) (y : Bool) (p : PendingOp) : State := s.stopPending n y p (.trap ⟨0x0D, 0, p.stamp, [], 0⟩)

/-- MPROG (R111). -/
def mkMprog (rows : Nat) (part : Bool) (acc : Nat) : DWord := BitVec.ofNat 64 (rows * 256 + part.toNat * 128 + acc)

/-- The pending MMUL issued in the array (R232): B becomes the active weights; a stamped one clears MS (R225). -/
def State.arrayIssue (s : State) (n : Nat) (y : Bool) (p : PendingOp) : State :=
  let c := s.coreAt n
  let a := c.array y
  let e := MatEntry.ofBits p.entry
  let (b, bs) := bColumns e.cls.k p.steps
  let op : ArrayOp :=
    { isDrain := false, regs := p.regs, entry := p.entry, seq := p.seq, row := 0, b := b, bScale := bs, ta := 0, tb := 0, waiting := false,
      since := 0, latched := true, pc := p.pc, mode := p.mode, steps := [], staged := p.staged }
  s.setCoreAt n (c.setArray y
    { a with pend := none, ops := a.ops ++ [op], ms := if p.stamp = 0 then a.ms else 0, mprog := mkMprog 0 false p.regs.accumulator,
             issuedAt := some s.dcc })

/-- The MMUL whose rows enter the array. -/
def ArrayState.entering (a : ArrayState) : Option ArrayOp := a.ops.find? fun o => !o.isDrain

/-- Does a drain in the array's slot, which a save lets finish, wait for rows of the earlier operation numbered `seq` on accumulator `n` (R234, R240)? -/
def ArrayState.drainNeeds (a : ArrayState) (n seq : Nat) : Bool := a.ops.any fun o => o.isDrain && decide (o.regs.accumulator = n) && decide (seq < o.seq)

/-- Does a save let the pending MMUL issue: only where a drain that must finish comes after it on its accumulator (R234, R240; log 78)? -/
def ArrayState.pendNeeded (a : ArrayState) : Bool :=
  match a.pend with
  | some p => a.drainNeeds p.regs.accumulator p.seq
  | none => false

/-- Does a save let rows of the MMUL in the array enter beyond the next boundary (R240; log 78)? -/
def ArrayState.entryNeeded (a : ArrayState) : Bool :=
  a.pendNeeded || (match a.entering with
    | some o => a.drainNeeds o.regs.accumulator o.seq
    | none => false)

/-- The checks of a pending MMUL that a resumed task has brought back, or that a fault has stopped (R82, R228, R238, R240), with its own step registers and
the index it took (R424). An image holds no index: the one of a restored MMUL is taken anew (DESIGN CHOICE, log 93). -/
def State.recheck (s : State) (n : Nat) (y : Bool) (p : PendingOp) : State :=
  if p.stamp ≠ 0 ∧ (s.dcc + 2 ^ 32 < p.stamp.toNat ∨ p.stamp.toNat ≤ s.dcc) then s.missStamp n y p
  else
    let t : State := { s with core := n, cluster := .M }
    let index := p.index.getD (t.entryIndex y)
    let p := { p with index := some index }
    let found := t.withEntry index (askArray y) id fun t bits => do
      let _ ← t.checkMmul p.regs bits
      .ok (t.setPend n y { p with entry := bits, checked := true, entered := s.dcc })
    match found with
    | .error h => s.stopPending n y p h
    | .ok t => t

/-- On whose behalf the pending MMUL of an array reads. -/
def PendingOp.reader (p : PendingOp) (n : Nat) (y : Bool) (now : Nat) : ArrayReader :=
  ⟨n, y, p.mode, p.pc, p.waiting, p.waiting && decide (p.since + 10000000 ≤ now)⟩

/-- A read of the pending MMUL that has come to something. -/
def State.pendRead (s : State) (n : Nat) (y : Bool) (p : PendingOp) (put : List Nat × List Nat → PendingOp) : LineRead → State
  | .ok s codes scales => s.setPend n y { put (codes, scales) with waiting := false }
  | .wait s none => s
  | .wait t (some h) => if p.waiting then s else (t.setPend n y { p with waiting := true, since := s.dcc }).signalMeta (s.viewer n) h
  | .stop s e => s.stopPending n y p e

/-- May a row of A be requested for the pending MMUL: all rows of the one before have been, and row n − 16 of the two together has entered (R231)? -/
def ArrayState.mayStage (a : ArrayState) (p : PendingOp) : Bool :=
  !p.regs.queueA && decide (p.staged.length < 128) && (match a.entering with
    | some o => (o.regs.queueA || decide (o.row + o.staged.length = 128)) && decide (p.staged.length + 112 < o.row)
    | none => decide (p.staged.length < 16))

/-- Are row 0 of A and the whole of B at hand (R232), B's 128 steps and a staged row or an entry of the load queue (R229)? -/
def State.operandsReady (s : State) (n : Nat) (p : PendingOp) : Bool :=
  decide (p.steps.length = 128) &&
    (if p.regs.queueA then !((s.coreAt n).loadq.get [] (stepField p.regs.ma 196 3)).isEmpty else !p.staged.isEmpty)

/-- Do the conditions of R232 hold? The rows of the MMUL before have entered, as rows are staged in order. -/
def State.mayIssue (s : State) (n : Nat) (y : Bool) (p : PendingOp) : Bool :=
  let a := (s.coreAt n).array y
  p.checked && s.operandsReady n p && a.entering.isNone && (match a.issuedAt with
    | some t => decide (t + 128 ≤ s.dcc)
    | none => true)

/-- MMUL_ARRAY_ISSUE (R230 to R232, R82): the pending MMUL's next step: its checks where they are to be made again, a step of B preloaded, a row of A staged,
or its issue. A stamped one issues at DCC = MS, where the conditions hold, or misses. -/
def execMmulArrayIssue (core : Nat) (y : ArrayId) (s : State) : Host.Outcome State Fault Refusal :=
  .next (
    let c := s.coreAt core
    let y := isArrayY y
    let a := c.array y
    match a.pend with
    | none => s
    | some p =>
      let e := MatEntry.ofBits p.entry
      if c.stop.isSome ∨ (c.save.isSome ∧ !a.pendNeeded) then s
      else if p.stamp ≠ 0 ∧ p.stamp.toNat ≤ s.dcc then
        if p.stamp.toNat = s.dcc ∧ s.mayIssue core y p then s.arrayIssue core y p else s.missStamp core y p
      else if !p.checked then s.recheck core y p
      else if p.stamp = 0 ∧ s.mayIssue core y p then s.arrayIssue core y p
      else if a.mayStage p ∧ (p.steps.length = 128 ∨ Config.pick (8 * s.steps + 2) % 2 = 0) then
        s.pendRead core y p (fun x => { p with staged := p.staged ++ [x] }) (s.fetchRow (p.reader core y s.dcc) p.regs e p.staged.length)
      else if p.steps.length < 128 then
        s.pendRead core y p (fun x => { p with steps := p.steps ++ [x] }) (s.fetchStep (p.reader core y s.dcc) p.regs e p.steps.length)
      else s)

/-- An operation replaced by its new state, and left out once all its rows are done. -/
def ArrayState.putOp (a : ArrayState) (o : ArrayOp) : ArrayState :=
  { a with ops := (a.ops.map fun x => if x.seq = o.seq then o else x).filter fun x => decide (x.row < 128) }

/-- Does an earlier operation on the same accumulator still have to do row `r` (R234)? -/
def ArrayState.rowBlocked (a : ArrayState) (o : ArrayOp) (r : Nat) : Bool :=
  (match a.pend with
   | some p => decide (p.seq < o.seq) && decide (p.regs.accumulator = o.regs.accumulator)
   | none => false) ||
    a.ops.any fun x => decide (x.seq < o.seq) && decide (x.regs.accumulator = o.regs.accumulator) && decide (x.row ≤ r)

/-- A row of A added to its accumulator row (R140 to R142); MPROG counts it (R111). -/
def State.enterRow (s : State) (n : Nat) (y : Bool) (o : ArrayOp) (xs sa : List Nat) : State :=
  let c := s.coreAt n
  let k := o.regs.accumulator
  let (row, wrapped) := accumulateRow (.ofBits o.entry) xs sa (c.accRow k o.row) o.b o.bScale
  let c := (c.setAccRow k o.row row).setAccState k { c.accState k with zero := false }
  let a := c.array y
  let part := a.mprog.getLsbD 7 && decide (o.row + 1 < 128)
  let c := { c with mstat := mstatIovf c.mstat wrapped }
  s.setCoreAt n (c.setArray y { a.putOp { o with row := o.row + 1, waiting := false } with mprog := mkMprog (o.row + 1) part k })

/-- The array's operation as a stop leaves it (R238): MPROG counts the rows entered; B is read again, and the rows staged are requested again. -/
def ArrayState.stoppedAt (a : ArrayState) (o : ArrayOp) : ArrayState :=
  { a.putOp { o with latched := false, steps := [], staged := [], waiting := false } with mprog := mkMprog o.row true o.regs.accumulator }

/-- The core with an operation of an array as a stop leaves it (R238). -/
def Core.stoppedAt (c : Core) (y : Bool) (o : ArrayOp) : Core := c.setArray y ((c.array y).stoppedAt o)

/-- The state with it, and what the array has asked for given up. -/
def State.stoppedAt (s : State) (n : Nat) (y : Bool) (o : ArrayOp) : State :=
  let s := s.dropArrayAsks n y
  s.setCoreAt n ((s.coreAt n).stoppedAt y o)

/-- A stop met by an array after array issue (R238, R239, R341): restartable, with MPROG and the latched operation kept, or imprecise. -/
def State.stopArray (s : State) (n : Nat) (y : Bool) (o : ArrayOp) : Hold → State
  | .trap t => if t.cause = 0x1A then s.uncorrectableAt n (arrayUnit y) 0 true t else s.takeStop n .trap (arrayUnit y) 0 true false t 0
  | .fault t => (s.stoppedAt n y o).takeStop n .fault (arrayUnit y) 0 false false t 0
  | .watch a w c =>
    ((s.stoppedAt n y o).logStrikes n (agentId n .M) true w a).takeStop n .fault (arrayUnit y)
      0 false true ⟨0x1E, 0, 0, c, 0⟩ 0
  | _ => s

/-- The state with an operation of an array replaced. -/
def State.putOp (s : State) (n : Nat) (y : Bool) (o : ArrayOp) : State := s.setCoreAt n ((s.coreAt n).setArray y (((s.coreAt n).array y).putOp o))

/-- On whose behalf an operation in the array reads. -/
def ArrayOp.reader (o : ArrayOp) (n : Nat) (y : Bool) (now : Nat) : ArrayReader :=
  ⟨n, y, o.mode, o.pc, o.waiting, o.waiting && decide (o.since + 10000000 ≤ now)⟩

/-- A read of an operation in the array that has come to something (R211, R238, R239). -/
def State.opRead (s : State) (n : Nat) (y : Bool) (o : ArrayOp) (put : List Nat × List Nat → ArrayOp) : LineRead → State
  | .ok s codes scales => s.putOp n y { put (codes, scales) with waiting := false }
  | .wait s none => s
  | .wait t (some h) => if o.waiting then s else (t.putOp n y { o with waiting := true, since := s.dcc }).signalMeta (s.viewer n) h
  | .stop s e => s.stopArray n y o e

/-- A queue-sourced pair of rows (R229): one entry of the load queue. -/
def State.enterPair (s : State) (n : Nat) (y : Bool) (o : ArrayOp) (e : MatEntry) : State :=
  let q := stepField o.regs.ma 196 3
  let c := s.coreAt n
  match c.loadq.get [] q with
  | [] => s
  | entry :: _ =>
    let codes := rowCodes e.fmtA entry
    let kk := e.cls.k
    let s := (s.setCoreAt n (c.takeHeads [q])).enterRow n y o (codes.take kk) []
    s.enterRow n y { o with row := o.row + 1 } ((codes.drop kk).take kk) []

/-- B preloaded again, step by step, for an operation that goes on after a stop (R238). -/
def State.reload (s : State) (n : Nat) (y : Bool) (o : ArrayOp) (e : MatEntry) : State :=
  if o.steps.length < 128 then s.opRead n y o (fun x => { o with steps := o.steps ++ [x] }) (s.fetchStep (o.reader n y s.dcc) o.regs e o.steps.length)
  else
    let (b, bs) := bColumns e.cls.k o.steps
    s.putOp n y { o with latched := true, b := b, bScale := bs, steps := [] }

/-- The row of A that is staged first enters (R232), where its turn has come (R234). -/
def State.enterStaged (s : State) (n : Nat) (y : Bool) (o : ArrayOp) : State :=
  match o.staged with
  | [] => s
  | (xs, sa) :: rest => if ((s.coreAt n).array y).rowBlocked o o.row then s else s.enterRow n y { o with staged := rest } xs sa

/-- The next row of A requested (R231). A stop that it meets waits until the rows before it have entered, so that MPROG counts them (R238). -/
def State.stageRow (s : State) (n : Nat) (y : Bool) (o : ArrayOp) (e : MatEntry) : State :=
  match s.fetchRow (o.reader n y s.dcc) o.regs e (o.row + o.staged.length), o.staged with
  | .stop _ _, _ :: _ => s.enterStaged n y o
  | x, _ => s.opRead n y o (fun r => { o with staged := o.staged ++ [r] }) x

/-- MMUL_ROW_ENTRY (R231 to R234, R238): the next row of A is staged, at most 16 ahead, or enters, where its turn has come. A save or the stop of this
operation holds it (R240, R238); after a resumption B is read again first. -/
def execMmulRowEntry (core : Nat) (y : ArrayId) (s : State) : Host.Outcome State Fault Refusal :=
  .next (
    let c := s.coreAt core
    let y := isArrayY y
    let a := c.array y
    match a.entering with
    | none => s
    | some o =>
      let e := MatEntry.ofBits o.entry
      if (c.save.isSome ∧ !a.entryNeeded) ∨ (c.stop.isSome ∧ !o.latched) then s
      else if !o.latched then s.reload core y o e
      else if o.regs.queueA then (if a.rowBlocked o o.row ∨ a.rowBlocked o (o.row + 1) then s else s.enterPair core y o e)
      else
        let more := decide (o.staged.length < 16) && decide (o.row + o.staged.length < 128)
        if more ∧ (o.staged.isEmpty ∨ a.rowBlocked o o.row ∨ Config.pick (8 * s.steps + 2) % 2 = 0) then
          s.stageRow core y o e
        else s.enterStaged core y o)

/-- The drain of an array. -/
def ArrayState.draining (a : ArrayState) : Option ArrayOp := a.ops.find? fun o => o.isDrain

/-- The coordinates a drain writes row `r` to (R236 step 4). -/
def drainCoords (w : BitVec 256) (r : Nat) : List (List Int) :=
  let c := stepCoords w
  let at_ := fun (n : Nat) (v : Nat) => c.getD n 0 + (v : Int)
  (List.range 128).map fun j =>
    if stepField w 199 1 = 1 then [at_ 0 r, at_ 1 j, c.getD 2 0, c.getD 3 0] else [at_ 0 j, at_ 1 r, c.getD 2 0, c.getD 3 0]

/-- A drain row's write, an access of cluster M of the array's unit (R178, R215, R236), in the race mode its MDRAIN issued in. -/
def State.enqueueDrain (s : State) (n : Nat) (y : Bool) (o : ArrayOp) (r : ObjRec) (coord : List Int) (v : Nat) (ps : List Part) : State :=
  let c := s.coreAt n
  let x : Access :=
    { id := c.nextId, cluster := .M, unit := arrayUnit y, pc := o.pc, code := 9, handle := stepHandle o.regs.mc, coord := coord, op := .store v, parts := ps,
      acq := false, rel := false, scope := c.cr.dscope,
      versioned := !r.hv && decide (c.vresLines ≠ 0) && (ps.any fun p => match p.place with | .device _ => true | _ => false),
      mode := o.mode, checked := r.rc && decide (o.mode ≠ 0) && !(linesOf ps).isEmpty, metaH := r.metaH, span := r.span,
      phase := .issued, since := s.dcc, before := none }
  let s := s.logStrikes n (agentId n .M) false true (s.strikes true ps)
  s.setCoreAt n { s.coreAt n with accesses := (s.coreAt n).accesses ++ [x], nextId := c.nextId + 1 }

/-- The codes of a drained row, side by side, and whether one was saturated (R143). -/
def drainRowCodes (e : MatEntry) (isInt : Bool) (ta tb : BitVec 32) : List (BitVec 32) → Nat × Bool
  | [] => (0, false)
  | a :: r =>
    let (c, sat) := drainElement e isInt ta tb a
    let (w, sats) := drainRowCodes e isInt ta tb r
    (c % 2 ^ e.fmtO.codeWidth + 2 ^ e.fmtO.slot * w, sat || sats)

/-- Has a later MMUL written rows of the accumulator that a drain empties (R299)? -/
def ArrayState.writtenAfter (a : ArrayState) (o : ArrayOp) : Bool :=
  a.ops.any fun x => !x.isDrain && decide (x.regs.accumulator = o.regs.accumulator) && decide (o.seq < x.seq) && decide (0 < x.row)

/-- A row of a drain read, converted and sent on its way (R236 steps 2 to 5). The accumulator is known zero after a drain with DCLR (R299). -/
def State.drainOne (s : State) (n : Nat) (y : Bool) (o : ArrayOp) (r : ObjRec) (cs : List (List Int)) (ps : List Part) : State :=
  let c := s.coreAt n
  let k := o.regs.accumulator
  let (v, sat) := drainRowCodes (.ofBits o.entry) (MatEntry.ofBits o.entry).ak o.ta o.tb (c.accRow k o.row)
  let clear := stepField o.regs.mc 200 1 = 1
  let c := if clear then c.setAccRow k o.row (List.replicate 128 0) else c
  let c := if clear ∧ o.row = 127 ∧ !(c.array y).writtenAfter o then c.setAccState k { c.accState k with zero := true } else c
  let c := { c with mstat := mstatDsat c.mstat sat }
  let c := c.setArray y ((c.array y).putOp { o with row := o.row + 1, waiting := false })
  ((s.setCoreAt n c).cacheUse (s.viewer n) (stepHandle o.regs.mc) ps).enqueueDrain n y o r (cs.headD []) v ps

/-- The next row of a drain located (R236, R341): its record and its elements. -/
def State.drainPlaces (s : State) (n : Nat) (o : ArrayOp) : Except Hold (ObjRec × List Part) :=
  let h := stepHandle o.regs.mc
  let cs := drainCoords o.regs.mc o.row
  match withCoords (cs.headD []) (s.latched (s.viewer n) h 9) with
  | .error e => .error e
  | .ok r =>
    match s.locateAll (s.viewer n) r h 9 cs with
    | .error e => .error e
    | .ok ps =>
      if (s.strike true ps).isSome && (s.coreAt n).ctx.dbg then .error (.watch (s.strikes true ps) true (cs.headD [])) else .ok (r, ps)

/-- A drain that meets a unit that is not present waits (R157, R236): the service kernel instance of its residency table is signalled once. -/
def State.drainWaits (s : State) (n : Nat) (y : Bool) (o : ArrayOp) : State :=
  if o.waiting then s else (s.putOp n y { o with waiting := true, since := s.dcc }).signalUnit (s.viewer n) (stepHandle o.regs.mc)

/-- A watchpoint that a drain's row strikes in a context with DBG = 1 (R341): the row waits for the task to go on. -/
def State.stopDrain (s : State) (n : Nat) (y : Bool) : Hold → State
  | .trap t => if t.cause = 0x1A then s.uncorrectableAt n (arrayUnit y) 0 true t else s.takeStop n .trap (arrayUnit y) 0 true false t 0
  | .watch a w c =>
    if (s.coreAt n).stop.isSome then s
    else (s.logStrikes n (agentId n .M) true w a).takeStop n .fault (arrayUnit y) 0 false true ⟨0x1E, 0, 0, c, 0⟩ 0
  | _ => s

/-- DRAIN_ROW (R236): the next row, once the earlier operations have done it, and no checked read of an array waits before it (R219). At a residency unit that is not present the drain waits and
the service kernel is signalled; any other stop is an imprecise trap of the array. -/
def execDrainRow (core : Nat) (y : ArrayId) (s : State) : Host.Outcome State Fault Refusal :=
  .next (
    let a := (s.coreAt core).array (isArrayY y)
    match a.draining with
    | none => s
    | some o =>
      if a.rowBlocked o o.row ∨ (s.coreAt core).arrayWaits then s
      else
        match s.drainPlaces core o with
        | .ok (r, ps) => s.drainOne core (isArrayY y) o r (drainCoords o.regs.mc o.row) ps
        | .error (.fault _) => s.drainWaits core (isArrayY y) o
        | .error h => s.stopDrain core (isArrayY y) h)

/-- DRAIN_RESID_TRAP (R157, R236): the service kernel ends a task whose drain waits at a unit that is not present. -/
def execDrainResidTrap (core : Nat) (y : ArrayId) (s : State) : Host.Outcome State Fault Refusal :=
  .next (match ((s.coreAt core).array (isArrayY y)).draining with
    | none => s
    | some o =>
      if !o.waiting then s
      else
        match s.drainPlaces core o with
        | .error (.fault t) => s.takeStop core .trap (arrayUnit (isArrayY y)) 0 true false t 0
        | _ => s)

end Sys2Proof.Machine
end

