-- ==== Sys2Proof/Machine/Image.lean ====
section
/-!
DEFINITION. The frame (R306), the save image (R305 to R309) and its restoration (R304).
-/

namespace Sys2Proof.Machine

/-- Fields put side by side, each as (value, width), the first in the low bits. -/
def packFields : List (Nat × Nat) → Nat
  | [] => 0
  | (v, w) :: r => v % 2 ^ w + 2 ^ w * packFields r

/-- The bits `lo` to `hi` of several fields, each as (hi, lo). -/
def bitRuns (rs : List (Nat × Nat)) : Nat := rs.foldl (fun m e => m + (2 ^ (e.1 + 1 - e.2) - 1) * 2 ^ e.2) 0

/-- `n` bytes of a record that the device writes: the reserved bits `rsvd` are not written (R7). -/
def sectionBytes (n v rsvd : Nat) : List VByte := (bytesOfNat n v).zipWith (fun b r => ⟨b, ~~~r⟩) (bytesOfNat n rsvd)

/-- Bytes written whole. -/
def wholeBytes (bs : List Byte) : List VByte := bs.map .whole

/-- The reserved bits of the records of an image (R305 to R309, R209). -/
def headerReserved : Nat := bitRuns [(2047, 1808), (1747, 1729)] + crReserved.toNat * 2 ^ 256
def frameReserved : Nat :=
  bitRuns ([(8191, 7424), (7295, 7241), (6847, 6816), (6799, 6784), (6719, 6704)] ++
    (List.range 4).flatMap fun k => [(1024 * k + 1023, 1024 * k + 640), (1024 * k + 63, 1024 * k + 36)])
def arrayReserved : Nat := bitRuns [(3071, 2816), (2047, 1920), (1023, 962)]
def replayReserved : Nat := bitRuns [(1023, 824), (799, 768), (575, 536)]
def spawnReserved : Nat := bitRuns [(63, 8)] + crReserved.toNat * 2 ^ 128

/-- A scalar at its register, every change made (R90). -/
def Core.settled (c : Core) (r : Nat) : DWord × Bool :=
  if r = 0 then (0, true)
  else match (c.scal.get .start r).hist with
    | [] => (0, true)
    | e :: _ => (e.val, e.full)

/-- The sync wait count at `now` (R61). -/
def ClusterState.syncTotal (x : ClusterState) (now : Nat) : Nat :=
  x.syncCount + match x.syncSince with
    | some t => now - t
    | none => 0

/-- The block of a cluster in the frame (R306). -/
def ClusterState.block (x : ClusterState) (now : Nat) : Nat :=
  packFields [((BitVec.ofInt 32 x.pc).toNat, 32), (x.running.toNat, 1), (x.syncWait.toNat, 1), (x.lock.toNat, 1), (x.reex.toNat, 1), (0, 28),
    (x.pred.toNat, 64), (x.femode.toNat, 64), (x.loop0.lps.toNat, 64), (x.loop0.lpc.toNat, 64), (x.loop0.lpx.toNat, 64),
    (x.loop1.lps.toNat, 64), (x.loop1.lpc.toNat, 64), (x.loop1.lpx.toNat, 64), (x.syncTotal now, 64), (0, 384)]

/-- The bits of SHP, FEMODE, LPXn, FTB, FTS and SYNCTO, RMODE that are no reserved ones (R61, R95, R98, R106, R141, R142, R215): the others read 0
(R6). -/
def shpBits : DWord := 0xFFFF0000000F1F0F
def femodeBits : DWord := 0xFFFFFFFF00000001
def lpxBits : DWord := 0xFFFFFFFF000000C7
def ftbBits : DWord := 0xFFFFFFFFFFFFFFF0
def lowWordBits : DWord := 0xFFFFFFFF
def lowTwoBits : DWord := 3

/-- The same of TRAPC (R289) and of TINFO (R62). -/
def trapcBits : DWord := 0xFFFFFFFF00F8FFFF
def tinfoBits : DWord := 0xFFFFFFFF07FFFFFF

/-- A cluster from its block (R304): a word that was abandoned issues again; with neither SWAIT nor LOCK its sync wait counts as satisfied
(R291). -/
def ClusterState.ofBlock (w : Nat) : ClusterState :=
  let f := fun (lo n : Nat) => bitsAt w lo n
  let bit := fun (i : Nat) => decide (f i 1 = 1)
  { ClusterState.start with
    running := bit 32
    pc := ((f 0 32 : Nat) : Int)
    pred := BitVec.ofNat 8 (f 64 8) ||| 1
    femode := BitVec.ofNat 64 (f 128 64) &&& femodeBits
    loop0 := ⟨BitVec.ofNat 64 (f 192 64), BitVec.ofNat 64 (f 256 64), BitVec.ofNat 64 (f 320 64) &&& lpxBits⟩
    loop1 := ⟨BitVec.ofNat 64 (f 384 64), BitVec.ofNat 64 (f 448 64), BitVec.ofNat 64 (f 512 64) &&& lpxBits⟩
    syncCount := f 576 64
    syncWait := bit 33
    lock := bit 34
    reex := bit 35
    satisfied := bit 35 && !bit 33 && !bit 34 }

/-- Numbers below `n` for which `p` holds, as a mask. -/
def maskOf (n : Nat) (p : Nat → Bool) : Nat := packFields ((List.range n).map fun i => ((p i).toNat, 1))

/-- The frame of core `n`'s task (R306): `ls` its live scalars, `infl` the commands in flight at the stop. PTV tells a trap that is owed, no debug stop. -/
def State.frame (s : State) (n ls infl : Nat) : Nat :=
  let c := s.coreAt n
  let (due, ptc, ptv) := match c.pendingTrap with
    | some t => if t.kind = StopKind.fault then (0, 0, 0) else (1, t.trapc, t.trapv)
    | none => (0, 0, 0)
  packFields ((allClusters.map fun k => ((c.cl k).block s.dcc, 1024)) ++ ((List.range 32).map fun r => ((c.settled r).1.toNat, 64)) ++
    [(maskOf 32 fun r => (c.settled r).2, 32), (ls, 32), (c.shp.toNat, 64), (c.ftb.toNat, 64), (c.fts.toNat, 64), (c.syncto.toNat, 64),
      (c.rmode.toNat, 64), (c.trapc.toNat, 64), (c.trapv.toNat, 64), (c.cmdn.toNat, 16), (infl, 16), (c.spawn.length, 16), (0, 16),
      (c.mstatNow.toNat, 64), (0, 16), (maskOf 16 fun i => (c.accState i).zero, 16), (0, 32), (c.tinfoNow.toNat, 64), (c.tframe.toNat, 64),
      (c.ids.toNat, 256), (s.eraNow.toNat, 8), (due, 1), (0, 55), (ptc.toNat, 64), (ptv.toNat, 64)])

/-- The 1,024 bytes of the frame. -/
def State.frameBytes (s : State) (n ls infl : Nat) : List Byte := bytesOfNat 1024 (s.frame n ls infl)

/-- Step registers as 768 bits (R307). -/
def StepRegs.bits (g : StepRegs) : Nat := packFields [(g.ma.toNat, 256), (g.mb.toNat, 256), (g.mc.toNat, 256)]

/-- The bits of MA and MB, and of MC, that are no reserved ones (R223, R224). -/
def operandBits : BitVec 256 := BitVec.allOnes 32 ++ 0#24 ++ 0xF#4 ++ 0x0#2 ++ 0x3#2 ++ 0#32 ++ BitVec.allOnes 160
def drainBits : BitVec 256 := 0#55 ++ 0x3#2 ++ 0#3 ++ 0xF#4 ++ 0#32 ++ BitVec.allOnes 160

/-- Step registers from 768 bits; reserved bits read 0 (R6, R223, R224). -/
def StepRegs.ofBits (w : Nat) : StepRegs :=
  ⟨BitVec.ofNat 256 w &&& operandBits, BitVec.ofNat 256 (bitsAt w 256 256) &&& operandBits, BitVec.ofNat 256 (bitsAt w 512 256) &&& drainBits⟩

/-- MPROG at a save (R240): it tells the rows of an MMUL that stopped part-way. -/
def ArrayState.savedMprog (a : ArrayState) : DWord :=
  match a.entering with
  | some o => mkMprog o.row true o.regs.accumulator
  | none => a.mprog

/-- The 384 bytes of an array (R307). -/
def ArrayState.bits (a : ArrayState) : Nat :=
  let (pv, pend) := match a.pend with
    | some p => (1, p.regs.bits)
    | none => (0, 0)
  let (lv, latch, lent) := match a.entering with
    | some o => (1, o.regs.bits, o.entry.toNat)
    | none => (0, 0, 0)
  packFields [(a.regs.bits, 768), (a.mf.toNat, 64), (a.ms.toNat, 64), (a.savedMprog.toNat, 64), (pv, 1), (lv, 1), (0, 62), (latch, 768),
    (lent, 128), (0, 128), (pend, 768), (0, 256)]

/-- An array from its 384 bytes (R304, R238): the latched operation goes on from ROWS with B read again; the pending MMUL enters its slot anew,
its word counted as the one before `pc`, with the stamp it entered with where that is known, else MS (R225; log 13). -/
def ArrayState.ofBits (w : Nat) (pc : Int) (stamp : Option DWord) (mode : BitVec 2) : ArrayState :=
  let ms : DWord := BitVec.ofNat 64 (bitsAt w 832 64)
  let mprog : DWord := BitVec.ofNat 64 (bitsAt w 896 16) &&& 0xFF8F
  let latched : ArrayOp :=
    { isDrain := false, regs := .ofBits (bitsAt w 1024 768), entry := BitVec.ofNat 128 (bitsAt w 1792 128), seq := 0,
      row := (mprog.extractLsb' 8 8).toNat, b := [], bScale := [], ta := 0, tb := 0, waiting := false, since := 0, latched := false, pc := 0,
      mode := mode, steps := [], staged := [] }
  { regs := .ofBits (bitsAt w 0 768)
    mf := BitVec.ofNat 64 (bitsAt w 768 16)
    ms := ms
    mprog := mprog
    pend := if bitsAt w 960 1 = 1 then
        some { regs := .ofBits (bitsAt w 2048 768), entry := 0, stamp := stamp.getD ms, seq := 1, pc := pc - 4, index := none, checked := false, entered := 0,
               mode := mode, steps := [], staged := [], waiting := false, since := 0 }
      else none
    ops := if bitsAt w 961 1 = 1 then [latched] else []
    issuedAt := none }

/-- Bytes of a row, the first in the low bits. -/
def rowBytesOf (r : Row) : List Byte := bytesOfNat 512 r.toNat

/-- The number of live queues' mask bit `i`: load queues 0 to 7, then store queues 8 to 11 (R308 QID). -/
def Save.queueLive (v : Save) (i : Nat) : Bool := if i < 8 then v.lq.getLsbD i else v.lw.getLsbD (i - 8)

/-- The entries of queue `i`, head first. -/
def Core.queueRows (c : Core) (i : Nat) : List Row := if i < 8 then c.loadq.get [] i else c.storeq.get [] (i - 8)

/-- Section 2 (R305, R308). -/
def Core.queueSection (c : Core) (v : Save) : List VByte :=
  ((List.range 12).map fun i =>
    if v.queueLive i then
      sectionBytes 64 (packFields [((c.queueRows i).length, 8), (i, 8)]) (bitRuns [(511, 16)]) ++
        wholeBytes ((c.queueRows i).map rowBytesOf).flatten
    else []).flatten

/-- Section 1 (R305). -/
def Core.tileSection (c : Core) (lt : BitVec 16) : List Byte :=
  ((List.range 16).map fun t => if lt.getLsbD t then ((List.range 16).map fun r => rowBytesOf (c.tileRow t r)).flatten else []).flatten

/-- One accumulator of section 3 (R308): its header and rows. -/
def Core.accBytes (c : Core) (i : Nat) : List VByte :=
  let a := c.accState i
  sectionBytes 64 (packFields [(i, 8), (a.fresh.toNat, 1), ((c.mstat.getLsbD (48 + i)).toNat, 1), (0, 6), (a.ta.toNat, 32), (a.tb.toNat, 32)])
      (bitRuns [(511, 80)]) ++
    wholeBytes ((List.range 128).map fun r => ((c.accRow i r).map fun w => bytesOfNat 4 w.toNat).flatten).flatten

/-- The accumulators that are saved (R299): those not known zero. -/
def Core.savedAccs (c : Core) : List Nat := (List.range 16).filter fun i => !(c.accState i).zero

/-- A replay record with the NEXT it is to have (R309). -/
def Command.replay (k : Command) (next : Nat) : Nat :=
  packFields [(k.desc.toNat, 512), (k.id.toNat, 16), (k.fn.toNat, 8), (0, 40), (next, 64), (k.bytes, 64), (k.issued, 64), (0, 32), (k.clk, 24)]

/-- The chunks of a command's transfer: what its replay counts from (R302). -/
def State.commandChunks (s : State) (n : Nat) (k : Command) : Nat :=
  match s.record (s.viewer n) (handleIndex (descDsth k.desc)) with
  | r => (memberWork k.desc r 0).length

/-- Section 5 (R305): the squashed commands in the order of their issue. -/
def State.replaySection (s : State) (n : Nat) : List VByte :=
  ((((s.coreAt n).commands.filter Command.squash)).map fun k => sectionBytes 128 (k.replay (s.commandChunks n k - k.dropped)) replayReserved).flatten

/-- The entry of a load queue a ticket stands for, counted from the head (R308 DEST). -/
def Core.ticketEntry (c : Core) (q ticket : Nat) : Nat :=
  (c.loadq.get [] q).length + (((c.loadqTickets.get [] q).map Ticket.id).idxOf ticket)

/-- A record of section 6 (R308): entry `dest`, with its request and what of it has arrived. -/
def Ticket.record (t : Ticket) (mask dest : Nat) (data : List Byte) : List VByte :=
  sectionBytes 32 (packFields [(t.qual, 8), (mask, 8), (dest, 8), (0, 104), (t.len, 16), (t.node, 16), (t.handle.toNat, 32), (t.off, 64)])
      (bitRuns [(127, 24)]) ++
    wholeBytes (data ++ List.replicate (512 - data.length) 0) ++ sectionBytes 32 0 (bitRuns [(255, 0)])

/-- What a slot's flits have brought: those arrived, zeros for the others (R308 DATA). -/
def State.flitBytes (s : State) (c : Core) (x : Access) (mask : Byte) : List Byte :=
  ((List.range 8).map fun f =>
    if mask.getLsbD f then bytesOfNat 64 (s.partsValue c false (x.flitParts f)) else List.replicate 64 0).flatten

/-- An entry that is reserved, as section 6 has it (R308): its row on its way, or arrived out of turn, as a slot with every flit. -/
def State.ticketRecord (s : State) (n q : Nat) (t : Ticket) : List VByte :=
  let c := s.coreAt n
  let dest := 64 + 8 * q + c.ticketEntry q t.id
  match t.row, c.findAccess t.id with
  | some row, _ => t.record 0xFF dest (rowBytesOf row)
  | none, some x =>
    let mask := match c.slotOf x.id with
      | some (_, sl) => sl.mask
      | none => x.knownMask
    t.record mask.toNat dest (s.flitBytes c x mask)
  | none, none => []

/-- Section 6 (R305, R308): the reserved entries of live load queues. -/
def State.reassemblySection (s : State) (n : Nat) (v : Save) : List VByte :=
  ((List.range 8).map fun q =>
    if v.lq.getLsbD q then (((s.coreAt n).loadqTickets.get [] q).map (s.ticketRecord n q)).flatten else []).flatten

/-- Section 7 (R305, R308): a byte of which the version holds a nibble stands whole, the rest of it as at its home (log 13). -/
def State.versionSection (s : State) (c : Core) : List VByte :=
  ((versionLines c.version).map fun l =>
    sectionBytes 16 (packFields [(l * 64, 64), (maskOf 64 fun b => c.version.has (64 * l + b), 64)]) (bitRuns [(63, 43)]) ++
      wholeBytes ((List.range 64).map fun b => match c.version.find (64 * l + b) with
        | some v => if v.mask = 0xFF then v.val else v.over (s.homeByte (64 * l + b))
        | none => 0)).flatten

/-- Section 8 (R305, R308). -/
def Core.spawnSection (c : Core) : List VByte :=
  (c.spawn.map fun e =>
    sectionBytes 80 (packFields [(if e.isJoin then 1 else 2, 64), (e.slotH.toNat, 32), (e.slotO.toNat, 32), (e.cr.bits.toNat, 512)])
      spawnReserved).flatten

/-- A vector clock in the layout of R209. -/
def vectorBytes (v : Tab Nat) (era : Nat) : List VByte :=
  wholeBytes (((List.range 513).map fun i => bytesOfNat 3 (v.get 0 i)).flatten ++ bytesOfNat 1 era) ++ List.replicate 508 ⟨0, 0⟩

/-- Section 9 (R305). -/
def State.clockSection (s : State) (n : Nat) : List VByte :=
  (allClusters.map fun k => vectorBytes (s.vectorOf (agentId n k)) s.eraNow.toNat).flatten

/-- A range merged with those after it that it meets, in rising order. -/
def mergeFrom (o l : Nat) : List (Nat × Nat) → List (Nat × Nat)
  | [] => [(o, l)]
  | (p, m) :: r => if p ≤ o + l then mergeFrom o (max (o + l) (p + m) - o) r else (o, l) :: mergeFrom p m r

/-- Ranges in rising order merged (R298). -/
def mergeRanges : List (Nat × Nat) → List (Nat × Nat)
  | [] => []
  | (o, l) :: r => mergeFrom o l r

/-- Section 10 (R305, R308). -/
def Core.scratchSection (c : Core) (ranges : List (Nat × Nat)) : List VByte :=
  ((mergeRanges (ranges.mergeSort fun a b => decide (a.1 ≤ b.1))).map fun r =>
    sectionBytes 64 (packFields [(r.1, 32), (r.2, 32)]) (bitRuns [(511, 64)]) ++ wholeBytes (c.scratch.bytes r.1 r.2)).flatten

/-- A barrier's 16 bytes (R308). -/
def Barrier.bits (b : Barrier) : Nat :=
  packFields [(b.scope.toNat, 3), (b.err.toNat, 1), (b.isSet.toNat, 1), (0, 11), (b.exp.toNat, 16), (b.arr.toNat, 16), (b.arrn.toNat, 16),
    (b.compl.toNat, 32), (b.drop.toNat, 32)]

/-- Has a barrier been set, or has it counted an arrival (R305)? -/
def Barrier.inUse (b : Barrier) : Bool := b.isSet || b.arr ≠ 0 || b.arrn ≠ 0 || b.compl ≠ 0

/-- Is any barrier of a core in use (R303)? -/
def Core.barriersInUse (c : Core) : Bool := c.barriers.values.any Barrier.inUse

/-- Section 11 (R305). -/
def Core.barrierSection (c : Core) : List VByte :=
  if c.barriersInUse then ((List.range 16).map fun i => sectionBytes 16 (c.barriers.get .start i).bits (bitRuns [(15, 5)])).flatten else []

/-- The sections of an image in order (R305). -/
def State.imageSections (s : State) (n : Nat) (v : Save) : List (List VByte) :=
  let c := s.coreAt n
  [sectionBytes 1024 (s.frame n v.ls.toNat v.infl) frameReserved, wholeBytes (c.tileSection v.lt), c.queueSection v,
    (c.savedAccs.map c.accBytes).flatten, sectionBytes 384 c.arrayX.bits arrayReserved ++ sectionBytes 384 c.arrayY.bits arrayReserved, s.replaySection n, s.reassemblySection n v, s.versionSection c, c.spawnSection,
    s.clockSection n, c.scratchSection v.ranges, c.barrierSection]

/-- `n` rounded up to a multiple of 64. -/
def up64 (n : Nat) : Nat := (n + 63) / 64 * 64

/-- The directory from offset `off` on (R305): offset and length of each section, 0 and 0 for an empty one; and the image's length. -/
def directory (off len : Nat) : List (List VByte) → List (Nat × Nat) × Nat
  | [] => ([], len)
  | b :: r =>
    if b.isEmpty then
      let (d, l) := directory off len r
      ((0, 0) :: d, l)
    else
      let (d, l) := directory (up64 (off + b.length)) (off + b.length) r
      ((off, b.length) :: d, l)

/-- The record a saved task's CR is, with the hold of a committed JOIN as its parent link, which the frame's OPENJ then tells (R46, R306; log
13). -/
def Core.savedCr (c : Core) : Cr :=
  match c.openJoin with
  | some h => if c.joinHeld then c.cr else { c.cr with ph := h.handle, poff := h.offset, pkind := false }
  | none => c.cr

/-- The header of an image (R305). -/
def State.imageHeader (s : State) (n : Nat) (v : Save) (dir : List (Nat × Nat)) (len : Nat) : Nat :=
  let c := s.coreAt n
  packFields ([(0x4E375349, 32), (1, 16), (v.forced.toNat, 16), (len, 64), (s.dcc, 64), (c.ctx.ctx.toNat, 16), (c.cr.qnum.toNat, 16),
      (c.cr.launch.toNat, 32), (c.savedCr.bits.toNat, 512)] ++ dir.map (fun e => (e.1 + 2 ^ 32 * e.2, 64)) ++
    [(c.ctx.root.toNat, 64), (c.ctx.rring.toNat, 64), (c.ctx.tring.toNat, 64), (v.badList.toNat, 1), (0, 19), (v.lt.toNat, 16), (v.lq.toNat, 8),
      (v.lw.toNat, 4), (maskOf 16 fun i => c.savedAccs.contains i, 16), (maskOf 16 fun i => (c.accState i).fresh, 16)])

/-- The pieces of an image with their offsets. -/
def State.imagePieces (s : State) (n : Nat) (v : Save) : List (Nat × List VByte) × Nat :=
  let secs := s.imageSections n v
  let (dir, len) := directory 256 256 secs
  ((0, sectionBytes 256 (s.imageHeader n v dir len) headerReserved) :: (dir.zip secs).map fun e => (e.1.1, e.2), len)

/-- An image written at a device address, but for its reserved bits (R7). -/
def State.writePieces (s : State) (a : Nat) : List (Nat × List VByte) → State
  | [] => s
  | (o, b) :: r => (s.setHomeCells (a + o) b).writePieces a r

/-- Section `i` of the image at `a`: its offset and length. -/
def State.sectionAt (s : State) (a i : Nat) : Nat × Nat := (s.homeRead (a + 96 + 8 * i) 4, s.homeRead (a + 100 + 8 * i) 4)

/-- The scalars a frame holds, those that are not live as at task start (R299). -/
def restoredScalars (frame : Nat) : Tab Scalar :=
  ((List.range 32).foldl (fun t r =>
    if r ≠ 0 ∧ bitsAt frame (6176 + r) 1 = 1 then
      t.put r ⟨[⟨0, .C, BitVec.ofNat 64 (bitsAt frame (4096 + 64 * r) 64), decide (bitsAt frame (6144 + r) 1 = 1)⟩], none⟩
    else t) .empty)

/-- Tiles from section 1: those of `lt` in rising order. -/
def State.restoredTiles (s : State) (a : Nat) (lt : Nat) : Tab Row :=
  (((List.range 16).filter fun t => bitsAt lt t 1 = 1).zipIdx).foldl (fun tab e =>
    (List.range 16).foldl (fun tab r => tab.set 0 (16 * e.1 + r) (BitVec.ofNat 4096 (s.homeRead (a + 8192 * e.2 + 512 * r) 512))) tab) .empty

/-- Queues from section 2: (number, rows) for each header met. -/
def State.restoredQueues (s : State) (a : Nat) : Nat → Nat → List (Nat × List Row)
  | 0, _ => []
  | k + 1, len =>
    if len = 0 then []
    else
      let count := s.homeRead a 1
      let size := 64 + 512 * count
      (s.homeRead (a + 1) 1, (List.range count).map fun i => BitVec.ofNat 4096 (s.homeRead (a + 64 + 512 * i) 512)) ::
        s.restoredQueues (a + size) k (len - size)

/-- A core with the queues of section 2. -/
def Core.withQueues (c : Core) (qs : List (Nat × List Row)) : Core :=
  qs.foldl (fun c e =>
    if e.1 < 8 then { c with loadq := c.loadq.set [] e.1 e.2 } else { c with storeq := c.storeq.set [] (e.1 - 8) e.2 }) c

/-- A core with the accumulator that stands at `a`. -/
def State.restoreAcc (s : State) (a : Nat) (c : Core) : Core :=
  let i := s.homeRead a 1
  let st := c.accState i
  let c := c.setAccState i { st with ta := BitVec.ofNat 32 (s.homeRead (a + 2) 4), tb := BitVec.ofNat 32 (s.homeRead (a + 6) 4) }
  (List.range 128).foldl (fun c r =>
    c.setAccRow i r ((List.range 128).map fun j => BitVec.ofNat 32 (s.homeRead (a + 64 + 512 * r + 4 * j) 4))) c

/-- The scale patterns of an accumulator that is not saved stand in the MMUL that has recorded them and not yet written a row (R226). -/
def Core.recordFrom (c : Core) (g : StepRegs) : Core :=
  let st := c.accState g.accumulator
  if st.zero ∧ !st.fresh then
    c.setAccState g.accumulator { st with ta := BitVec.ofNat 32 (stepField g.ma 224 32), tb := BitVec.ofNat 32 (stepField g.mb 224 32) }
  else c

/-- The 16 barriers of section 11, with the clocks kept of them (log 13). -/
def State.restoredBarriers (s : State) (a : Nat) (kept : Tab Barrier) : Tab Barrier :=
  (List.range 16).foldl (fun t i =>
    let w := s.homeRead (a + 16 * i) 16
    let k := kept.get .start i
    t.set .start i
      { k with
        scope := BitVec.ofNat 3 w
        err := decide (bitsAt w 3 1 = 1)
        isSet := decide (bitsAt w 4 1 = 1)
        exp := BitVec.ofNat 16 (bitsAt w 16 16)
        arr := BitVec.ofNat 16 (bitsAt w 32 16)
        arrn := BitVec.ofNat 16 (bitsAt w 48 16)
        compl := BitVec.ofNat 32 (bitsAt w 64 32)
        drop := BitVec.ofNat 32 (bitsAt w 96 32) }) .empty

/-- The version of section 7, with the nibbles kept of it (log 13). -/
def State.restoredVersion (s : State) (a len : Nat) (nibbles : Tab Byte) : Tab VByte :=
  (List.range (len / 80)).foldl (fun t i =>
    let e := a + 80 * i
    let line := bitsAt (s.homeRead e 8) 0 43
    (List.range 64).foldl (fun t b =>
      if s.homeRead (e + 8 + b / 8) 1 / 2 ^ (b % 8) % 2 = 1 then t.put (line + b) ⟨s.homeByte (e + 16 + b), nibbles.get 0xFF (line + b)⟩ else t) t) .empty

/-- The held entries of section 8. -/
def State.restoredSpawn (s : State) (a len : Nat) : List HeldEntry :=
  (List.range (len / 80)).map fun i =>
    let e := a + 80 * i
    ⟨decide (s.homeRead e 1 = 1), .ofBits (BitVec.ofNat 512 (s.homeRead (e + 16) 64)), BitVec.ofNat 32 (s.homeRead (e + 8) 4),
      BitVec.ofNat 32 (s.homeRead (e + 12) 4)⟩

/-- The scratchpad of section 10: what it does not name reads 0 (R299). -/
def State.restoredScratch (s : State) (a : Nat) : Nat → Nat → Memory → Memory
  | 0, _, m => m
  | k + 1, len, m =>
    if len = 0 then m
    else
      let n := s.homeRead (a + 4) 4
      s.restoredScratch (a + 64 + n) k (len - (64 + n)) (m.setBytes (s.homeRead a 4) (s.homeBytes (a + 64) n))

/-- A vector clock of section 9, cleared where its era is an older one (R205). -/
def State.restoredVector (s : State) (a : Nat) : Tab Nat :=
  if s.homeRead (a + 1539) 1 = s.eraNow.toNat then (List.range 513).foldl (fun t i => t.set 0 i (s.homeRead (a + 3 * i) 3)) .empty else .empty

/-- The elements of a request that is made again, byte by byte (R261): the flits of `mask` have their values; the others are to be found anew, which their
place, of the device's own node, says. -/
def requestParts (own off len mask : Nat) (data : List Byte) : List Part :=
  (List.range len).map fun i =>
    if bitsAt mask (i / 64) 1 = 1 then ⟨.pad ((data.getD i 0).toNat), 0, 0, 8, none⟩ else ⟨.remote own (off + i), off + i, 0, 8, none⟩

/-- A reassembly slot of section 6 (R304): its row keeps its place in its queue, and its missing flits are requested again, in the race mode that the task was
saved with (DESIGN CHOICE, log 88). -/
def State.restoreSlot (s : State) (n e : Nat) : State :=
  let c := s.coreAt n
  let mask := s.homeRead (e + 1) 1
  let q := (s.homeRead (e + 2) 1 - 64) / 8
  let len := s.homeRead (e + 16) 2
  let data := s.homeBytes (e + 32) 512
  let id := c.nextId
  let t : Ticket :=
    { id := id, row := if mask = 0xFF then some (BitVec.ofNat 4096 (natOfBytes (data.take len))) else none
      handle := BitVec.ofNat 32 (s.homeRead (e + 20) 4), off := s.homeRead (e + 24) 8, len := len, node := s.homeRead (e + 18) 2
      qual := s.homeRead e 1 }
  let c := { c with nextId := id + 1, loadqTickets := c.loadqTickets.put q (c.loadqTickets.get [] q ++ [t]) }
  if mask = 0xFF then s.setCoreAt n c
  else
    let x : Access :=
      { id := id, cluster := .A, unit := 0, pc := 0, code := 7, handle := t.handle, coord := [], op := .queueRow q id
        parts := requestParts s.node.toNat t.off len mask data, acq := false, rel := false, scope := BitVec.ofNat 3 (t.qual / 4), versioned := false
        mode := c.rmode.extractLsb' 0 2, checked := false, metaH := 0, span := 0, phase := .issued, since := s.dcc, before := none }
    s.setCoreAt n (({ c with accesses := c.accesses ++ [x] } : Core).takeSlot id (BitVec.ofNat 8 mask))

/-- The slots of section 6, those of one queue in the order of its entries (R304). -/
def State.restoreSlots (s : State) (n a len : Nat) : State :=
  let es := ((List.range (len / 576)).map fun i => a + 576 * i).mergeSort fun x y => decide (s.homeRead (x + 2) 1 ≤ s.homeRead (y + 2) 1)
  es.foldl (fun t e => t.restoreSlot n e) s

/-- A replay record as a command (R309): it keeps its identifier and goes on from NEXT; handles that no longer pass end it. It has no field for the vector
clock and the race mode of the command: they are cluster A's at the resumption and the saved RMODE (DESIGN CHOICE, logs 88 and 91). -/
def State.replayed (s : State) (n w : Nat) : Command :=
  let x : BitVec 512 := BitVec.ofNat 512 w
  let fn := bitsAt w 528 8
  let next := bitsAt w 576 64
  let me := agentId n .A
  let c := s.coreAt n
  let checked := s.checkHandles (s.viewer n) fn x
  { id := BitVec.ofNat 16 (bitsAt w 512 16), fn := BitVec.ofNat 7 fn, desc := x, clk := bitsAt w 800 24, vc := s.vectorOf me,
    mode := c.rmode.extractLsb' 0 2, members := if fn = 0 then [s.node.toNat] else if fn = 2 ∧ checked.toOption.isSome then [] else [descNode x]
    work := match checked with
      | .ok (_, dst) => if fn = 2 then [] else (memberWork x dst 0).drop next
      | .error _ => []
    bits := (Tab.empty : Tab Nat).set 0 0 (8 * bitsAt w 640 64)
    fails := match checked with
      | .ok _ => .empty
      | .error h => Tab.empty.put 0 (failureOf (descDsth x) h.answer)
    unacked := 0, waiting := none, waitMeta := false, waitHandle := 0, since := s.dcc, issued := bitsAt w 704 64, top := 0
    finished := (Tab.empty : Tab Nat).set 0 0 next, squash := false, dropped := 0 }

/-- The registers of a frame in a core (R304 step 4). -/
def Core.withFrame (c : Core) (w lt : Nat) : Core :=
  let f := fun (lo : Nat) => (BitVec.ofNat 64 (bitsAt w lo 64) : DWord)
  let due := decide (bitsAt w 7240 1 = 1)
  let tv := f 7360
  let tc := f 7296 &&& trapcBits
  { c with
    clusters := (List.range 4).foldl (fun t k => t.put k (.ofBlock (bitsAt w (1024 * k) 1024))) .empty
    scal := restoredScalars w
    shp := f 6208 &&& shpBits
    ftb := f 6272 &&& ftbBits
    fts := f 6336 &&& lowTwoBits
    syncto := f 6400 &&& lowWordBits
    rmode := f 6464 &&& lowTwoBits
    trapc := f 6528 &&& trapcBits
    trapv := f 6592
    cmdn := BitVec.ofNat 16 (bitsAt w 6656 16)
    mstat := f 6720 &&& 0xFFFF000000000003
    accs := (List.range 16).foldl (fun t i =>
      t.set .start i ⟨decide (bitsAt lt i 1 = 1), 0, 0, decide (bitsAt w (6800 + i) 1 = 1)⟩) .empty
    tinfo := f 6848 &&& tinfoBits
    tframe := f 6912
    ids := BitVec.ofNat 256 (bitsAt w 6976 256)
    pendingTrap := if due then some ⟨.trap, tc, tv, [], 0, 0, 0, false, false, false, 0⟩ else none }

/-- The continuation a task of a saved CR holds open (R46): held as an entry, or committed, when the CR's parent link names it. -/
def restoredJoin (cr : Cr) (tinfo : DWord) (spawn : List HeldEntry) : Option HoldRef :=
  if !tinfo.getLsbD 7 then none
  else match spawn.find? HeldEntry.isJoin with
    | some e => some ⟨e.slotH, e.slotO, false⟩
    | none => some ⟨cr.ph, cr.poff, false⟩

/-- The context and partition data a core loads for a task of a context (R316, R317). -/
def State.contextData (s : State) (ctx : BitVec 16) : ContextData :=
  let d := s.contexts.get 0 ctx.toNat
  let p := s.partitions.get 0 (d.extractLsb' 64 16).toNat
  let dl := (d.extractLsb' 6 10).toNat
  let fsdl := (p.extractLsb' 192 16).toNat
  { ctx := ctx
    part := d.extractLsb' 64 16
    root := d.extractLsb' 128 64
    job := d.extractLsb' 96 24
    dl := if 1000 < dl then 1000 else dl
    dbg := d.getLsbD 2
    rmode := if d.extractLsb' 0 2 = 3 then 0 else d.extractLsb' 0 2
    tring := ringOfTraps p
    rring := ringOf p
    fsdl := if fsdl = 0 then 1000 else fsdl }

/-- What stays of a core from task to task: its caches, its debug registers and buffer, the numbering of its accesses, its clock. -/
def Core.cleared (c : Core) : Core :=
  { Core.start with
    recCache := c.recCache
    ruCache := c.ruCache
    icache := c.icache
    nextId := c.nextId
    dxw := c.dxw
    dctl := c.dctl
    dbuf := c.dbuf
    lostOwed := c.lostOwed
    lostFirst := c.lostFirst
    lostCount := c.lostCount
    sampledAt := c.sampledAt }

/-- A field of a launch record (R84). -/
def Launch.field (l : Launch) (lo n : Nat) : Nat := bitsAt l.record.toNat lo n

/-- Core `n` with the task of a Ready record, before its registers have their values (R32, R84, R317). -/
def State.boundCore (s : State) (n : Nat) (r : ReadyCr) : Core :=
  let (vres, sync) := match s.launch r.launch with
    | some l => (l.field 17 7, l.field 256 32)
    | none => (0, 0)
  let age := match s.slotOf r.ctx r.cr.qnum with
    | some k => (s.queue k).ageus
    | none => 1000
  let domain := if r.cr.domain = 5 then 4 else r.cr.domain
  { (s.coreAt n).cleared with
    busy := true
    key := r.key
    launchKey := r.launch
    gang := r.gang
    cr := { r.cr with state := .running, inst := unitOf n domain }
    ctx := s.contextData r.ctx
    vresLines := vres * 1024
    syncto := BitVec.ofNat 64 sync
    ageus := BitVec.ofNat 64 age }

/-- The task of an image in a core (R304 steps 1 and 4): what `s` reads at `a`. -/
def State.imageCore (s : State) (n a : Nat) (r : ReadyCr) : Core :=
  let sec := s.sectionAt a
  let w := s.homeRead (a + (sec 0).1) 1024
  let masks := s.homeRead (a + 216) 10
  let c := s.boundCore n r
  let c := c.withFrame w (bitsAt masks 64 16)
  let spawn := s.restoredSpawn (a + (sec 8).1) (sec 8).2
  let mpc := (c.cl .M).pc
  let c :=
    { c with
      started := true
      openJoin := restoredJoin c.cr c.tinfo spawn
      spawn := spawn
      version := s.restoredVersion (a + (sec 7).1) (sec 7).2 r.kept.nibbles
      versionRu := r.kept.rus
      versionOf := r.kept.recs
      pendingTrap := match c.pendingTrap with
        | some t => some t
        | none => r.kept.owed
      commits := r.kept.commits
      commitDcc := r.kept.commitDcc
      cmdClk := r.kept.cmdClk
      scratch := s.restoredScratch (a + (sec 10).1) 257 (sec 10).2 .empty
      tiles := if (sec 1).2 = 0 then .empty else s.restoredTiles (a + (sec 1).1) (bitsAt masks 20 16)
      arrayX := .ofBits (s.homeRead (a + (sec 4).1) 384) mpc r.kept.stamps[0]? (c.rmode.extractLsb' 0 2)
      arrayY := .ofBits (s.homeRead (a + (sec 4).1 + 384) 384) mpc r.kept.stamps[1]? (c.rmode.extractLsb' 0 2)
      barriers := if (sec 11).2 = 0 then .empty else s.restoredBarriers (a + (sec 11).1) r.kept.barriers
      seq := 2 }
  let c := c.withQueues (s.restoredQueues (a + (sec 2).1) 12 (sec 2).2)
  let c := (List.range ((sec 3).2 / 65600)).foldl (fun c i => s.restoreAcc (a + (sec 3).1 + 65600 * i) c) c
  let c := [c.arrayX, c.arrayY].foldl (fun c y =>
    ((y.ops.map ArrayOp.regs) ++ (y.pend.toList.map PendingOp.regs)).foldl Core.recordFrom c) c
  (allClusters.zip r.kept.lastCmds).foldl (fun c e => c.setCl e.1 { c.cl e.1 with lastCmdClock := e.2 }) c

/-- The clocks of a task that resumes (R201, R203, R205): the saved vectors, joined with what a pop joins. -/
def State.restoreClocks (s : State) (n a : Nat) : State :=
  allClusters.foldl (fun s k =>
    let x := agentId n k
    let s := s.setVector x (s.restoredVector (a + 2048 * clusterIndex k))
    (s.joinInto x s.commitVector).tick x) s

/-- A task resumes on core `n` from the image of its save reference (R304). What a command replayed there delivers is that of the core's own agent (R203). -/
def State.restoreTask (s : State) (n : Nat) (r : ReadyCr) : State :=
  let a := (r.saveRef.extractLsb' 0 43).toNat
  let s := s.setCoreAt n (s.imageCore n a r)
  let s := s.restoreSlots n (a + (s.sectionAt a 6).1) (s.sectionAt a 6).2
  let s := s.restoreClocks n (a + (s.sectionAt a 9).1)
  let (o, len) := s.sectionAt a 5
  let ks := (List.range (len / 128)).map fun i => s.replayed n (s.homeRead (a + o + 128 * i) 128)
  let c := s.coreAt n
  s.setCoreAt n { c with commands := ks, cmdClk := ks.foldl (fun t k => t.put k.id.toNat (cmdStamp (agentId n .A) k.clk)) c.cmdClk }

end Sys2Proof.Machine
end

