-- ==== Sys2Proof/Machine/Launches.lean ====
section
/-!
DEFINITION. Queue slots (R66 to R70), launch records and their checks (R35 to R40, R84 to R86), expansion (R39, R71), and completion records (R45,
R87, R88).
-/

namespace Sys2Proof.Machine

/-- MAPQUEUE's command accepted (R67, R68): the queue's descriptor at `a` becomes slot `n`'s. -/
def State.mapSlot (s : State) (n a : Nat) : State :=
  let rd := fun (o k : Nat) => s.homeRead (a + o) k
  let age := rd 34 2
  let q : QueueSlot :=
    { desca := a, merr := false, state := .mapped, head := BitVec.ofNat 32 (rd 12 4), tail := BitVec.ofNat 32 (rd 8 4), err := 0,
      logn := rd 0 1 % 32, ringh := BitVec.ofNat 32 (rd 4 4), readyh := BitVec.ofNat 32 (rd 20 4), readyn := rd 16 2,
      ctx := BitVec.ofNat 16 (rd 38 2), qnum := BitVec.ofNat 16 (rd 36 2), basep := rd 32 1 % 32, ageus := if age = 0 then 1 else age,
      boost := 0, intervalStart := s.dcc, mappedAt := a }
  let flags := rd 24 1
  let pending := BitVec.ofNat 32 (rd 28 4)
  let key := queueKey q.ctx q.qnum
  let live := rd 44 2
  let s := (s.homeWrite (a + 40) 1 0).homeWrite (a + 24) 1 (flags / 4 * 4 + 2)
  let s := { s.setQueue n q with queueDescs := s.queueDescs.put key a, live := s.live.set 0 key live }
  if flags % 2 = 1 then s.takeNotify n pending else s

/-- HEAD, TAIL and LIVE written back to a slot's descriptor (R70). -/
def State.writeBack (s : State) (slot : Nat) : State :=
  let q := s.queue slot
  ((s.homeWrite (q.mappedAt + 12) 4 q.head.toNat).homeWrite (q.mappedAt + 8) 4 q.tail.toNat).homeWrite (q.mappedAt + 44) 2 (s.liveOf q.ctx q.qnum)

/-- The unmap command (R68, R70): accepted in state MAPPED, where DESCA takes the value written with it; popping stops, and the queue's descriptor
takes the counts. -/
def State.unmapCommand (s : State) (slot a : Nat) : State :=
  if 128 ≤ slot then s
  else
    let q := s.queue slot
    if q.state = .mapped then (s.setQueue slot { q with desca := a, merr := false, state := .unmapping, boost := 0 }).writeBack slot
    else s.setQueue slot { q with merr := true }

/-- UNMAP_QUEUE (R70): SLOTCTL written with CMD 2 and DESCA as it stands. -/
def execUnmapQueue (slot : Nat) (s : State) : Host.Outcome State Fault Refusal := .next (s.unmapCommand slot (s.queue slot).desca)

/-- Has some core a store queued that was translated to a slot's notify register (R69, R70)? -/
def State.notifyUnderWay (s : State) (slot : Nat) : Bool :=
  s.cores.cells.any fun e => e.2.accesses.any fun x => match x.op with
    | .notify k _ => decide (k = some slot)
    | _ => false

/-- UNMAP_COMPLETE (R70): every notify translated before the command has arrived: MAPD clears and the slot is FREE. -/
def execUnmapComplete (slot : Nat) (s : State) : Host.Outcome State Fault Refusal :=
  .next (
    let q := s.queue slot
    if q.state = .unmapping then
      if s.notifyUnderWay slot then s
      else
      let flags := s.homeRead (q.mappedAt + 24) 1
      let s := s.writeBack slot
      (s.homeWrite (q.mappedAt + 24) 1 (flags / 4 * 4 + flags % 2)).setQueue slot { q with state := .free }
    else s)

/-- A queue's ERR set, wherever the queue stands (R67, R87). -/
def State.queueFails (s : State) (ctx qnum : BitVec 16) (e : Byte) : State :=
  match s.slotOf ctx qnum, s.queueDescs.find (queueKey ctx qnum) with
  | some k, _ => s.queueError k e
  | none, some a => s.homeWrite (a + 40) 1 e.toNat
  | none, none => s

/-- The scheduler's lookup of a handle: scratch records are of no use to it. -/
def State.schedRecord (s : State) (v : Viewer) (h : BitVec 32) (acc : Nat) : Except Hold ObjRec :=
  if 0xFFF00 ≤ handleIndex h then .error (xlateTrap 0x11 h 0 acc) else s.lookup v h acc

/-- Where ring entry `n` of a slot is (R66). -/
def State.ringEntry (s : State) (q : QueueSlot) : Except Hold Nat := do
  let v := s.schedViewer q.ctx
  let r ← s.schedRecord v q.ringh 0
  let off := q.head.toNat % 2 ^ q.logn * 128
  if r.span < off + 128 then .error (xlateTrap 0x15 q.ringh 0 0)
  else
    match ← s.placeOf v r q.ringh 0 [] off false with
    | (.device a, _) => .ok a
    | _ => .error (xlateTrap 0x12 q.ringh 0 0)

/-- The record of a completion location that may be written (R87): no residency step is taken. -/
def State.completionOk (s : State) (ctx : BitVec 16) (h : BitVec 32) (x : Nat) : Bool :=
  match s.schedRecord (s.schedViewer ctx) h 1 with
  | .error _ => false
  | .ok r =>
    decide (r.eb = 8) && decide (x % 32 = 0) && (List.range 32).all fun i =>
      (r.outside (r.linear (x + i))).isNone && decide (r.linearBit (x + i) = r.linearBit x + 8 * i)

/-- LEVELS. -/
def Launch.levels (l : Launch) : Nat := l.field 4 4

/-- The extent of level `k` (R84). -/
def Launch.extent (l : Launch) (k : Nat) : Nat := l.field (512 + 32 * k) 16

/-- The domain of level `k`. -/
def Launch.domain (l : Launch) (k : Nat) : Nat := l.field (528 + 32 * k) 3

/-- The scope of level `k`. -/
def Launch.scope (l : Launch) (k : Nat) : Nat := l.field (531 + 32 * k) 3

/-- The gang flag of level `k`. -/
def Launch.gang (l : Launch) (k : Nat) : Bool := decide (l.field (534 + 32 * k) 1 = 1)

/-- The product of the extents of levels `k` to L − 1. -/
def Launch.inner (l : Launch) (k : Nat) : Nat := ((List.range (l.levels - k)).map fun j => l.extent (k + j)).foldl (· * ·) 1

/-- The level whose instances are the gangs (R42): the outermost one with the flag. -/
def Launch.gangLevel (l : Launch) : Option Nat := (List.range l.levels).find? l.gang

/-- Does level `k` fail check 3 of R85? -/
def Launch.badLevel (l : Launch) (k : Nat) : Bool :=
  decide (l.extent k = 0) || decide (l.domain k = 0 ∨ 5 < l.domain k) || decide (l.scope k = 0 ∨ 5 < l.scope k) ||
    (decide (k ≠ 0) && decide (l.domain (k - 1) < l.domain k)) || decide (l.scope k < l.domain k) ||
    (decide (l.domain k = 5) && (decide (k ≠ 0) || l.gang k))

/-- The first level at which the product of the extents exceeds 2^32 − 1 (R85 check 4). -/
def Launch.tooMany (l : Launch) : Option Nat :=
  (List.range l.levels).find? fun k => decide (2 ^ 32 ≤ ((List.range (k + 1)).map l.extent).foldl (· * ·) 1)

/-- The unfenced cores of the best unit of a domain (R30): a quad counts only whole. -/
def State.capacity (s : State) (domain : Nat) : Nat :=
  let free := fun (ns : List Nat) => (ns.filter fun n => !s.fenced n).length
  let quads := (List.range 16).map fun q => (List.range 4).map (4 * q + ·)
  match domain with
  | 1 => if (List.range 64).any fun n => !s.fenced n then 1 else 0
  | 2 => if quads.any fun q => q.all fun n => !s.fenced n then 4 else 0
  | 3 => max (free (List.range 32)) (free ((List.range 32).map (32 + ·)))
  | _ => free (List.range 64)

/-- A device map's entries (R86): nothing where the map is invalid; a unit that is not present is waited for. -/
def State.deviceMap (s : State) (ctx : BitVec 16) (l : Launch) : Except Hold (Option (List Nat)) :=
  let h := BitVec.ofNat 32 (l.field 384 32)
  let off := l.field 416 32
  let v := s.schedViewer ctx
  match s.schedRecord v h 0 with
  | .error _ => .ok none
  | .ok r =>
    if r.span < off + 2 * l.extent 0 then .ok none
    else
      let places := (List.range (l.extent 0)).map fun i => s.placeOf v r h 0 [] (off + 2 * i) false
      match places.findSome? fun p => match p with
          | .error (.fault t) => some t
          | _ => none with
      | some t => .error (.fault t)
      | none =>
        let nodes := places.map fun p => match p with
          | .ok (.device a, _) => s.homeRead a 2
          | _ => 0xFFFF
        .ok (if nodes.all fun n => decide (n ≤ 1057) then some nodes else none)

/-- The limit on a launch's VRES (R85, R173): the lesser of the two dies' V, since a launch that is not yet bound may run on either; which die's V counts
is not given (DESIGN CHOICE, log 57). -/
def State.versionLimit (s : State) : Nat := min (s.vresLimit.get 64 0) (s.vresLimit.get 64 1)

/-- Checks 6 and 7 of R85. -/
def State.lateRefusal (s : State) (l : Launch) : Option Nat :=
  if 64 < l.field 17 7 ∨ s.versionLimit < l.field 17 7 then some 0xF
  else if 2 ^ 32 ≤ l.field 160 32 + l.field 224 32 * (l.inner 0 - 1) then some 0xF
  else none

/-- The first check of R85 that a launch fails, by its FLEVEL; check 8 apart. -/
def State.refusal (s : State) (q : QueueSlot) (l : Launch) : Option Nat :=
  if l.field 0 4 ≠ 1 then some 0xF
  else if l.levels = 0 ∨ 8 < l.levels then some 0xF
  else
    match (List.range l.levels).find? l.badLevel with
    | some k => some k
    | none =>
      match l.tooMany with
      | some k => some k
      | none =>
        match l.gangLevel with
        | some k =>
          if s.capacity (l.domain k) < l.inner k ∨ q.readyn < l.inner k then some k else s.lateRefusal l
        | none => s.lateRefusal l

/-- A launch as it is accepted, before its instances are known. -/
def newLaunch (slot : Nat) (q : QueueSlot) (record : BitVec 1024) : Launch :=
  { slot := slot, qnum := q.qnum, ctx := q.ctx, record := record, total := 0, expanded := [], alive := 0, endedDone := 0, trapped := 0,
    status := 0, flevel := 0, heldSince := none, mine := none, level0 := .empty, dieMask := 0 }

/-- The scheduler takes a launch in (R84 to R86). -/
def State.addLaunch (s : State) (l : Launch) : State :=
  { s with launches := s.launches.put s.nextLaunch l, nextLaunch := s.nextLaunch + 1 }

/-- The record and the save reference in slot `i` of a mapped queue's ready area (R303), where that can be read. -/
def State.areaRecord (s : State) (q : QueueSlot) (i : Nat) : Option (Cr × DWord) :=
  match s.schedRead q.ctx q.readyh (64 * i) 64, s.schedRead q.ctx q.readyh (64 * q.readyn + 8 * i) 8 with
  | some w, some r => some (.ofBits (BitVec.ofNat 512 w), BitVec.ofNat 64 r &&& ~~~(0x1FFF#64 <<< 50))
  | _, _ => none

/-- The launch record with that LAUNCH in a queue's ring (R66), where it still stands there. -/
def State.ringRecord (s : State) (q : QueueSlot) (id : BitVec 32) : Option (BitVec 1024) :=
  (List.range (2 ^ q.logn)).findSome? fun i =>
    match s.schedRead q.ctx q.ringh (128 * i) 128 with
    | some w => if (w / 2 ^ 32) % 2 ^ 32 = id.toNat then some (BitVec.ofNat 1024 w) else none
    | none => none

/-- The launch that a record of the ready area names, taken in from the queue's ring where this device does not know it: all of it is expanded, and it has
no task here yet (R311; log 82). -/
def State.launchOf (s : State) (slot : Nat) (q : QueueSlot) (id : BitVec 32) : State × Nat :=
  match s.findLaunch q.ctx q.qnum id with
  | some k => (s, k)
  | none =>
    match s.ringRecord q id with
    | some w => (s.addLaunch (newLaunch slot q w), s.nextLaunch)
    | none => (s, 0)

/-- The number of level `k`'s instance that holds a record of the launch (R36). -/
def Launch.instance_ (l : Launch) (cr : Cr) (k : Nat) : Nat :=
  (List.range k).foldl (fun x j => x * l.extent j + (cr.idx.extractLsb' (16 * j) 16).toNat) 0

/-- Index `k` of the task at linear index `x` (R36). -/
def Launch.index (l : Launch) (x k : Nat) : Nat := x / l.inner (k + 1) % l.extent k

/-- The CR of a task of a launch (R41, R72, R83, R85). -/
def Launch.cr (l : Launch) (basep x : Nat) : Cr :=
  let last := l.levels - 1
  let b := fun (n lo w : Nat) => BitVec.ofNat n (l.field lo w)
  { ready := 0
    dscope := BitVec.ofNat 3 (l.scope last)
    qnum := l.qnum
    launch := b 32 32 32
    idx := BitVec.ofNat 128 (packFields ((List.range l.levels).map fun k => (l.index x k, 16)))
    inst := if l.domain last = 4 then 0 else 0xFFFF
    state := .ready
    domain := BitVec.ofNat 3 (l.domain last)
    prio := BitVec.ofNat 5 (min (l.field 12 5) basep)
    pkind := true
    joinc := 0
    poff := 0
    ph := 0
    foff := BitVec.ofNat 32 (l.field 160 32 + l.field 224 32 * x)
    fh := b 32 128 32
    coff := b 32 96 32
    ch := b 32 64 32 }

/-- Has the launch's expansion made this record, rather than a SPAWN of one of its tasks (R42, R47, R85)? -/
def Launch.made (l : Launch) (cr : Cr) : Bool :=
  let e := l.cr 31 (l.instance_ cr l.levels)
  cr.pkind && e.ch = cr.ch && e.coff = cr.coff && e.fh = cr.fh && e.foff = cr.foff && e.domain = cr.domain && e.inst = cr.inst

/-- Is a task of the ready area a gang member: by TINFO of its image, where it resumes from one (R62, R303); else where expansion made it (R42)? -/
def State.inGang (s : State) (l : Launch) (cr : Cr) (ref : DWord) : Bool :=
  if ref.getLsbD 63 then
    let a := (ref.extractLsb' 0 43).toNat
    decide (bitsAt (s.homeRead (a + (s.sectionAt a 0).1 + 856) 8) 15 1 = 1)
  else l.made cr

/-- The gang of such a record: the instance of the gang level that holds it (R42). -/
def State.gangOf (s : State) (l : Launch) (key : Nat) (cr : Cr) (ref : DWord) : Option (Nat × Nat) :=
  match l.gangLevel with
  | some g => if s.inGang l cr ref then some (key * 2 ^ 32 + l.instance_ cr g, l.inner g) else none
  | none => none

/-- A Ready record that stands in slot `i` of a queue's ready area taken in (R71, R311). -/
def State.takeIn (s : State) (slot : Nat) (q : QueueSlot) (i : Nat) (cr : Cr) (ref : DWord) : State :=
  let (s, key) := s.launchOf slot q cr.launch
  let gang := match s.launch key with
    | some l => s.gangOf l key cr ref
    | none => none
  let made := match s.launch key with
    | some l => decide (ref = 0) && l.made cr
    | none => false
  let s := match s.launch key with
    | some l => s.setLaunch key (({ l with alive := l.alive + 1 } : Launch).bump cr.group 0 1)
    | none => s
  { s with ready := s.ready ++ [⟨s.nextKey, key, cr, q.ctx, gang, ref, made, none, i, .none, true⟩], nextKey := s.nextKey + 1 }

/-- Slot `i` of a mapped queue's ready area against what the device holds: the area decides, where it can be read (R71, R311; log 82). -/
def State.adoptSlot (s : State) (slot : Nat) (q : QueueSlot) (i : Nat) : State :=
  match s.areaRecord q i with
  | none => s
  | some (cr, ref) =>
    match s.ready.find? fun r => r.ctx = q.ctx && r.cr.qnum = q.qnum && decide (r.slot = i) with
    | some r =>
      if r.cr = cr ∧ r.saveRef = ref then s
      else
        let s := { s with ready := s.ready.filter fun x => x.key ≠ r.key }
        let s := match s.launch r.launch with
          | some l => s.setLaunch r.launch (({ l with alive := l.alive - 1 } : Launch).bump r.cr.group 0 (-1))
          | none => s
        if cr.state = .ready ∧ cr.qnum = q.qnum then s.takeIn slot q i cr ref else s
    | none => if cr.state = .ready ∧ cr.qnum = q.qnum then s.takeIn slot q i cr ref else s

/-- The Ready records of a queue that has been mapped (R71, R311): those that stand in its ready area, as another device may have left them. What LIVE
counts beyond the tasks of the launches known here is the first of the launches taken in's (log 82). -/
def State.adoptReady (s : State) (slot : Nat) : State :=
  let q := s.queue slot
  let t := (List.range q.readyn).foldl (fun t i => t.adoptSlot slot q i) s
  if t.nextLaunch = s.nextLaunch then t
  else
    let known := ((t.launches.values.filter fun l => l.ctx = q.ctx && l.qnum = q.qnum).map Launch.alive).foldl (· + ·) 0
    match t.launch s.nextLaunch with
    | some l => t.setLaunch s.nextLaunch { l with alive := l.alive + (t.liveOf q.ctx q.qnum - known) }
    | none => t

/-- The map command (R68): accepted in state FREE, where its descriptor's MAPD is 0; else MERR, as where no memory is at the descriptor's address
(DESIGN CHOICE, log 82). -/
def State.mapCommand (s : State) (slot a : Nat) : State :=
  if 128 ≤ slot then s
  else
    let q := s.queue slot
    if q.state = .free ∧ s.offered a 64 ∧ s.homeRead (a + 24) 1 / 2 % 2 = 0 then (s.mapSlot slot a).adoptReady slot
    else s.setQueue slot { q with merr := true }

/-- MAP_QUEUE (R68): SLOTCTL written with CMD 1. -/
def execMapQueue (slot : Nat) (v : BitVec 64) (s : State) : Host.Outcome State Fault Refusal :=
  .next (s.mapCommand slot (v.toNat / 64 * 64))

/-- A launch refused: its completion record is owed with STATUS 0x10 (R37). -/
def State.refuse (s : State) (l : Launch) (flevel : Nat) : State := s.addLaunch { l with status := 0x10, flevel := flevel }

/-- The entry at HEAD taken (R69). -/
def State.consume (s : State) (slot : Nat) : State := s.setQueue slot { s.queue slot with head := (s.queue slot).head + 1 }

/-- A launch record accepted or refused (R37, R85, R86, R87); a residency unit that it needs is waited for. -/
def State.acceptRecord (s : State) (slot : Nat) (record : BitVec 1024) : State :=
  let q := s.queue slot
  let l := newLaunch slot q record
  if !s.completionOk q.ctx (BitVec.ofNat 32 (l.field 320 32)) (l.field 352 32) then (s.consume slot).queueError slot 0x03
  else
    match s.refusal q l with
    | some f => (s.consume slot).refuse l f
    | none =>
      if l.domain 0 = 5 then
        match s.deviceMap q.ctx l with
        | .error _ => s.signalUnit (s.schedViewer q.ctx) (BitVec.ofNat 32 (l.field 384 32))
        | .ok none => (s.consume slot).refuse l 0
        | .ok (some nodes) =>
          let mine := (List.range nodes.length).filter fun i => nodes.getD i 0 = s.node.toNat
          (s.consume slot).addLaunch { l with total := mine.length * l.inner 1, mine := some mine }
      else (s.consume slot).addLaunch { l with total := l.inner 0 }

/-- LAUNCH_ACCEPT (R66, R69, R85): the next entry of a mapped slot's ring. -/
def execLaunchAccept (slot : Nat) (s : State) : Host.Outcome State Fault Refusal :=
  .next (
    let q := s.queue slot
    if q.state ≠ .mapped ∨ q.err ≠ 0 ∨ q.head = q.tail then s
    else
      match s.ringEntry q with
      | .error (.fault _) => s.signalUnit (s.schedViewer q.ctx) q.ringh
      | .error _ => s.queueError slot 0x02
      | .ok a => s.acceptRecord slot (BitVec.ofNat 1024 (s.homeRead a 128)))

/-- The linear index (R85) of the task numbered `y` among those of this device. -/
def Launch.linearOf (l : Launch) (y : Nat) : Nat :=
  match l.mine with
  | none => y
  | some is => is.getD (y / l.inner 1) 0 * l.inner 1 + y % l.inner 1

/-- The task numbered `y` of a launch made Ready (R71). -/
def State.expandTask (s : State) (key basep : Nat) (gang : Option (Nat × Nat)) (y : Nat) : State :=
  match s.launch key with
  | none => s
  | some l =>
    let cr := l.cr basep (l.linearOf y)
    let s := s.setLaunch key (({ l with expanded := y :: l.expanded, alive := l.alive + 1 } : Launch).bump cr.group 0 1)
    let s := s.setLive l.ctx l.qnum (s.liveOf l.ctx l.qnum + 1)
    s.enqueueReady key l.ctx cr gang 0 true .none

/-- The first task not yet expanded, counting round from `from_`. -/
def Launch.nextTask (l : Launch) (from_ : Nat) : Nat :=
  ((List.range (l.expanded.length + 1)).find? fun j => !l.expanded.contains ((from_ + j) % l.total)).map (fun j => (from_ + j) % l.total) |>.getD 0

/-- LAUNCH_EXPANSION (R39, R71): one more task of a launch, or the tasks of one gang together, in any order. -/
def execLaunchExpansion (launch : Nat) (s : State) : Host.Outcome State Fault Refusal :=
  .next (match s.launch launch with
    | none => s
    | some l =>
      match s.slotOf l.ctx l.qnum with
      | none => s
      | some k =>
        let q := s.queue k
        let live := s.liveOf l.ctx l.qnum
        let unpopped := (s.ready.filter fun r => r.ctx = l.ctx && r.cr.qnum = l.qnum && r.fromExpansion).length
        if q.state ≠ .mapped ∨ l.status ≠ 0 ∨ l.total ≤ l.expanded.length ∨ 64 ≤ unpopped then s
        else
          let y := l.nextTask (Config.pick (8 * s.steps + 4) % l.total)
          match l.gangLevel with
          | none => if live < q.readyn then s.expandTask launch q.basep none y else s
          | some g =>
            let size := l.inner g
            let first := y / size * size
            if live + size ≤ q.readyn then
              (List.range size).foldl (fun s i =>
                s.expandTask launch q.basep (some (launch * 2 ^ 32 + l.linearOf first / size, size)) (first + i)) s
            else s)

/-- Is a launch over: refused, or all its tasks here expanded and every CR Ended (R45)? -/
def Launch.over (l : Launch) : Bool := decide (l.status = 0x10) || (decide (l.alive = 0) && (decide (l.status = 3) || decide (l.total ≤ l.expanded.length)))

/-- The two bits of a level-0 group in the group map (R313): a group none of whose tasks has been popped never started. -/
def Launch.groupBits (l : Launch) (g : Nat) : Nat :=
  if l.level0.get 0 (4 * g + 1) = 0 then 0
  else if l.level0.get 0 (4 * g + 3) ≠ 0 then 2
  else if l.level0.get 0 (4 * g + 2) = 0 then 1
  else 3

/-- The group map (R313). -/
def Launch.groupMap (l : Launch) : List Byte :=
  (List.range ((l.extent 0 + 3) / 4)).map fun b =>
    BitVec.ofNat 8 (packFields ((List.range 4).map fun j => (if 4 * b + j < l.extent 0 then l.groupBits (4 * b + j) else 0, 2)))

/-- The completion record of a launch (R87). -/
def Launch.completion (l : Launch) (dcc : Nat) : Nat :=
  let status := if l.status ≠ 0 then l.status else if l.trapped = 0 then 1 else 2
  packFields [(status, 8), (0, 4), (l.flevel, 4), (0, 48), (l.field 32 32, 32), (l.trapped, 32), (l.endedDone, 64), (dcc, 64)]

/-- Bytes written at their elements by the scheduler, DIRTY set before (R87, R166). -/
def State.putBytes (s : State) : List (Part × Byte) → State
  | [] => s
  | (p, b) :: r =>
    let s := match p.ru with
      | some a => s.setDirty a
      | none => s
    match p.place with
    | .device a => (s.setHomeByte a b).putBytes r
    | _ => s.putBytes r

/-- A launch leaves the scheduler, and its instances' bindings with it (R75). -/
def State.forgetLaunch (s : State) (key : Nat) : State :=
  { s with launches := s.launches.erase key, bindings := s.bindings.filter fun b => b.1 ≠ key }

/-- The completion record, and before it a group map, written as engine writes (R87, R88): a unit that is not present, or a home that holds the
line, is waited for; any other failure is the queue's ERR, and so is a byte that another node holds, since each device writes its record in its own
memory (DEDUCED, log 58). -/
def State.writeCompletion (s : State) (key : Nat) (l : Launch) : State :=
  let h := BitVec.ofNat 32 (l.field 320 32)
  let x := l.field 352 32
  let v := s.schedViewer l.ctx
  let map := if l.status = 3 then l.groupMap else []
  let bytes := map.zipIdx.map (fun e => (x + 32 + e.2, e.1)) ++ (bytesOfNat 32 (l.completion s.dcc)).zipIdx.map fun e => (x + e.2, e.1)
  match s.schedRecord v h 1 with
  | .error _ => (s.queueFails l.ctx l.qnum 0x03).forgetLaunch key
  | .ok r =>
    match s.locateAll v r h 1 (bytes.map fun e => r.linear e.1) with
    | .error (.fault _) =>
      if l.heldSince.isSome then s else (s.setLaunch key { l with heldSince := some s.dcc }).signalUnit v h
    | .error _ => (s.queueFails l.ctx l.qnum 0x03).forgetLaunch key
    | .ok ps =>
      if ps.any Part.isRemote then (s.queueFails l.ctx l.qnum 0x03).forgetLaunch key
      else if ps.any fun p => match p.key with
          | some k => s.homeHolds k true
          | none => false then s
      else if s.bridgeFailed && ps.any fun p => match p.place with
          | .device a => decide (homeOf a / 8 ≠ l.slot / 64)
          | _ => false then (s.queueFails l.ctx l.qnum 0x03).forgetLaunch key
      else (s.putBytes (ps.zip (bytes.map Prod.snd))).forgetLaunch key

/-- LAUNCH_COMPLETE (R45, R87): the completion record of a launch that is over. -/
def execLaunchComplete (launch : Nat) (s : State) : Host.Outcome State Fault Refusal :=
  .next (match s.launch launch with
    | none => s
    | some l => if l.over then s.writeCompletion launch l else s)

/-- COMPLETION_RECORD_TIMEOUT (R87): after 10 ms at a residency unit the record is not written, and the queue's ERR is 0x03. -/
def execCompletionRecordTimeout (launch : Nat) (s : State) : Host.Outcome State Fault Refusal :=
  .next (match s.launch launch with
    | none => s
    | some l =>
      match l.heldSince with
      | some t => if t + 10000000 ≤ s.dcc then (s.queueFails l.ctx l.qnum 0x03).forgetLaunch launch else s
      | none => s)

end Sys2Proof.Machine
end

