-- ==== Sys2Proof/Machine/Sched.lean ====
section
/-!
DEFINITION. Choosing tasks (R72 to R80), gangs (R42 to R44, R78), starting a task on a core (R32, R40, R56, R62, R114, R304), its first fetch (R34),
throttling (R260), fencing (R27, R29).
-/

namespace Sys2Proof.Machine

/-- The units the record's enclosing instances are bound to allow core `n` (R75); a unit of a fenced core binds no more, since what is left of it goes on
elsewhere (R48, R75). -/
def State.boundOk (s : State) (r : ReadyCr) (n : Nat) : Bool :=
  match s.launch r.launch with
  | none => true
  | some l =>
    s.bindings.all fun b =>
      !(decide (b.1 = r.launch) && decide (b.2.1 < l.levels) && decide (b.2.2.1 = l.instance_ r.cr b.2.1)) ||
        decide (b.2.2.2 = (unitOf n (BitVec.ofNat 3 (l.domain b.2.1))).toNat) || (decide (l.domain b.2.1 = 1) && s.fenced b.2.2.2)

/-- A record's domain and unit, moved from a core that has been fenced to its quad (R48); one from another device is bound anew (R311). -/
def State.unitWanted (s : State) (r : ReadyCr) : BitVec 3 × BitVec 16 :=
  if r.moved then (r.cr.domain, 0xFFFF)
  else if r.cr.domain = 1 ∧ r.cr.inst ≠ 0xFFFF ∧ s.fenced r.cr.inst.toNat then (2, BitVec.ofNat 16 (r.cr.inst.toNat / 4))
  else (r.cr.domain, r.cr.inst)

/-- The core a record's save reference pins it to (R75, R303); after a migration only the member of a gang is (R311). -/
def ReadyCr.pin (r : ReadyCr) : Option Nat := if r.saveRef.getLsbD 49 && (!r.moved || r.gang.isSome) then some (r.saveRef.extractLsb' 43 6).toNat else none

/-- The core a record must resume on: its pin, unless that has been fenced or its gang has failed (R75, R312). -/
def State.pinned (s : State) (r : ReadyCr) : Option Nat :=
  match r.pin with
  | some p => if s.fenced p ∨ r.failedGang.isSome then none else some p
  | none => none

/-- May the record's task run on core `n`, were it free (R75)? One whose gang has failed only traps there (R312). -/
def State.mayPlace (s : State) (r : ReadyCr) (n : Nat) : Bool :=
  let (d, u) := s.unitWanted r
  r.failedGang.isSome || s.boundOk r n && (u = 0xFFFF || d = 4 || d = 5 || unitOf n d = u) && (match s.pinned r with
    | some p => decide (n = p)
    | none => true)

/-- Is core `n` idle and not fenced (R74)? -/
def State.isIdle (s : State) (n : Nat) : Bool := !(s.coreAt n).busy && !s.fenced n

/-- Is core `n` reserved (R78)? -/
def State.isReserved (s : State) (n : Nat) : Bool := s.reservations.any fun v => v.cores.contains n

/-- The slot of a record's queue, where it is mapped (R74). -/
def State.mappedSlot (s : State) (r : ReadyCr) : Option Nat :=
  match s.slotOf r.ctx r.cr.qnum with
  | some k => if (s.queue k).state = .mapped then some k else none
  | none => none

/-- A record's effective priority (R72). -/
def State.effective (s : State) (r : ReadyCr) : Nat :=
  match s.mappedSlot r with
  | some k => min 31 (r.cr.prio.toNat + (s.queue k).boost)
  | none => 0

/-- Does record `a` come before `b` (R74)? -/
def State.before (s : State) (a b : ReadyCr) : Bool :=
  let pa := s.effective a
  let pb := s.effective b
  let sa := (s.mappedSlot a).getD 0
  let sb := (s.mappedSlot b).getD 0
  decide (pb < pa) || (decide (pa = pb) && (decide (a.cr.ready.toNat < b.cr.ready.toNat) || (a.cr.ready = b.cr.ready && decide (sa < sb))))

/-- The records before which none comes: of several any may be chosen. -/
def State.firsts (s : State) (rs : List ReadyCr) : List ReadyCr := rs.filter fun r => rs.all fun x => !s.before x r

/-- One of the first records. -/
def State.choose (s : State) (rs : List ReadyCr) : Option ReadyCr :=
  let fs := s.firsts rs
  fs[Config.pick (8 * s.steps + 4) % fs.length]?

/-- The idle cores of a core's quad. -/
def State.idleInQuad (s : State) (n : Nat) : Nat := ((List.range 4).filter fun i => s.isIdle (4 * quadOf n + i)).length

/-- Does core `a` come before core `b` (R76)? -/
def State.coreBefore (s : State) (a b : Nat) : Bool :=
  let ca := throttleClass (s.throttle (quadOf a)).sampled
  let cb := throttleClass (s.throttle (quadOf b)).sampled
  let ia := s.idleInQuad a
  let ib := s.idleInQuad b
  decide (ca < cb) || (decide (ca = cb) && (decide (ib < ia) || (decide (ia = ib) && decide (a < b))))

/-- The core R76 chooses. -/
def State.bestCore (s : State) (ns : List Nat) : Option Nat := ns.find? fun n => ns.all fun m => !s.coreBefore m n

/-- The cores of a die. -/
def dieCores (die : Nat) : List Nat := (List.range 32).map (32 * die + ·)

/-- The instances of a record bound to core `n`'s units, where they are not bound yet (R75). -/
def State.bind (s : State) (r : ReadyCr) (n : Nat) : State :=
  match s.launch r.launch with
  | none => s
  | some l =>
    (List.range l.levels).foldl (fun s k =>
      let i := l.instance_ r.cr k
      if s.bindings.any fun b => decide (b.1 = r.launch) && decide (b.2.1 = k) && decide (b.2.2.1 = i) then s
      else { s with bindings := s.bindings ++ [(r.launch, k, i, (unitOf n (BitVec.ofNat 3 (l.domain k))).toNat)] }) s

/-- TINFO of a task (R62). -/
def taskInfo (l : Launch) (cr : Cr) (gang : Bool) : DWord :=
  let d := if cr.domain = 5 then 4 else cr.domain.toNat
  BitVec.ofNat 64 (packFields [(0, 8), (l.levels, 4), (l.gangLevel.getD 0, 3), (gang.toNat, 1), (d, 3), (cr.prio.toNat, 5), (cr.dscope.toNat, 3),
    (0, 5), (cr.launch.toNat, 32)])

/-- The identifier registers (R40). -/
def taskIds (l : Launch) (cr : Cr) : BitVec 256 :=
  BitVec.ofNat 256 (packFields (((List.range 8).map fun k => (if k < l.levels then (cr.idx.extractLsb' (16 * k) 16).toNat else 0, 16)) ++
    ((List.range 8).map fun k => (if k < l.levels then l.extent k else 1, 16))))

/-- A task started afresh on core `n` (R56, R62, R63, R114, R215): only cluster C runs, at the code pointer, once its first fetch has passed. The
scratchpad holds zeros (log 7). -/
def State.freshTask (s : State) (n : Nat) (r : ReadyCr) : State :=
  let c := s.boundCore n r
  let l := (s.launch r.launch).getD (newLaunch 0 .start 0)
  let c :=
    { c with
      ids := taskIds l c.cr
      tinfo := taskInfo l c.cr r.gang.isSome
      tframe := c.cr.fh ++ c.cr.foff
      rmode := c.ctx.rmode.setWidth 64 }
  (s.setCoreAt n (c.setCl .C { ClusterState.start with running := true, pc := ((c.cr.coff.toNat : Nat) : Int) })).popClocks n

/-- A queue one of whose records has been popped (R72). -/
def State.popQueue (s : State) (r : ReadyCr) : State :=
  match s.slotOf r.ctx r.cr.qnum with
  | some k => s.setQueue k { s.queue k with boost := 0, intervalStart := s.dcc }
  | none => s

/-- A launch one more of whose tasks has started, on a die. -/
def State.countStart (s : State) (r : ReadyCr) (n : Nat) : State :=
  match s.launch r.launch with
  | none => s
  | some l => s.setLaunch r.launch { l.bump r.cr.group 1 1 with dieMask := l.dieMask ||| (1 <<< dieOf n) }

/-- The trap of a task whose gang has failed, before it issues (R312). -/
def State.failGang (s : State) (n : Nat) (orig : BitVec 6) : State :=
  s.takeStop n .gang 7 0 true false ⟨0x1B, 0, orig.setWidth 64, [], 0⟩ orig

/-- The stop a trap cause recorded in a frame stands for (R296 KIND). -/
def kindOfCause (cause : Nat) : StopKind := if cause = 0x1B then .gang else if cause = 0x1C then .bridge else .trap

/-- The imprecise trap that a resumed task's frame records, taken before any cluster issues (R304). -/
def State.takeSaved (s : State) (n : Nat) : State :=
  let c := s.coreAt n
  match c.pendingTrap with
  | none => s
  | some st =>
    if st.kind = .fault then s else
    let kind := kindOfCause (st.trapc.extractLsb' 0 8).toNat
    (s.setCoreAt n { c with pendingTrap := none }).stopWith n { st with kind := kind, orig := if kind = .gang then st.trapv.extractLsb' 0 6 else 0 }

/-- A Ready record becomes Running on core `n` (R33): its task starts, or resumes from its image (R304). -/
def State.startTask (s : State) (n : Nat) (r : ReadyCr) : State :=
  let (d, u) := s.unitWanted r
  let r := { r with cr := { r.cr with domain := d, inst := u } }
  let s := (({ s with ready := s.ready.filter fun x => x.key ≠ r.key } : State).leaveArea r .running)
  let s := ((s.popQueue r).bind r n).countStart r n
  let s := if r.saveRef.getLsbD 63 then (s.restoreTask n r).takeSaved n else s.freshTask n r
  match r.failedGang with
  | some o => s.failGang n o
  | none => s

/-- The members of a gang that are Ready. -/
def State.members (s : State) (g : Nat) : List ReadyCr := s.ready.filter fun r => match r.gang with
  | some (k, _) => decide (k = g)
  | none => false

/-- Are the members of a gang all Ready, those that have Ended apart (R43, R44, R78): one is, and no core has another? Expansion makes them together, so
that none is yet to come. -/
def State.gangReady (s : State) (g : Nat) : Bool :=
  !(s.members g).isEmpty && s.cores.values.all fun c => !(c.busy && match c.gang with
    | some (k, _) => decide (k = g)
    | none => false)

/-- Members given free cores one after another, each by what the units of the instances bound so far allow; nothing where that cannot be done. Which
member takes which core is not given: the model takes the first assignment that fits, members in the order of the ready list, cores in that of their
reservation (DESIGN CHOICE, log 59). -/
def State.assign (s : State) (free : List Nat) : List ReadyCr → Option (List (ReadyCr × Nat))
  | [] => some []
  | r :: rest =>
    (free.filter (s.mayPlace r)).findSome? fun n => ((s.bind r n).assign (free.filter (· ≠ n)) rest).map ((r, n) :: ·)

/-- Do the cores a reservation holds suffice for its gang (R78)? -/
def State.heldEnough (s : State) (v : Reservation) : Bool := (s.assign v.cores (s.members v.gang)).isSome

/-- A reservation takes the cores of its unit that have gone idle, until it holds enough. -/
def State.fill (s : State) (v : Reservation) : List Nat → Reservation
  | [] => v
  | n :: r =>
    if s.heldEnough v ∨ v.cores.contains n ∨ !s.isIdle n ∨ s.isReserved n then s.fill v r
    else s.fill { v with cores := v.cores ++ [n] } r

/-- A gang has failed where a core its members are pinned to has been fenced (R75, R312). -/
def State.brokenPin (s : State) (g : Nat) : Option Nat := (s.members g).findSome? fun r => match r.pin with
  | some p => if s.fenced p then some p else none
  | none => none

/-- A record with what becomes of its gang: where a pinned core of a member has been fenced, the gang has failed there (R75, R312). -/
def State.withFailure (s : State) (x : ReadyCr) : ReadyCr :=
  match x.gang with
  | some (g, _) => match s.brokenPin g with
    | some p => if x.failedGang.isSome then x else { x with failedGang := some (BitVec.ofNat 6 p) }
    | none => x
  | none => x

/-- The gang of a record that starts with its gang: one whose gang has failed only traps, and starts on its own (R75, R312; log 60). -/
def ReadyCr.team (r : ReadyCr) : Option Nat :=
  match r.gang, r.failedGang with
  | some (g, _), none => some g
  | _, _ => none

/-- Can a reservation's unit still hold its gang: every quad of it whole, where its domain is the quad (R30)? -/
def State.stillHolds (s : State) (v : Reservation) : Bool :=
  (s.assign v.unit (s.members v.gang)).isSome &&
    (decide (v.domain ≠ 2) || v.unit.all fun n => (List.range 4).all fun i => !s.fenced (4 * quadOf n + i))

/-- Does a reservation stand: its gang is all Ready, mapped and not failed, and its unit can still hold it (R30, R75, R78)? -/
def State.stands (s : State) (v : Reservation) : Bool :=
  s.gangReady v.gang && ((s.members v.gang).all fun r => (s.mappedSlot r).isSome && r.failedGang.isNone) && s.stillHolds v

/-- A Ready member of a failed gang that has not run traps without being popped (R312): it is Ended, and counted as trapped. No core has had it, and so none
writes a record of it (log 60). -/
def State.trapReady (s : State) (r : ReadyCr) : State :=
  ((({ s with ready := s.ready.filter fun x => x.key ≠ r.key } : State).leaveArea r .ended)).countEnd r.ctx r.launch r.cr true

/-- Every reservation brought up to date: one that no longer stands is released (R78); gangs that have failed are marked, and their members that have not
run trap. -/
def State.refill (s : State) : State :=
  let s := { s with ready := s.ready.map s.withFailure }
  let s := (s.ready.filter fun r => r.failedGang.isSome && !r.saveRef.getLsbD 63).foldl State.trapReady s
  let keep := s.reservations.filter s.stands
  keep.foldl (fun (s : State) v =>
    { s with reservations := s.reservations.map fun w => if w.gang = v.gang then s.fill v v.unit else w }) { s with reservations := keep }

/-- The effective priority of a reservation's gang. -/
def State.reservedPriority (s : State) (v : Reservation) : Nat := ((s.members v.gang).map s.effective).foldl max 0

/-- The cores on which a record could start at once. -/
def State.placesFor (s : State) (cores : List Nat) (r : ReadyCr) : List Nat :=
  cores.filter fun n => s.isIdle n && !s.isReserved n && s.mayPlace r n

/-- The core that a record needs which no core of the device could take now: of the idle ones that gangs of strictly lower priority have reserved, the one
R76 chooses (R78). -/
def State.coreNeeded (s : State) (cores : List Nat) (r : ReadyCr) : Option Nat :=
  if (s.placesFor (List.range 64) r).isEmpty then
    s.bestCore (cores.filter fun n => s.isIdle n && s.mayPlace r n &&
      s.reservations.all fun v => !v.cores.contains n || decide (s.reservedPriority v < s.effective r))
  else none

/-- The reservation that stands in the way of a record: that of the unit whose core it needs (R78). -/
def State.inTheWay (s : State) (cores : List Nat) (r : ReadyCr) : List Reservation :=
  match s.coreNeeded cores r with
  | some n => s.reservations.filter fun v => v.cores.contains n
  | none => []

/-- Reservations released entirely. -/
def State.release (s : State) (vs : List Reservation) : State :=
  { s with reservations := s.reservations.filter fun v => !(vs.any fun w => decide (w.gang = v.gang)) }

/-- The units of a domain that a die's scheduler may reserve (R78, R79): a quad only whole (R30); the device for the die of the gang's slot. -/
def State.unitsOf (s : State) (die slot : Nat) (domain : Nat) : List (List Nat) :=
  match domain with
  | 1 => (dieCores die).map fun n => [n]
  | 2 => ((List.range 8).map fun q => (List.range 4).map (32 * die + 4 * q + ·)).filter fun q => q.all fun n => !s.fenced n
  | 3 => [dieCores die]
  | _ => if slot / 64 = die then [List.range 64] else []

/-- The units that can hold a gang, that no gang of at least its priority has reserved, and one of whose cores is idle (R74, R78). -/
def State.gangUnits (s : State) (die : Nat) (r : ReadyCr) (g : Nat) : List (List Nat) :=
  match s.launch r.launch with
  | none => []
  | some l =>
    let domain := l.domain (l.gangLevel.getD 0)
    (s.unitsOf die ((s.mappedSlot r).getD 0) domain).filter fun u =>
      (s.assign (u.filter fun n => !s.fenced n) (s.members g)).isSome && u.any s.isIdle &&
        s.reservations.all fun v => decide (s.reservedPriority v < s.effective r) || !(v.unit.any u.contains)

/-- The domain of the gang of a record: that of its level (R42). -/
def State.gangDomain (s : State) (r : ReadyCr) : Nat :=
  match s.launch r.launch with
  | some l => l.domain (l.gangLevel.getD 0)
  | none => 4

/-- The gang's reservation in the unit R76 chooses (R78); the reservations of lesser gangs there are released. -/
def State.reserve (s : State) (die : Nat) (r : ReadyCr) (g : Nat) : State :=
  let units := s.gangUnits die r g
  let free := units.filter fun u => s.reservations.all fun v => !(v.unit.any u.contains)
  let units := if free.isEmpty then units else free
  match s.bestCore units.flatten with
  | none => s
  | some n =>
    match units.find? fun (u : List Nat) => u.contains n with
    | none => s
    | some u =>
      let s := s.release (s.reservations.filter fun v => v.unit.any u.contains)
      let pins := (s.members g).filterMap s.pinned
      let u := if pins.length = (s.members g).length then pins else u.filter fun n => !s.fenced n
      ({ s with reservations := s.reservations ++ [⟨r.launch, g, s.gangDomain r, die, u, []⟩] } : State).refill

/-- Is a record of a mapped queue one whose gang may reserve cores now (R74, R78)? -/
def State.mayReserve (s : State) (die : Nat) (r : ReadyCr) : Bool :=
  (s.mappedSlot r).isSome && match r.team with
    | some g => s.gangReady g && !(s.reservations.any fun v => decide (v.gang = g)) && !(s.gangUnits die r g).isEmpty
    | none => false

/-- A chosen candidate that starts: on the core R76 chooses, or by its gang's reservation (R74, R78). -/
def State.popped (s : State) (die : Nat) (r : ReadyCr) : State :=
  match r.team with
  | some g => s.reserve die r g
  | none => match s.bestCore (s.placesFor (dieCores die) r) with
    | some n => s.startTask n r
    | none => s

/-- TASK_POP (R74 to R79): a die's scheduler chooses the best of its candidates, single records and gangs that hold no reservation alike; a reservation
that a better candidate needs is released first. A record of domain device goes to a core of the die whose scheduler chooses it, which the spec does
not say (DESIGN CHOICE, log 61). -/
def execTaskPop (die : Nat) (s : State) : Host.Outcome State Fault Refusal :=
  .next (
    if 2 ≤ die then s
    else
      let s := s.refill
      let cores := dieCores die
      let rs := s.ready.filter fun r => r.team.isNone && (s.mappedSlot r).isSome
      match s.choose (rs.filter fun r => !(s.inTheWay cores r).isEmpty) with
      | some r => s.release (s.inTheWay cores r)
      | none =>
        match s.choose (s.ready.filter fun r => if r.team.isNone then (s.mappedSlot r).isSome && !(s.placesFor cores r).isEmpty
            else s.mayReserve die r) with
        | none => s
        | some r => s.popped die r)

/-- GANG_RESERVATION (R78): the best gang of a die's candidates that holds no reservation takes one. -/
def execGangReservation (die : Nat) (s : State) : Host.Outcome State Fault Refusal :=
  .next (
    if 2 ≤ die then s
    else
      let s := s.refill
      match s.choose (s.ready.filter (s.mayReserve die)) with
      | none => s
      | some r => s.popped die r)

/-- GANG_START (R43, R78): a gang whose reservation holds a core for each member starts, all members in one step. -/
def execGangStart (gang : Nat) (s : State) : Host.Outcome State Fault Refusal :=
  .next (
    let s := s.refill
    match s.reservations.find? fun v => v.gang = gang with
    | none => s
    | some v =>
      match s.assign v.cores (s.members gang) with
      | none => s
      | some pairs => pairs.foldl (fun s e => s.startTask e.2 e.1) (s.release [v]))

/-- AGEING_INTERVAL (R72): the end of an interval in which a mapped queue held a Ready record and none was popped. -/
def execAgeingInterval (slot : Nat) (s : State) : Host.Outcome State Fault Refusal :=
  .next (
    let q := s.queue slot
    let held := s.ready.any fun r => r.ctx = q.ctx && r.cr.qnum = q.qnum
    if q.state = .mapped ∧ held ∧ q.intervalStart + q.ageus * 1000 ≤ s.dcc then
      s.setQueue slot { q with boost := min 31 (q.boost + 1), intervalStart := q.intervalStart + q.ageus * 1000 }
    else s)

/-- The check of a task's code pointer (R34). -/
def State.codeCheck (s : State) (n : Nat) : Except Hold Unit := do
  let c := s.coreAt n
  let h := c.cr.ch
  let v := s.viewer n
  let r ← s.freshRecord v h 3
  if !permitted r 3 then .error (xlateTrap 0x14 h 0 3)
  else if c.cr.coff.toNat % 4 ≠ 0 then .error (trapOf 0x09)
  else
    let _ ← s.locate v r h 3 [((c.cr.coff.toNat : Nat) : Int), 3, 0, 0] false
    .ok ()

/-- FIRST_FETCH (R34): the task goes on where its code pointer passes; else it executes nothing. -/
def execFirstFetch (core : Nat) (s : State) : Host.Outcome State Fault Refusal :=
  .next (
    let c := s.coreAt core
    if !c.busy ∨ c.started ∨ c.stop.isSome ∨ c.save.isSome then s
    else
      match s.codeCheck core with
      | .ok _ => s.setCoreAt core { c with started := true }
      | .error (.trap t) => s.takeStop core .trap 3 c.cr.coff false false t 0
      | .error (.fault t) => s.takeStop core .fault 3 c.cr.coff false false t 0
      | .error _ => s)

/-- THROTTLE_UPDATE (R260): every 64 cycles a quad's rate is halved or raised, by what became of its flits: were more than a quarter of those delivered
deflected, and did one reach age 512? -/
def execThrottleUpdate (quad : Nat) (deflected aged : Bool) (s : State) : Host.Outcome State Fault Refusal :=
  .next (if 16 ≤ quad ∨ deflected ≠ (s.throttle quad).crowded ∨ aged ≠ (s.throttle quad).aged then s else s.updateThrottle quad)

/-- A core fenced (R27, R29, R260): its CFENCE bit is set, it leaves the placement state, and no reservation holds it. -/
def State.fence (s : State) (core : Nat) : State :=
  { s with
    cfence := s.cfence ||| (1#64 <<< core)
    reservations := s.reservations.map fun v => { v with unit := v.unit.filter (· ≠ core), cores := v.cores.filter (· ≠ core) } }

/-- FENCE_CORE (R27, R29, R260): the core's CFENCE bit is set and it leaves the placement state; a task that the fault finds running stops with UNCORR,
whose unit code R326 does not give for every part of a core (log 62). A quad all of whose cores are fenced injects nothing. -/
def execFenceCore (core : Nat) (s : State) : Host.Outcome State Fault Refusal :=
  .next (
    if 64 ≤ core then s else ((s.fence core).uncorrectable core (Config.free s.steps).toNat).refill)

end Sys2Proof.Machine
end

