-- ==== Sys2Proof/Machine/TaskWords.lean ====
section
/-!
DEFINITION. SPAWN (R457), JOIN (R412, R413), DONE (R396) and SVC (R319, R462): the words that make, end and serve tasks.
-/

namespace Sys2Proof.Machine

/-- The core with one more held entry (R49). -/
def Core.hold (c : Core) (e : HeldEntry) : Core := { c with spawn := c.spawn ++ [e] }

/-- The child a SPAWN creates (R47, R48, R457). -/
def Core.child (c : Core) (dom : BitVec 3) (code : BitVec 32) (frame opts : DWord) : Cr :=
  let par := match c.openJoin with
    | some h => h
    | none => c.cr.parent
  let asked : BitVec 5 := opts.extractLsb' 0 5
  { c.cr with
    ready := 0
    inst := 0xFFFF
    state := .ready
    domain := dom
    prio := if c.cr.prio.toNat < asked.toNat then c.cr.prio else asked
    pkind := par.isGroup
    joinc := 0
    poff := par.offset
    ph := par.handle
    foff := frame.extractLsb' 0 32
    fh := frame.extractLsb' 32 32
    coff := code }

/-- SPAWN (R457). -/
def execSpawn (d a b : BitVec 5) (m n : Bool) (o : BitVec 3) (s : State) : Host.Outcome State Fault Refusal :=
  runWord (.spawn d a b m n o) s fun s => do
    let code ← s.srcDef d
    let f ← s.src a m
    let opts ← s.src b n
    if o = 5 ∨ opts.extractLsb' 5 59 ≠ 0 then .error (trapOf 0x04) else
    if 64 ≤ s.cur.spawn.length then .error (trapOf 0x05) else
    .ok ((s.setCur (s.cur.hold ⟨false, s.cur.child o (code.extractLsb' 0 32) f opts, 0, 0⟩)).retire)

/-- The continuation a JOIN creates (R46, R413). -/
def Core.continuation (c : Core) (dom : BitVec 3) (code : BitVec 32) (frame : DWord) : Cr :=
  { c.cr with
    ready := 0
    inst := 0xFFFF
    state := .pending
    domain := dom
    joinc := 1
    foff := frame.extractLsb' 0 32
    fh := frame.extractLsb' 32 32
    coff := code }

/-- May the slot at linear byte index `x` hold a continuation (R413)? -/
def ObjRec.slotOk (r : ObjRec) (x : Nat) : Bool :=
  r.perm.getLsbD 1 && decide (r.eb = 8) && decide (x % 64 = 0) &&
    (List.range 64).all fun i =>
      (r.outside (r.linear (x + i))).isNone && decide (r.linearBit (x + i) = r.linearBit x + 8 * i)

/-- JOIN (R413). -/
def execJoin (d a b : BitVec 5) (m n : Bool) (o : BitVec 3) (s : State) : Host.Outcome State Fault Refusal :=
  runWord (.join d a b m n o) s fun s => do
    let code ← s.srcDef d
    let slot ← s.src a m
    let f ← s.src b n
    if o = 5 ∨ s.cur.openJoin.isSome then .error (trapOf 0x04) else
    let v := s.here
    let h := slot.extractLsb' 32 32
    let x : BitVec 32 := slot.extractLsb' 0 32
    let r ← s.freshRecord v h 1
    if !r.slotOk x.toNat then .error (trapOf 0x04) else
    let r ← s.lookup v h 1
    let _ ← s.locate v r h 1 (r.linear x.toNat) false
    if 64 ≤ s.cur.spawn.length then .error (trapOf 0x05) else
    let c := s.cur.hold ⟨true, s.cur.continuation o (code.extractLsb' 0 32) f, h, x⟩
    .ok ((s.setCur { c with openJoin := some ⟨h, x, false⟩ }).retire)

/-- A core after its task has left it: it is idle (R80). What the task's registers held is read by no later task (R114). -/
def Core.vacated (c : Core) : Core :=
  { c with
    busy := false
    started := false
    gang := none
    spawn := []
    openJoin := none
    version := .empty
    versionRu := .empty
    versionOf := .empty
    remoteReads := []
    accesses := []
    commands := []
    slots := .empty
    stop := none
    pendingTrap := none
    preempt := none
    save := none
    svc := none
    halting := false
    dxw := dxwDone c.dxw
    dxwIssued := none
    viewWrites := [] }

/-- The launch's count of one more task ended (R45, R87). -/
def State.taskEnded (s : State) (n : Nat) (trapped : Bool) : State :=
  let c := s.coreAt n
  s.countEnd c.ctx.ctx c.launchKey c.cr trapped

/-- The counter a task holds decremented (R52, R53): the decrement that finds 1 makes the continuation Ready, in the launch and the queue that its
record names (R83). The launch completion group is no counter: it counts the records that are not Ended (R45). -/
def State.dropHold (s : State) (n : Nat) (h : HoldRef) : State :=
  if h.isGroup then s
  else
    match s.readSlotCr n h.handle h.offset with
    | .error _ => s
    | .ok (p, cr) =>
      let left := cr.joinc - 1
      let ctx := (s.coreAt n).ctx.ctx
      if left = 0 then
        let cr := { cr with joinc := 0, state := .ready }
        (s.putCr n p cr).makeReady ((s.findLaunch ctx cr.qnum cr.launch).getD 0) ctx cr
      else s.putCr n p { cr with joinc := left }

/-- Can the counter a task will decrement be reached (R52)? A unit that is not present raises RESID, and DONE issues again (log 56). -/
def State.holdReached (s : State) (n : Nat) : Except Hold Unit :=
  let h := (s.coreAt n).holding
  if h.isGroup then .ok () else s.slotReached n h.handle h.offset

/-- The engine horizon of each of the task's clusters becomes the clock of its last command (R203), and so does that of the agent which issued it, where the
task has resumed elsewhere since. -/
def State.reachHorizon (s : State) (n : Nat) : State :=
  allClusters.foldl (fun s k =>
    let t := ((s.coreAt n).cl k).lastCmdClock
    if t = 0 then s else (s.joinStamp (agentId n k) t).joinCommand (agentId n k) (agentId n k) (t % 2 ^ 24)) s

/-- The device commit vector takes in the vector clocks of the task's four clusters (R203). -/
def State.joinCommit (s : State) (n : Nat) : State :=
  { s with commitVector := allClusters.foldl (fun v k => joinVectors v (s.vectorOf (agentId n k)).cells) s.commitVector }

/-- DONE's steps 3 to 5 after the commit and the held entries (R52, R201): the release, the decrement, the end of the task. -/
def State.endTask (s : State) (n : Nat) : State :=
  let s := (s.joinCommit n).released (agentId n .C)
  let s := s.dropHold n (s.coreAt n).holding
  let s := s.taskEnded n false
  let s := s.endClocks n
  let c := s.coreAt n
  s.setCoreAt n { c.vacated with cr := { c.cr with state := .ended } }

/-- Is nothing left that DONE's step 2 and its release wait for (R52, R396)? -/
def Core.readyToEnd (c : Core) : Bool :=
  c.pendingTrap.isNone && c.commands.isEmpty && c.arrayX.idle && c.arrayY.idle && !c.hasAccesses .C && c.committing.isNone && !c.writesQueued .C

/-- DONE (R396). Stage 8 is the commit: once it has begun the task ends by DONE. -/
def execDone (s : State) : Host.Outcome State Fault Refusal :=
  runWord .done s fun s =>
    if s.cl.stage = 8 then
      if s.cur.committing.isSome then .error plainWait
      else do
        s.holdReached s.core
        let s ← s.applyHeld s.core
        s.holdReached s.core
        .ok (s.retire.endTask s.core)
    else if [Cluster.A, .V, .M].any fun k => (s.cur.cl k).running then .error (trapOf 0x04)
    else if s.cur.readyToEnd then .ok (((s.reachHorizon s.core).startCommit s.core).atStage 8)
    else .error plainWait

/-- The instance that journals a call (R319). -/
def journalOf (core : Nat) (id : DWord) : Nat := if id = 0 then homeSlice core else id.toNat % 16

/-- SVC's call record reaches the mailbox of its instance (R319): the store is a release at device scope. -/
def State.callService (s : State) (id : DWord) (service : BitVec 6) (arg : DWord) : State :=
  let w : SvcWait := ⟨id, service, arg, s.cur.ctx.ctx, s.cur.cr.fh, none⟩
  let j := journalOf s.core id
  let x := s.slice j
  let s := s.setSlice j { x with mailbox := x.mailbox ++ [(s.core, w)] }
  let s := s.interrupt j (BitVec.ofNat 64 s.core)
  ((s.setCur { s.cur with svc := some w }).released (agentId s.core s.cluster)).atStage 3

/-- SVC (R319, R462). Stage 3 waits for the reply, whose write is an acquire at device scope. -/
def execSvc (d a b : BitVec 5) (m n : Bool) (i : BitVec 6) (s : State) : Host.Outcome State Fault Refusal :=
  runWord (.svc d a b m n i) s fun s =>
    if s.cl.stage = 3 then
      match s.cur.svc with
      | some ⟨_, _, _, _, _, some v⟩ => do
        s.aluDest d
        .ok (((s.setCur { s.cur with svc := none }).putScal d v).retire)
      | _ => .error plainWait
    else do
      let id ← s.src a m
      let arg ← s.src b n
      s.aluDest d
      s.commitPoint fun s =>
        if s.cur.hasAccesses s.cluster then .error plainWait else .ok (s.callService id i arg)

end Sys2Proof.Machine
end

