-- ==== Sys2Proof/Machine/View.lean ====
section
/-!
DEFINITION. The debug view of a suspended core (R332), in the layout of the save image, and the writes to it, which take effect when the task
resumes.
-/

namespace Sys2Proof.Machine

/-- Is the task of a core suspended (R287, R332)? -/
def Core.suspended (c : Core) : Bool :=
  c.save.isNone && match c.stop with
    | some st => decide (st.kind = .fault)
    | none => false

/-- Section 5 of a view: every command in flight, NEXT being the chunks finished so far (R332). -/
def State.viewCommands (s : State) (n : Nat) : List VByte :=
  wholeBytes ((s.coreAt n).commands.map fun k => bytesOfNat 128 (k.replay k.chunksFinished)).flatten

/-- The operation that an array has latched, with its format entry (R238, R307), as 896 bits. -/
def ArrayState.latchBits (a : ArrayState) : Nat :=
  match a.entering with
  | some o => packFields [(o.regs.bits, 768), (o.entry.toNat, 128)]
  | none => 0

/-- What the frame of a view holds beyond R306 (R332): MPROG of X and Y, QSTAT, whether X and Y have an operation latched, and those operations. The spec
gives it no place: it follows the frame's 1,024 bytes as 256 more (DESIGN CHOICE, log 95). -/
def Core.viewExtra (c : Core) : Nat :=
  packFields [(c.arrayX.savedMprog.toNat, 64), (c.arrayY.savedMprog.toNat, 64), (c.qstat.toNat, 64), (c.arrayX.entering.isSome.toNat, 1),
    (c.arrayY.entering.isSome.toNat, 1), (0, 62), (c.arrayX.latchBits, 896), (c.arrayY.latchBits, 896)]

/-- The sections of a view (R332): the frame with what it holds beyond, every accumulator, every command, the whole scratchpad, all barriers. -/
def State.viewSections (s : State) (n : Nat) (v : Save) : List (List VByte) :=
  let c := s.coreAt n
  let frame := sectionBytes 1024 (s.frame n v.ls.toNat v.infl) frameReserved ++ wholeBytes (bytesOfNat 256 c.viewExtra)
  ((((s.imageSections n v).set 0 frame).set 3 ((List.range 16).map c.accBytes).flatten).set 5 (s.viewCommands n)).set 11
    (wholeBytes ((List.range 16).map fun i => bytesOfNat 16 (c.barriers.get .start i).bits).flatten)

/-- The view of core `n` laid out from byte 0, with its length. -/
def State.viewMemory (s : State) (n : Nat) : Memory × Nat :=
  let c := s.coreAt n
  let v := { forcedSave false with infl := c.commands.length }
  let secs := s.viewSections n v
  let (dir, len) := directory 256 256 secs
  let header := s.imageHeader n v dir len
  let header := header % 2 ^ 1776 + 0xFFFF * 2 ^ 1776 + header / 2 ^ 1792 * 2 ^ 1792
  let m := ((0, bytesOfNat 256 header) :: (dir.zip secs).map fun e => (e.1.1, e.2.map VByte.val)).foldl (fun (m : Memory) e => m.setBytes e.1 e.2) .empty
  (c.viewWrites.foldl (fun (m : Memory) e => m.setByte e.1 e.2) m, len)

/-- A cluster with what the view says of it; how far its abandoned word has got stays, and whether a halt has yet to land in it. -/
def ClusterState.viewed (x y : ClusterState) : ClusterState := { y with stage := x.stage, lastCmdClock := x.lastCmdClock, haltDue := x.haltDue }

/-- A pending MMUL with the registers the view says; where they differ it is checked, preloaded and staged anew. -/
def PendingOp.viewed (p q : PendingOp) : PendingOp :=
  if p.regs = q.regs then p else { p with regs := q.regs, checked := false, steps := [], staged := [] }

/-- A latched MMUL with the registers, the entry and the row the view says; where they differ B is read again. -/
def ArrayOp.viewed (o q : ArrayOp) : ArrayOp :=
  if o.regs = q.regs ∧ o.entry = q.entry ∧ o.row = q.row then o
  else { o with regs := q.regs, entry := q.entry, row := q.row, latched := false, b := [], bScale := [], steps := [], staged := [] }

/-- An array with what the view says of it: its registers, its pending and its latched MMUL; one that the view alone has takes `seq` in the order. -/
def ArrayState.viewed (x y : ArrayState) (seq : Nat) : ArrayState :=
  { x with
    regs := y.regs
    mf := y.mf
    ms := y.ms
    mprog := if x.entering.isSome then x.mprog else y.mprog
    pend := match x.pend, y.pend with
      | some p, some q => some (p.viewed q)
      | none, some q => some { q with seq := seq }
      | _, none => none
    ops := match y.entering with
      | none => x.ops.filter ArrayOp.isDrain
      | some q =>
        if x.entering.isNone then { q with seq := seq } :: x.ops
        else x.ops.map fun o => if some o = x.entering then o.viewed q else o }

/-- The 384 bytes of an array as a view gives them (R332): what was written of MPROG and of the latched operation beside the frame counts too. `was` and `now`
are what stands there, before the writes and with them. -/
def viewedArray (w was now y : Nat) : Nat :=
  let put := fun (w lo n at_ : Nat) => if bitsAt now lo n = bitsAt was lo n then w else replaceBits w at_ n (bitsAt now lo n)
  put (put (put w (64 * y) 64 896) (192 + y) 1 961) (256 + 896 * y) 896 1024

/-- A core without the reserved entries of its load queues, and without what was to fill them. -/
def Core.dropTickets (c : Core) : Core :=
  let ids := c.loadqTickets.values.flatten.map Ticket.id
  { c with
    loadqTickets := .empty
    accesses := c.accesses.filter fun x => !ids.contains x.id
    slots := ⟨c.slots.cells.filter fun (e : Nat × Slot32) => !ids.contains e.2.access⟩ }

/-- Core `n` with what its view says of it. `t` has the view in memory from address 0, `o` the view before anything was written. -/
def State.viewedCore (o t : State) (n : Nat) : Core :=
  let c := t.coreAt n
  let sec := o.sectionAt 0
  let d := c.withFrame (t.homeRead (sec 0).1 1024) (bitsAt (t.homeRead 216 10) 64 16)
  let d := allClusters.foldl (fun d k => d.setCl k ((c.cl k).viewed (d.cl k))) d
  let scal := (List.range 32).foldl (fun m r =>
    match (c.scal.get .start r).pending with
    | some p => m.put r { m.get .start r with pending := some p }
    | none => m) d.scal
  let array := fun (y : Nat) =>
    viewedArray (t.homeRead ((sec 4).1 + 384 * y) 384) (o.homeRead ((sec 0).1 + 1024) 256) (t.homeRead ((sec 0).1 + 1024) 256) y
  let d :=
    { d with
      scal := scal
      spawn := t.restoredSpawn (sec 8).1 (sec 8).2
      version := t.restoredVersion (sec 7).1 (sec 7).2 ⟨c.version.cells.map fun (e : Nat × VByte) => (e.1, e.2.mask)⟩
      scratch := t.restoredScratch (sec 10).1 257 (sec 10).2 .empty
      tiles := t.restoredTiles (sec 1).1 0xFFFF
      arrayX := c.arrayX.viewed (.ofBits (array 0) 0 none (c.rmode.extractLsb' 0 2)) c.seq
      arrayY := c.arrayY.viewed (.ofBits (array 1) 0 none (c.rmode.extractLsb' 0 2)) (c.seq + 1)
      seq := c.seq + 2
      barriers := t.restoredBarriers (sec 11).1 c.barriers
      viewWrites := [] }
  let d := (List.range 16).foldl (fun d i => t.restoreAcc ((sec 3).1 + 65600 * i) d) (d.withQueues (t.restoredQueues (sec 2).1 12 (sec 2).2))
  if t.homeBytes (sec 6).1 (sec 6).2 = o.homeBytes (sec 6).1 (sec 6).2 then d
  else ((t.setCoreAt n d.dropTickets).restoreSlots n (sec 6).1 (sec 6).2).coreAt n

/-- The commands of core `n` as its view says (R332): one whose record was written goes on as that record says, as a command replayed from an image does. -/
def State.viewedCommands (s o t : State) (n : Nat) : List Command :=
  let a := (o.sectionAt 0 5).1
  (s.coreAt n).commands.zipIdx.map fun e =>
    let w := t.homeRead (a + 128 * e.2) 128
    if w = o.homeRead (a + 128 * e.2) 128 then e.1 else s.replayed n w

/-- The writes to the view of core `n` take effect (R332). -/
def State.applyView (s : State) (n : Nat) : State :=
  if (s.coreAt n).viewWrites.isEmpty then s
  else
    let clean := s.setCoreAt n { s.coreAt n with viewWrites := [] }
    let t : State := { s with mem := (s.viewMemory n).1, slices := .empty }
    let o : State := { s with mem := (clean.viewMemory n).1, slices := .empty }
    let a := (o.sectionAt 0 9).1
    let s := s.setCoreAt n { o.viewedCore t n with commands := s.viewedCommands o t n }
    allClusters.foldl (fun s k => s.setVector (agentId n k) (t.restoredVector (a + 2048 * clusterIndex k))) s

/-- `len` bytes of the view at an offset; nothing outside it, or where the core is not suspended (R332). -/
def State.readView (s : State) (n off len : Nat) : Option (List Byte) :=
  let (m, size) := s.viewMemory n
  if (s.coreAt n).suspended ∧ off + len ≤ size then some (m.bytes off len) else none

/-- Bytes written to the view; nothing as for reads. -/
def State.writeView (s : State) (n off : Nat) (bs : List Byte) : Option State :=
  let c := s.coreAt n
  if c.suspended ∧ off + bs.length ≤ (s.viewMemory n).2 then
    some (s.setCoreAt n { c with viewWrites := c.viewWrites ++ bs.zipIdx.map fun e => (off + e.2, e.1) })
  else none

end Sys2Proof.Machine
end

