-- ==== Sys2Proof/Machine/Resume.lean ====
section
/-!
DEFINITION. What follows a stop: its record (R293 to R296), the return from it (R292), its conversion to a trap; saves (R297 to R302); errors that
end tasks (R29, R312, R313).
-/

namespace Sys2Proof.Machine

/-- The number of a stop's kind (R296). -/
def StopKind.code : StopKind → Nat
  | .trap => 0
  | .fault => 1
  | .gang => 2
  | .bridge => 3

/-- The stop record (R296), `seq` being PROD; RU is for RESID alone. -/
def State.stopRecord (s : State) (n : Nat) (st : Stop) (seq : Nat) : Nat :=
  let c := s.coreAt n
  let h := c.holding
  let seqOf := allClusters.map fun k => (c.cl k)
  packFields ([(seq, 32), (c.cr.launch.toNat, 32), (c.ctx.ctx.toNat, 16), (n, 6), (st.orig.toNat, 6), (st.kind.code, 2),
      (maskOf 4 fun i => ((seqOf.getD i .start).syncWait), 4), (h.isGroup.toNat, 1), (0, 5), (if st.trapc.extractLsb' 0 8 = 0x16#8 then st.ru else 0, 24),
      (if h.isGroup then 0 else h.offset.toNat, 32), (if h.isGroup then 0 else h.handle.toNat, 32), (c.commits.toNat, 32), (0, 32),
      (c.commitDcc.toNat, 64), (st.trapv.toNat, 64), (st.trapc.toNat, 64), (st.dcc, 64)] ++
    ((List.range 4).map fun k => ((BitVec.ofInt 32 (st.coord.getD k 0)).toNat, 32)) ++
    (seqOf.map fun x => ((BitVec.ofInt 32 x.pc).toNat, 32)) ++ [(c.cr.idx.toNat, 128)])

/-- Where a stop's ring stands: the fault ring of the home slice, where that is valid, or the partition's trap ring (R295). -/
def State.stopRing (s : State) (n : Nat) (st : Stop) : Option Nat :=
  if st.kind = .fault then
    let f := (s.slice (homeSlice n)).frb
    if f.getLsbD 63 then some ((f.extractLsb' 6 37).toNat * 64) else none
  else some (s.coreAt n).ctx.tring.toNat

/-- Is a ring full (R294)? -/
def State.ringFull (s : State) (a : Nat) : Bool :=
  decide (2 ^ (s.homeRead (a + 12) 1 % 32) ≤ (s.homeRead a 4 + 2 ^ 32 - s.homeRead (a + 4) 4) % 2 ^ 32)

/-- A stop that finds its ring full: counted in WAITS and signalled, once (R294). -/
def State.ringWaits (s : State) (n : Nat) (st : Stop) (ring : Option Nat) : State :=
  if st.waitingRing then s
  else
    let s := match ring with
      | some a => s.homeWrite (a + 8) 4 (s.homeRead (a + 8) 4 + 1)
      | none => s
    (s.setCoreAt n { s.coreAt n with stop := some { st with waitingRing := true } }).interrupt (homeSlice n) (BitVec.ofNat 64 n)

/-- The frame, then the record, then PROD (R294). -/
def State.putRecord (s : State) (n : Nat) (st : Stop) (a : Nat) : State :=
  let prod := s.homeRead a 4
  let slot := prod % 2 ^ (s.homeRead (a + 12) 1 % 32)
  let frames := s.homeRead (a + 16) 6 % 2 ^ 43
  let s := s.setHomeBytes (frames + 1024 * slot) (s.frameBytes n 0xFFFFFFFF st.infl)
  let s := s.homeWrite (a + 64 + 128 * slot) 128 (s.stopRecord n st prod)
  let s := s.homeWrite a 4 (prod + 1)
  (s.setCoreAt n { s.coreAt n with stop := some { st with recorded := true } }).interrupt (homeSlice n) (BitVec.ofNat 64 n)

/-- Are all packets that core `n` has sent settled (R293, R302)? -/
def State.packetsSettled (s : State) (n : Nat) : Bool :=
  s.pdcs.values.all fun p => p.unacked.all fun o => decide (o.core ≠ n)

/-- A task that has trapped leaves its core (R54, R80, R293). -/
def State.leaveByTrap (s : State) (n : Nat) : State :=
  let s := (s.taskEnded n true).endClocks n
  s.setCoreAt n (s.coreAt n).vacated

/-- STOP_RECORD_WRITE (R294): the record of a stop. The core of a trapped task goes idle once it stands, the accesses of words that had issued are
performed, and every packet is settled (R290, R293). -/
def execStopRecordWrite (core : Nat) (s : State) : Host.Outcome State Fault Refusal :=
  .next (match (s.coreAt core).stop with
    | none => s
    | some st =>
      let s := if st.recorded then s
        else match s.stopRing core st with
          | none => s.ringWaits core st none
          | some a => if s.ringFull a then s.ringWaits core st (some a) else s.putRecord core st a
      match (s.coreAt core).stop with
      | some st =>
        if st.recorded ∧ st.kind ≠ .fault ∧ s.packetsSettled core ∧ (s.coreAt core).accesses.all (fun x => x.op.isMarker) then s.leaveByTrap core
        else s
      | none => s)

/-- A suspended task goes on (R292, R317, R332): the writes to its debug view take effect, the context descriptor is read again, the clusters go on from the
state the core holds, an access that waits for it is performed again; a halt still landing goes on (R331). Its clusters' clocks do not advance: the
resumption of R201 is that of a task that starts again from its image (DESIGN CHOICE, log 85). -/
def State.resumeTask (s : State) (n : Nat) : State :=
  let s := s.applyView n
  let c := s.coreAt n
  s.setCoreAt n { c with
    stop := none
    dxw := dxwDone c.dxw
    ctx := s.contextData c.ctx.ctx
    cr := { c.cr with state := .running }
    accesses := c.accesses.map fun x => if x.phase = .waiting && !x.checked then { x with phase := .issued } else x } |>.landHalt n

/-- Is a core suspended with its stop recorded, and not being saved? -/
def Core.mayResume (c : Core) : Bool :=
  c.suspended && match c.stop with
    | some st => st.recorded
    | none => false

/-- SERVICE_RESUME (R292): the service kernel has resolved the cause. -/
def execServiceResume (core : Nat) (s : State) : Host.Outcome State Fault Refusal :=
  .next (if (s.coreAt core).mayResume then s.resumeTask core else s)

/-- CONVERT_TO_TRAP (R292): a fault becomes a trap with its cause unchanged. -/
def execConvertToTrap (core : Nat) (s : State) : Host.Outcome State Fault Refusal :=
  .next (
    let c := s.coreAt core
    match c.stop with
    | none => s
    | some st =>
      if st.kind = .fault ∧ st.recorded ∧ c.save.isNone then
        s.stopWith core { st with kind := .trap, debug := false, recorded := false, waitingRing := false }
      else s)

/-- May a forced save of core `n` begin now: a task that runs or is suspended, that is not being saved, owes no trap and has not begun its DONE's
commit (R291)? -/
def Core.mayForce (c : Core) : Bool :=
  c.busy && c.save.isNone && !c.trapOwed && !c.finishing && (match c.stop with
    | some st => decide (st.kind = .fault)
    | none => true)

/-- A preemption request that core `n` receives (R297): at once a forced save where the task is suspended or the deadline is 0; of two requests the
earlier deadline counts. -/
def State.requestSave (s : State) (n : Nat) (d : Nat) : State :=
  let c := s.coreAt n
  if !c.busy ∨ c.trapped ∨ c.trapOwed ∨ c.save.isSome ∨ c.finishing then s
  else if c.mayForce ∧ (d = 0 ∨ c.stop.isSome) then s.beginSave n (forcedSave false)
  else
    let due := s.dcc + d * 1000
    s.setCoreAt n { c with preempt := match c.preempt with
      | some p => some { p with deadline := min p.deadline due }
      | none => some ⟨due, s.dcc⟩ }

/-- The cores whose tasks are preempted together with core `n`'s: its gang's (R44). -/
def State.together (s : State) (n : Nat) : List Nat :=
  match (s.coreAt n).gang with
  | none => [n]
  | some (g, _) => (List.range 64).filter fun m => (s.coreAt m).busy && (match (s.coreAt m).gang with
    | some (k, _) => decide (k = g)
    | none => false)

/-- The deadline a preemption request carries, in µs (R84, R297): the launch's FSDL, or the partition's default when that is 0. -/
def State.saveDeadline (s : State) (n : Nat) : Nat :=
  let f := match s.launch (s.coreAt n).launchKey with
    | some l => l.field 208 16
    | none => 0
  if f = 0 then (s.coreAt n).ctx.fsdl else f

/-- PREEMPTION_REQUEST (R297): a halt where `d` is 0, else with the deadline of the task's launch; a gang's members are preempted together (R44). -/
def execPreemptionRequest (core : Nat) (d : BitVec 16) (s : State) : Host.Outcome State Fault Refusal :=
  .next (if (s.coreAt core).busy then (s.together core).foldl (fun s n => s.requestSave n (if d = 0 then 0 else s.saveDeadline n)) s else s)

/-- FORCED_SAVE_DEADLINE (R297): no PHINT has issued within the deadline. -/
def execForcedSaveDeadline (core : Nat) (s : State) : Host.Outcome State Fault Refusal :=
  .next (
    let c := s.coreAt core
    match c.preempt with
    | none => s
    | some p => if c.mayForce ∧ p.deadline ≤ s.dcc then s.beginSave core (forcedSave false) else s)

/-- Is a row still on its way one that the image can hold: in a slot, with no padding among what has not arrived (R308; log 13)? -/
def Core.savableRow (c : Core) (x : Access) : Bool :=
  match x.op, c.slotOf x.id with
  | .queueRow _ _, some (_, sl) =>
    (List.range 8).all fun f => sl.mask.getLsbD f || (x.flitParts f).all fun p => match p.place with
      | .drop => false
      | .pad _ => x.phase ≠ .sent && false
      | _ => true
  | _, _ => false

/-- Have the arrays stopped at a row boundary, every started drain done (R240)? -/
def ArrayState.stopped (a : ArrayState) : Bool := !a.ops.any ArrayOp.isDrain

/-- Are steps 2 and 3 of a save done (R301): every scalar producer written, every access performed but for rows the image holds, the arrays
stopped, no commit under way, and no row step that could still run? -/
def Core.quiet (c : Core) : Bool :=
  c.scal.values.all (fun r => r.pending.isNone) && c.accesses.all (fun x => x.op.isMarker || c.savableRow x) && c.arrayX.stopped &&
    c.arrayY.stopped && c.committing.isNone && (match c.vop with
      | some v => !c.rowReady v
      | none => true)

/-- A command squashed (R302): the chunks not started are dropped. -/
def Command.squashed (k : Command) : Command :=
  if (k.fn = 0 ∨ k.fn = 1) ∧ !k.squash ∧ k.fails.cells.isEmpty then
    let kept := k.work.filter fun w => decide (w.2.1 < k.top)
    { k with squash := true, work := kept, dropped := k.work.length - kept.length }
  else k

/-- DRAIN_LIMIT_EXPIRY (R301 step 4, R302): the drain begins once the steps before it are done; when DL has passed, COPY and SEND commands are
squashed. -/
def execDrainLimitExpiry (core : Nat) (s : State) : Host.Outcome State Fault Refusal :=
  .next (
    let c := s.coreAt core
    match c.save with
    | none => s
    | some v =>
      if !v.drained then
        (if c.quiet then s.setCoreAt core { c with save := some { v with drained := true, drainStart := s.dcc } } else s)
      else if v.drainStart + c.ctx.dl * 1000 ≤ s.dcc then s.setCoreAt core { c with commands := c.commands.map Command.squashed }
      else s)

/-- Has a core finished step 4 of its save (R301, R302)? -/
def State.drainedAt (s : State) (n : Nat) : Bool :=
  let c := s.coreAt n
  c.save.isSome && c.quiet && s.packetsSettled n &&
    c.commands.all fun k => k.squash && k.work.isEmpty && decide (k.unacked = 0) && k.fails.cells.isEmpty

/-- A vector word whose next row step cannot run is abandoned, and issues again (R290). -/
def Core.dropRowSteps (c : Core) : Core :=
  if c.vop.isSome then ({ c with vop := none } : Core).setCl .V { c.cl .V with reex := true, stage := 0 } else c

/-- The save reference of a task saved on core `n` with its image at `buf` (R303). -/
def Core.saveReference (c : Core) (n buf : Nat) : DWord :=
  BitVec.ofNat 64 (2 ^ 63 + (if c.barriersInUse then 2 ^ 49 + n % 64 * 2 ^ 43 else 0) + buf)

/-- What is kept of a saved task beside its image (log 13). -/
def Core.retained (c : Core) : Kept where
  rus := c.versionRu
  recs := c.versionOf
  nibbles := ⟨c.version.cells.filterMap fun e => if e.2.mask = 0xFF then none else some (e.1, e.2.mask)⟩
  barriers := c.barriers
  commits := c.commits
  commitDcc := c.commitDcc
  cmdClk := c.cmdClk
  lastCmds := allClusters.map fun k => (c.cl k).lastCmdClock
  stamps := [c.arrayX, c.arrayY].map fun y => (y.pend.map PendingOp.stamp).getD 0
  owed := match c.pendingTrap with
    | some t => if t.kind = .fault then some t else none
    | none => none

/-- Steps 5 and 6 of a save (R301): the image is written, and the CR returns to its ready area. -/
def State.finishSave (s : State) (n : Nat) (v : Save) (buf : Nat) : State :=
  let s := s.applyView n
  let s := s.setCoreAt n (s.coreAt n).dropRowSteps
  let (pieces, len) := s.imagePieces n v
  if !s.bufferOk n buf len then s
  else
    let c := s.coreAt n
    let s := (s.writePieces buf pieces).endClocks n
    let s := s.enqueueReady c.launchKey c.ctx.ctx c.savedCr c.gang (c.saveReference n buf) false c.retained
    s.setCoreAt n (s.coreAt n).vacated

/-- SAVE_IMAGE_WRITE (R301): the image goes to the buffer the service kernel has assigned, once the engine commands have drained, of a gang those
of every member. -/
def execSaveImageWrite (core : Nat) (buf : BitVec 43) (s : State) : Host.Outcome State Fault Refusal :=
  .next (
    let c := s.coreAt core
    let written : Bool := match c.stop with
      | some st => st.recorded
      | none => true
    match c.save with
    | none => s
    | some v => if written ∧ (s.together core).all s.drainedAt ∧ buf.toNat % 64 = 0 then s.finishSave core v buf.toNat else s)

/-- A host-link timeout ends the access that met it (R244): the first access of core `n` to a host-bias frame, where there is one. -/
def State.dropHostAccess (s : State) (n : Nat) : State :=
  match (s.coreAt n).accesses.find? fun x => x.keys.any fun k => decide (k.1 = 0) && s.hostBias.get false (k.2 / 1024) with
  | some x => s.setCoreAt n (((s.coreAt n).freeSlot x.id).dropAccess x.id)
  | none => s

/-- What an uncorrectable error with UNCORR code `u` does where it meets an array of core `n` (R239, R425, R428): UNCORR precise at the MMUL whose operands the
array has not all read, or imprecise with the array as its unit, the row in the coordinates. Where the array does no such thing, nothing is met. -/
def State.arrayError (s : State) (n : Nat) (u : Nat) : ErrorSite → Option State
  | .task => none
  | .operands y => match ((s.coreAt n).array (isArrayY y)).pend with
    | some p => some (s.uncorrectableAt n 2 (BitVec.ofInt 32 p.pc) false ⟨0x1A, 0, BitVec.ofNat 64 u, stepCoords p.regs.mb, 0⟩)
    | none => some s
  | .row y => match ((s.coreAt n).array (isArrayY y)).entering with
    | some o =>
      let c := operandCoord false o.regs.ma (o.row + o.staged.length) 0
      some (s.uncorrectableAt n (arrayUnit (isArrayY y)) 0 true ⟨0x1A, 0, BitVec.ofNat 64 u, c, 0⟩)
    | none => some s
  | .drain y => match ((s.coreAt n).array (isArrayY y)).draining with
    | some o => some (s.uncorrectableAt n (arrayUnit (isArrayY y)) 0 true ⟨0x1A, 0, BitVec.ofNat 64 u, (drainCoords o.regs.mc o.row).headD [], 0⟩)
    | none => some s

/-- UNCORR at what an uncorrectable error meets of core `n`. -/
def State.errorAt (s : State) (n u : Nat) (site : ErrorSite) : State := (s.arrayError n u site).getD (s.uncorrectable n u)

/-- A launch cut by the bridge's failure (R313): its groups in flight are marked, and its completion record will be PARTIAL. -/
def Launch.cut (l : Launch) : Launch :=
  let per := l.inner 1
  let groups := List.range (l.extent 0)
  let l := groups.foldl (fun l g =>
    let expanded := (l.expanded.filter fun y => decide (l.linearOf y / per = g)).length
    if l.level0.get 0 (4 * g) ≠ 0 ∨ (expanded < per ∧ l.level0.get 0 (4 * g + 1) ≠ 0) then l.bump g 3 1 else l) l
  { l with status := 3 }

/-- A launch's Ready and Pending records ended without running, its running tasks stopped with DLINK (R313). -/
def State.cutLaunch (s : State) (key : Nat) : State :=
  match s.launch key with
  | none => s
  | some l =>
    let running := (List.range 64).filter fun n => (s.coreAt n).busy && decide ((s.coreAt n).launchKey = key)
    let gone := l.alive - running.length
    let l := { l.cut with alive := running.length }
    let s := (s.ready.filter fun r => r.launch = key).foldl (fun s r => s.leaveArea r .ended) { s with ready := s.ready.filter fun r => r.launch ≠ key }
    let s := (s.setLaunch key l).setLive l.ctx l.qnum (s.liveOf l.ctx l.qnum - gone)
    running.foldl (fun s n =>
      let s := s.setCoreAt n { s.coreAt n with save := none }
      s.takeStop n .bridge 7 0 true false ⟨0x1C, 0, 0, [], 0⟩ 0) s

/-- The die bridge fails (R313): the launches with tasks on both dies are cut. -/
def State.failBridge (s : State) : State :=
  if s.bridgeFailed then s
  else
    let keys := (s.launches.cells.filter fun e => e.2.dieMask = 3 && decide (e.2.status = 0)).map Prod.fst
    keys.foldl State.cutLaunch { s with bridgeFailed := true }

/-- DIE_BRIDGE_FAILURE (R313). -/
def execDieBridgeFailure (s : State) : Host.Outcome State Fault Refusal := .next s.failBridge

/-- The storage after an uncorrectable error (R326): a frame of HBM is retired, a core whose scratchpad fails again is fenced (R29), and the bridge fails. -/
def State.afterError (s : State) (core : Nat) (e : StorageError) : State :=
  if e.unit = 1 then { s with retired := s.retired ++ [e.addr.toNat / 65536] }
  else if e.unit = 3 ∧ core < 64 then
    if s.scratchErrors.get false core then (s.fence core).refill else { s with scratchErrors := s.scratchErrors.put core true }
  else if e.unit = 6 then s.failBridge
  else s

/-- UNCORRECTABLE_ERROR (R29, R239, R244, R288, R312, R326, R425, R428): counted; the task it reaches traps, and its gang fails. A port's error reaches no
task: the frame is dropped. Code 0 stands for a part of the core that R29 names and R326 gives no code: an array row, a cluster, the copy engine (log 62). -/
def execUncorrectableError (core : Nat) (e : StorageError) (s : State) : Host.Outcome State Fault Refusal :=
  .next (
    if 10 < e.unit.toNat then s
    else if e.unit = 0 then s.errorAt core (Config.free s.steps).toNat e.site
    else
      let s := s.count (keyUncorrectable e.unit.toNat)
      let s := if e.unit = 8 then s.dropHostAccess core else s
      if e.unit = 9 then s else (s.errorAt core e.unit.toNat e.site).afterError core e)

end Sys2Proof.Machine
end

