-- ==== Sys2Proof/Machine/Service.lean ====
section
/-!
DEFINITION. The service kernel as tasks and the host meet it: service calls and their journal (R319 to R321), the host's accesses (R315), bias
flips (R196, R197), invalidation (R165), relocation (R168), time (R81), the Sage watchdog (R280) and the clock (R28).
-/

namespace Sys2Proof.Machine

/-- A reply doubleword (R320): its result is 0 when the status is not OK. -/
def mkReply (status result : Nat) : DWord := BitVec.ofNat 64 (if status = 0 then result % 2 ^ 56 * 256 else status)

/-- The viewer of a call: its context's table and its core's scratchpad. -/
def State.callViewer (s : State) (core : Nat) (w : SvcWait) : Viewer := ⟨core, false, s.rootOf w.ctx, none⟩

/-- The table record a handle names, with its address, where its generation agrees. -/
def State.kernelRecord (s : State) (w : SvcWait) (h : BitVec 32) : Option (Nat × ObjRec) :=
  let root := s.rootOf w.ctx
  let i := handleIndex h
  let a := recordAddr root i
  let r := ObjRec.ofBits (BitVec.ofNat 512 (s.homeRead a 64))
  if i ≠ 0 ∧ i < 0xFFF00 ∧ i < rootLength root ∧ r.valid ∧ r.gen = handleGen h then some (a, r) else none

/-- The 64 bytes of a record image at a byte offset of the task's frame object (R320). -/
def State.recordImage (s : State) (core : Nat) (w : SvcWait) : Option Nat :=
  let v := s.callViewer core w
  match s.freshRecord v w.frame 0 with
  | .error _ => none
  | .ok r =>
    if r.span < w.arg.toNat + 64 then none
    else
      let bs := (List.range 64).map fun i => s.objRead v r (w.arg.toNat + i) 1
      if bs.all Option.isSome then some (natOfBytes (bs.map fun b => BitVec.ofNat 8 (b.getD 0))) else none

/-- INSTALL (R152, R320): a record whose index is free takes the image, with the generation of the new handle `h`; an image that fails a check of R152 is
refused. -/
def State.install (s : State) (core : Nat) (w : SvcWait) (h : BitVec 32) : Option State :=
  let root := s.rootOf w.ctx
  let i := handleIndex h
  let a := recordAddr root i
  if i = 0 ∨ 0xFFF00 ≤ i ∨ rootLength root ≤ i ∨ (ObjRec.ofBits (BitVec.ofNat 512 (s.homeRead a 64))).valid then none
  else
    match s.recordImage core w with
    | none => none
    | some v =>
      if s.recordReason (s.callViewer core w) i (.ofBits (BitVec.ofNat 512 v)) ≠ 0 then none
      else some (s.homeWrite a 64 (v % 2 ^ 480 + handleGen h * 2 ^ 480 + v / 2 ^ 492 * 2 ^ 492))

/-- RETIRE (R320): the record's GEN advances. -/
def State.retireRecord (s : State) (w : SvcWait) : Option State :=
  (s.kernelRecord w (w.arg.extractLsb' 0 32)).map fun (a, r) =>
    let v := s.homeRead a 64
    s.homeWrite a 64 (v % 2 ^ 480 + (r.gen + 1) % 4096 * 2 ^ 480 + v / 2 ^ 492 * 2 ^ 492)

/-- RESIDE (R320): the unit is present afterwards, in the frame the kernel chooses where it was not (log 14), which has not
been retired (R326). -/
def State.reside (s : State) (core : Nat) (w : SvcWait) (frame : Nat) : Option State :=
  match s.kernelRecord w (w.arg.extractLsb' 32 32) with
  | none => none
  | some (_, r) =>
    let ru := (w.arg.extractLsb' 0 32).toNat
    let a := ruAddr r ru
    let tier := if frame < 2 ^ 23 then 0 else 1
    if !r.mode ∨ s.ruCount (s.callViewer core w) r ≤ ru then none
    else if (RuEntry.ofBits (BitVec.ofNat 64 (s.homeRead a 8))).present then some s
    else if s.frameOk r.rulog tier frame && (List.range (2 ^ r.rulog)).all (fun k => !s.retired.contains (frame + k)) then some (s.homeWrite a 8 (s.homeRead a 8 / 2 ^ 37 * 2 ^ 37 + frame * 2 ^ 10 + tier * 2 ^ 8 + 0x20))
    else none

/-- A service executed (R320): the kernel's answer is its own where it refuses or fails a call; a service there is not has one answer only. -/
def State.serve (s : State) (core : Nat) (w : SvcWait) (answer : DWord) : State × DWord :=
  let status := answer.toNat % 256
  let result := answer.toNat / 256
  if 4 ≤ w.service.toNat then (s, mkReply 1 0)
  else if status = 2 ∨ status = 5 then (s, mkReply status 0)
  else
    let done := match w.service.toNat with
      | 0 => some (s, w.arg.toNat)
      | 1 => (s.install core w (BitVec.ofNat 32 result)).map fun t => (t, result % 2 ^ 32)
      | 2 => (s.retireRecord w).map fun t => (t, 0)
      | _ => (s.reside core w result).map fun t => (t, 0)
    match done with
    | some (t, r) => (t, mkReply 0 r)
    | none => (s, mkReply 5 0)

/-- A journal entry (R321), `state` 1 RUNNING or 2 DONE. -/
def journalEntry (w : SvcWait) (state : Nat) (reply : DWord) : BitVec 256 :=
  BitVec.ofNat 256 (packFields [(state, 2), (0, 6), (w.service.toNat, 6), (0, 34), (w.ctx.toNat, 16), (w.arg.toNat, 64), (w.callId.toNat, 64),
    (reply.toNat, 64)])

/-- Is this the entry of the call's identifier (R321)? -/
def SvcWait.names (w : SvcWait) (e : BitVec 256) : Bool := e.extractLsb' 48 16 = w.ctx && e.extractLsb' 128 64 = w.callId

/-- Is this entry one of the same identifier as `e`? -/
def sameCall (e y : BitVec 256) : Bool := y.extractLsb' 48 16 = e.extractLsb' 48 16 && y.extractLsb' 128 64 = e.extractLsb' 128 64

/-- Is an entry of that state? -/
def entryIs (state : Nat) (e : BitVec 256) : Bool := decide ((e.extractLsb' 0 2).toNat = state)

/-- The slice with the entries of the call's identifier replaced. -/
def Slice.journaled (x : Slice) (w : SvcWait) (e : BitVec 256) : Slice :=
  { x with journal := x.journal.map fun y => if w.names y then e else y }

/-- The journal with a free entry (R321): there is one, or the oldest that is DONE makes room; nothing where every entry is RUNNING. -/
def Slice.makeRoom (x : Slice) : Option Slice :=
  if x.journal.length < 4096 then some x
  else (x.journal.find? (entryIs 2)).map fun e =>
    { x with
      journal := x.journal.erase e
      expired := x.expired ++ [(e.extractLsb' 48 16, e.extractLsb' 128 64)] }

/-- A call takes an entry, RUNNING, before it executes (R321). -/
def Slice.takeEntry (x : Slice) (w : SvcWait) : Option Slice :=
  x.makeRoom.map fun x => { x with journal := x.journal ++ [journalEntry w 1 0] }

/-- A journal entry that a migration carries here (R311, R321). -/
def Slice.carryEntry (x : Slice) (e : BitVec 256) : Slice :=
  let e := e &&& ~~~((0x3FFFFFFFF#256 <<< 14) ||| (0x3F#256 <<< 2))
  if entryIs 0 e ∨ entryIs 3 e then x
  else
    let other : Slice := { x with journal := x.journal.filter fun y => !sameCall e y }
    match other.makeRoom with
    | some y => { y with journal := y.journal ++ [e] }
    | none => x

/-- The instance that owns what a call changes (R318): the record or the residency entry homes there. A call that changes nothing is its journaling
instance's own. -/
def State.ownerOf (s : State) (j : Nat) (w : SvcWait) (answer : DWord) : Nat :=
  let record := fun (h : BitVec 32) => homeOf (recordAddr (s.rootOf w.ctx) (handleIndex h))
  if answer.toNat % 256 = 2 ∨ answer.toNat % 256 = 5 then j
  else match w.service.toNat with
    | 1 => record (BitVec.ofNat 32 (answer.toNat / 256))
    | 2 => record (w.arg.extractLsb' 0 32)
    | 3 => match s.kernelRecord w (w.arg.extractLsb' 32 32) with
      | some (_, r) => homeOf (ruAddr r (w.arg.extractLsb' 0 32).toNat)
      | none => j
    | _ => j

/-- A call executed (R318): where another instance owns what it changes, a request to that instance comes first, and the call waits for its answer. -/
def State.runService (s : State) (j core : Nat) (w : SvcWait) (answer : DWord) : State × Option DWord :=
  let o := s.ownerOf j w answer
  if o ≠ j ∧ !(s.slice o).requests.contains (core, w) then
    (s.setSlice o { s.slice o with requests := (s.slice o).requests ++ [(core, w)] }, none)
  else
    let (t, r) := s.serve core w answer
    ({ t with slices := t.slices.mapValues fun x => { x with requests := x.requests.erase (core, w) } }, some r)

/-- What an instance does next with a call (R321): the state after, and the reply once there is one. A call that finds its identifier RUNNING waits for that
entry, but for the call which took it. -/
def State.answerCall (s : State) (j core : Nat) (w : SvcWait) (answer : DWord) : State × Option DWord :=
  if w.callId = 0 then s.runService j core w answer
  else
    let x := s.slice j
    match x.journal.find? w.names with
    | some e =>
      if e.extractLsb' 8 6 ≠ w.service ∨ e.extractLsb' 64 64 ≠ w.arg then (s, some (mkReply 4 0))
      else if entryIs 2 e then (s, some (e.extractLsb' 192 64))
      else if (x.mailbox.find? fun y => y.2.ctx = w.ctx && y.2.callId = w.callId) ≠ some (core, w) then (s, none)
      else
        match s.runService j core w answer with
        | (t, some r) => (t.setSlice j ((t.slice j).journaled w (journalEntry w 2 r)), some r)
        | (t, none) => (t, none)
    | none =>
      if x.expired.contains (w.ctx, w.callId) then (s, some (mkReply 3 0))
      else
        match x.takeEntry w with
        | some x => (s.setSlice j x, none)
        | none => (s, none)

/-- The instance with a call of core `n` in its mailbox, and the oldest such call. -/
def State.callOf (s : State) (n : Nat) : Option (Nat × SvcWait) :=
  (List.range 16).findSome? fun j => ((s.slice j).mailbox.find? fun e => e.1 = n).map fun e => (j, e.2)

/-- The word cluster `k` of core `n` waits at, on its own: it has been attempted and is in no lockstep group. -/
def State.waitingWord (s : State) (n : Nat) (k : Cluster) : Option Instr :=
  let c := s.coreAt n
  let x := c.cl k
  if c.executes k || !c.issues k || x.lock || (x.since.isNone && decide (x.stage = 0)) then none
  else
    match s.fetch n k x.pc with
    | .error _ => none
    | .ok (_, w) => match decode w with
      | .ok d => some d.instr
      | .error _ => none

/-- Cluster `k` of core `n` as the one whose word is meant. -/
def State.at (s : State) (n : Nat) (k : Cluster) : State := { s with core := n, cluster := k }

/-- A reply reaches its core: the SVC that waits there completes (R319). -/
def State.deliverReply (s : State) (n : Nat) (w : SvcWait) (r : DWord) : Host.Outcome State Fault Refusal :=
  let c := s.coreAt n
  if c.svc = some w ∧ (c.cl .C).stage = 3 then
    let s := s.setCoreAt n { c with svc := some { w with answer := some r } }
    match s.waitingWord n .C with
    | some (.svc d a b m f i) => execSvc d a b m f i (s.at n .C)
    | _ => .next s
  else .next s

/-- SVC_REPLY (R319 to R321): the journaling instance takes the oldest call of the core from its mailbox and answers it. A call that was
abandoned and has issued again is answered at its last issue. -/
def execSvcReply (core : Nat) (answer : BitVec 64) (s : State) : Host.Outcome State Fault Refusal :=
  match s.callOf core with
  | none => .next s
  | some (j, w) =>
    match s.answerCall j core w answer with
    | (t, none) => .next t
    | (t, some r) =>
      let left := (t.slice j).mailbox.erase (core, w)
      let t := t.setSlice j { t.slice j with mailbox := left }
      if left.contains (core, w) then .next t else t.deliverReply core w r

/-- WAITCT_TIMEOUT (R475): a WAITCT that waits past its limit completes with TOUT. -/
def execWaitctTimeout (core : Nat) (s : State) : Host.Outcome State Fault Refusal :=
  match allClusters.findSome? fun k => match s.waitingWord core k with
    | some (.waitct d a b m n) => some (k, d, a, b, m, n)
    | _ => none with
  | some (k, d, a, b, m, n) => execWaitct d a b m n (s.at core k)
  | none => .next s

/-- WAITD_TARGET_REACHED (R476): a WAITD whose target DCC has reached completes. -/
def execWaitdTargetReached (core : Nat) (k : Cluster) (s : State) : Host.Outcome State Fault Refusal :=
  match s.waitingWord core k with
  | some (.waitd d a m) => execWaitd d a m (s.at core k)
  | _ => .next s

/-- TIME_SYNC_MESSAGE (R81): the servo steers the reference by at most 10 ppm; a device that would need more reports it. DCC counts on. -/
def execTimeSyncMessage (msg : SyncMsg) (ppm : Int) (s : State) : Host.Outcome State Fault Refusal :=
  .next (match msg with
    | .followUp | .delayResp =>
      let s := if ppm < -10 ∨ 10 < ppm then s.count keyUnsync else s
      { s with servo := max (-10) (min 10 ppm) }
    | .sync | .delayReq | .announce => s)

/-- SAGE_WATCHDOG (R280, R286): a Sage core with events for 10 ms and no GEV, or one that has stopped, is declared failed; its ports go down. -/
def execSageWatchdog (g : Nat) (s : State) : Host.Outcome State Fault Refusal :=
  .next (
    let x := s.sageAt g
    let late := x.running && decide (0 < x.evOcc ∧ x.lastPop + 10000000 ≤ s.dcc)
    if g < 8 ∧ !x.failed ∧ (late ∨ x.stopped) then
      ((s.setSageAt g { x with failed := true, running := false }).count keySageFail).downSage g
    else s)

/-- Does a frame belong to a host-visible object (R196, R315): a valid record with HV of some context's table has it in a present residency
entry? -/
def State.hostVisible (s : State) (frame : Nat) : Bool :=
  s.contexts.values.any fun d =>
    let root := d.extractLsb' 128 64
    root.getLsbD 63 && (List.range (min (rootLength root) 0xFFF00)).any fun i =>
      let r := ObjRec.ofBits (BitVec.ofNat 512 (s.homeRead (recordAddr root i) 64))
      r.valid && r.hv && r.mode && (List.range (s.ruCount ⟨0, false, root, none⟩ r)).any fun n =>
        let e := RuEntry.ofBits (BitVec.ofNat 64 (s.homeRead (ruAddr r n) 8))
        e.present && decide (e.tier < 2) && (decide (e.frame = frame) || decide (e.sframe = frame))

/-- Does boot keep the device in recovery (R324): a step that may not be skipped has failed both ways? -/
def State.inRecovery (s : State) : Bool :=
  [0, 1].any fun d => [1, 4, 8].any fun k => (s.bootLast (bootKey d k 0)).any fun e => decide (e.state = 3 ∨ e.state = 1) && e.alt

/-- The device's answer to a party outside. -/
def State.respond (s : State) (r : Response) : State := { s with responses := s.responses ++ [r] }

/-- The bytes a host request covers. -/
def reqBytes : HostReq → Nat
  | .read n => n
  | .write bs => bs.length
  | .control _ => 0

/-- A host request that gets no memory: a read answers poison, a write is dropped (R196). -/
def State.hostPoisoned (s : State) : HostReq → State
  | .read _ => s.respond .poison
  | _ => s

/-- A host request performed at its home (R196); a frame of no host-visible object answers poison or drops the write. Behind a failed die bridge a line homed
on die 1 is out of the host's reach (R14), which the model answers as R196 answers an address it rejects (DESIGN CHOICE, log 81). -/
def State.hostPerform (s : State) (a : Nat) (req : HostReq) : State :=
  if s.bridgeFailed ∧ 8 ≤ homeOf a then s.hostPoisoned req
  else if !s.hostVisible (a / 65536) then (s.count keyHostRej).hostPoisoned req
  else
    match req with
    | .read n => s.respond (.data (s.homeBytes a n))
    | .write bs => s.setHomeBytes a bs
    | .control _ => s

/-- SLOTCTL as it reads (R68). -/
def QueueSlot.control (q : QueueSlot) : DWord :=
  BitVec.ofNat 64 (q.desca / 64 * 64 + 32 * q.merr.toNat + (match q.state with
    | .free => 0
    | .mapped => 1
    | .unmapping => 2))

/-- A control register as the host or a service core reads it (R5, R314, R322): those of BAR0, by their names, since the spec gives no offsets within it (log
64). -/
def State.controlValue (s : State) : CtlReg → Option (BitVec 256)
  | .dxw n => some ((s.coreAt n).dxw.setWidth 256)
  | .dctl n => some ((s.coreAt n).dctl.setWidth 256)
  | .dbuf n => some ((s.coreAt n).dbuf.setWidth 256)
  | .dwp k => some ((s.dwp.get 0 k).setWidth 256)
  | .frb k => some ((s.slice k).frb.setWidth 256)
  | .tinv k => some ((s.slice k).tinv.setWidth 256)
  | .hbias k => some ((s.slice k).hbias.setWidth 256)
  | .slotctl k => some ((s.queue k).control.setWidth 256)
  | .devcmd => some (s.devcmd.setWidth 256)
  | _ => none

/-- A control register read by the host (R314): its bytes, as many as it has; nothing for a name that is no register. -/
def State.hostReads (s : State) (r : CtlReg) : State :=
  match s.controlValue r with
  | some v => s.respond (.data (bytesOfNat (match r with
    | .dbuf _ => 24
    | _ => 8) v.toNat))
  | none => s

/-- HOST_CXL_MEM_ACCESS (R196, R314, R315): within one line of device memory, performed at its home; or a control register's read. A request to a frame whose
flip to device-bias is under way is held (R197). -/
def execHostCxlMemAccess (addr : BitVec 43) (req : HostReq) (s : State) : Host.Outcome State Fault Refusal :=
  .next (
    let a := addr.toNat
    let n := reqBytes req
    let frame := a / 65536
    let x := s.slice (homeOf (frame * 65536))
    let held : Bool := x.flipping.any fun e => decide (e.1 = frame) && !e.2
    let away : Bool := decide (2 ^ 39 ≤ a) || decide (n = 0) || decide (a / 64 ≠ (a + n - 1) / 64)
    match req with
    | .control r => if s.inRecovery then s else s.hostReads r
    | req =>
    if away || s.inRecovery then s
    else if held then s.setSlice (homeOf (frame * 65536)) { x with hostHeld := x.hostHeld ++ [(a, req)] }
    else s.hostPerform a req)

/-- HBIAS written (R197): its FRAME and the bits that clear on 1; a command while BUSY is ignored and noted; one that names a frame not homed here
or not host-visible is refused. -/
def State.writeHbias (s : State) (slice : Nat) (v : DWord) : State :=
  if 16 ≤ slice then s
  else
    let x := s.slice slice
    let old := x.hbias
    if old.getLsbD 0 then s.setSlice slice { x with hbias := old ||| 4 }
    else
      let frame := (v.extractLsb' 37 27).toNat
      let kept := old &&& 0x86 &&& ~~~(v &&& 0x84)
      let reg : DWord := (v &&& 0xFFFFFFE000000000) ||| kept
      let cmd := (v.extractLsb' 4 2).toNat
      if cmd = 0 then s.setSlice slice { x with hbias := reg }
      else if homeOf (frame * 65536) ≠ slice ∨ !s.hostVisible frame then s.setSlice slice { x with hbias := reg ||| 0x80 }
      else if cmd = 3 then
        s.setSlice slice { x with hbias := (reg &&& ~~~2) ||| (if s.hostBias.get false frame then 0 else 2) }
      else s.setSlice slice { x with hbias := reg ||| 1, flipping := some (frame, decide (cmd = 1)) }

/-- The write of HBIAS that gives command `cmd` for a frame. -/
def hbiasCommand (frame : BitVec 27) (cmd : BitVec 2) : DWord := frame ++ 0#31 ++ cmd ++ 0#4

/-- FLIP_TO_HOST_BIAS (R197). -/
def execFlipToHostBias (slice : Nat) (frame : BitVec 27) (s : State) : Host.Outcome State Fault Refusal :=
  .next (s.writeHbias slice (hbiasCommand frame 1))

/-- FLIP_TO_DEVICE_BIAS (R197). -/
def execFlipToDeviceBias (slice : Nat) (frame : BitVec 27) (s : State) : Host.Outcome State Fault Refusal :=
  .next (s.writeHbias slice (hbiasCommand frame 2))

/-- READ_BIAS (R197). -/
def execReadBias (slice : Nat) (frame : BitVec 27) (s : State) : Host.Outcome State Fault Refusal :=
  .next (s.writeHbias slice (hbiasCommand frame 3))

/-- BIAS_FLIP_COMPLETE (R197): the bias is set, CUR shows it, BUSY clears, and what was held goes on, the host's requests in the order they came. -/
def execBiasFlipComplete (slice : Nat) (s : State) : Host.Outcome State Fault Refusal :=
  .next (
    let x := s.slice slice
    match x.flipping with
    | none => s
    | some (f, toHost) =>
      let s := s.setSlice slice { x with flipping := none, hbias := (x.hbias &&& ~~~3) ||| (if toHost then 0 else 2), hostHeld := [] }
      x.hostHeld.foldl (fun s e => s.hostPerform e.1 e.2) { s with hostBias := s.hostBias.set false f toHost })

/-- TINV written (R165): any write while BUSY is 0 starts an invalidation; one while BUSY is 1 is ignored and noted. -/
def State.writeTinv (s : State) (slice : Nat) (v : DWord) : State :=
  if 16 ≤ slice then s
  else
    let x := s.slice slice
    let old := x.tinv
    if old.getLsbD 0 then s.setSlice slice { x with tinv := old ||| 2 }
    else s.setSlice slice { x with tinv := (v &&& ~~~3) ||| (old &&& 2 &&& ~~~v) ||| 1 }

/-- TINV_RECORD (R165), KIND 0. -/
def execTinvRecord (slice : Nat) (ctx : BitVec 16) (index : BitVec 20) (s : State) : Host.Outcome State Fault Refusal :=
  .next (s.writeTinv slice (0#2 ++ ctx ++ index ++ 0#26))

/-- TINV_RU_ENTRY (R165), KIND 1. -/
def execTinvRuEntry (slice : Nat) (ctx : BitVec 16) (index : BitVec 20) (ru : BitVec 24) (s : State) : Host.Outcome State Fault Refusal :=
  .next (s.writeTinv slice (1#2 ++ ctx ++ index ++ ru ++ 0#2))

/-- TINV_CONTEXT (R165), KIND 2. -/
def execTinvContext (slice : Nat) (ctx : BitVec 16) (s : State) : Host.Outcome State Fault Refusal :=
  .next (s.writeTinv slice (2#2 ++ ctx ++ 0#46))

/-- TINV_DEVICE (R165), KIND 3. -/
def execTinvDevice (slice : Nat) (s : State) : Host.Outcome State Fault Refusal := .next (s.writeTinv slice (3#2 ++ 0#62))

/-- The records that stand for address `a`: the table's, and every copy of it in a translation cache (R164). -/
def State.recordCopies (s : State) (a : Nat) : List ObjRec :=
  ((BitVec.ofNat 512 (s.homeRead a 64)) :: (s.cores.values.filterMap fun c => c.recCache.find a) ++
    s.slices.values.filterMap fun x => x.records.find a).map ObjRec.ofBits

/-- What an invalidation names (R165): the records and the residency entries, by address; and, of a core, the accesses, the lines of its task's version
and the handles whose elements have been translated through one of them. -/
structure Named where
  record : Nat → Bool
  entry : Nat → Bool
  access : Core → Access → Bool
  line : Core → Nat → Bool
  handle : Core → BitVec 32 → Bool

/-- Is `a` a residency entry of a record at one of these addresses? -/
def State.entryOf (s : State) (v : Viewer) (records : List Nat) (a : Nat) : Bool :=
  records.any fun p => (s.recordCopies p).any fun r =>
    r.mode && decide (ruAddr r 0 ≤ a) && decide (a < ruAddr r (s.ruCount v r))

/-- What the TINV value `v` names (R165). -/
def State.named (s : State) (v : DWord) : Named :=
  let ctx := v.extractLsb' 46 16
  let index := (v.extractLsb' 26 20).toNat
  let root := s.rootOf ctx
  let w := s.schedViewer ctx
  let a := recordAddr root index
  let mine := fun (c : Core) (h : BitVec 32) => c.ctx.ctx = ctx && decide (handleIndex h = index)
  let ours := fun (c : Core) => decide (c.ctx.ctx = ctx)
  match (v.extractLsb' 62 2).toNat with
  | 0 => ⟨fun b => decide (b = a), s.entryOf w [a], fun c x => mine c x.handle, fun c l => ours c && (c.versionOf.get [] l).contains index, mine⟩
  | 1 =>
    let units := (s.recordCopies a).map fun r => ruAddr r (v.extractLsb' 2 24).toNat
    let of : Option Nat → Bool := fun u => u.toList.any units.contains
    ⟨fun _ => false, units.contains, fun c x => mine c x.handle && x.parts.any fun p => of p.ru, fun c l => ours c && (c.versionRu.get [] l).any fun e => of (some e), mine⟩
  | 2 =>
    let all := (List.range (rootLength root)).map (recordAddr root)
    ⟨all.contains, s.entryOf w all, fun c _ => ours c, fun c _ => ours c, fun c _ => ours c⟩
  | _ => ⟨fun _ => true, fun _ => true, fun _ _ => true, fun _ _ => true, fun _ _ => true⟩

/-- Is an access still to be performed at its home, and not held there by a frame lock (R165, R168)? One that a released lock still has in its queue is; so is
one that a bias flip holds. -/
def State.underWay (s : State) (x : Access) : Bool := x.keys.any fun k => !(x.op.isStore && s.lockHolds k)

/-- Has core `c` something under way that was translated through what an invalidation names: an access, a line of its task's version or commit, elements
asked for of another node, packets of an engine command that are not yet answered (R165)? -/
def State.through (s : State) (m : Named) (c : Core) : Bool :=
  (c.accesses.any fun x => m.access c x && s.underWay x) ||
    ((versionLines c.version ++ (c.committing.map versionLines).getD []).any (m.line c)) ||
    (c.remoteReads.any fun e => e.sent && e.value.isNone && e.failed.isNone && m.handle c e.handle) ||
    c.commands.any fun k => decide (0 < k.unacked) && (m.handle c (descSrch k.desc) || m.handle c (descDsth k.desc))

/-- The cells whose key is not named. -/
def Tab.without {α : Type} (t : Tab α) (bad : Nat → Bool) : Tab α := ⟨t.cells.filter fun e => !bad e.1⟩

/-- The caches without what is named (R164, R165). -/
def State.invalidate (s : State) (m : Named) : State :=
  { s with
    cores := s.cores.mapValues fun c => { c with recCache := c.recCache.without m.record, ruCache := c.ruCache.without m.entry }
    slices := s.slices.mapValues fun x => { x with records := x.records.without m.record, rus := x.rus.without m.entry } }

/-- INVALIDATION_COMPLETE (R165): once every access translated through a matching entry is settled, no cache holds one, and BUSY returns to
0. -/
def execInvalidationComplete (slice : Nat) (s : State) : Host.Outcome State Fault Refusal :=
  .next (
    let x := s.slice slice
    if !x.tinv.getLsbD 0 then s
    else
      let m := s.named x.tinv
      if s.cores.values.any (s.through m) then s
      else (s.setSlice slice { x with tinv := x.tinv &&& ~~~1 }).invalidate m)

/-- FRAME_LOCK_INSTALL (R168): one of the slice's 16 locks; a range that already has one there, or that is empty, takes none. -/
def execFrameLockInstall (slice : Nat) (old new : BitVec 27) (frames : Nat) (s : State) : Host.Outcome State Fault Refusal :=
  .next (
    let x := s.slice slice
    let overlaps := x.locks.any fun l => decide (l.old < old.toNat + frames ∧ old.toNat < l.old + l.frames)
    if slice < 16 ∧ x.locks.length < 16 ∧ !overlaps ∧ 0 < frames then
      s.setSlice slice { x with locks := x.locks ++ [⟨old.toNat, new.toNat, frames, false, [], []⟩] }
    else s)

/-- The lock of that frame range as a redirection. -/
def FrameLock.release (old : Nat) (l : FrameLock) : FrameLock := if l.old = old then { l with released := true, held := [] } else l

/-- Held writes performed in the order they arrived, at the new frame (R168). -/
def State.performWrites (s : State) : List (Nat × VByte) → State
  | [] => s
  | (a, b) :: r => (s.setHomeBits a b).performWrites r

/-- FRAME_LOCK_RELEASE (R168): the lock turns into a redirection, through which the held writes reach the new frame. -/
def execFrameLockRelease (slice : Nat) (old : BitVec 27) (s : State) : Host.Outcome State Fault Refusal :=
  .next (
    let x := s.slice slice
    match x.locks.find? fun l => l.old = old.toNat && !l.released with
    | none => s
    | some l => (s.setSlice slice { x with locks := x.locks.map (FrameLock.release old.toNat) }).performWrites l.held)

/-- REDIRECTION_REMOVE (R168): not while an invalidation of the slice is under way. -/
def execRedirectionRemove (slice : Nat) (old : BitVec 27) (s : State) : Host.Outcome State Fault Refusal :=
  .next (
    let x := s.slice slice
    if x.tinv.getLsbD 0 then s else s.setSlice slice { x with locks := x.locks.filter fun l => !(l.old = old.toNat && l.released) })

/-- CLOCK_THROTTLE (R28): the core clock is lowered or restored, at most to its nominal rate; DCC counts on. -/
def execClockThrottle (mhz : Nat) (s : State) : Host.Outcome State Fault Refusal := .next { s with clockMHz := max 1 (min mhz 1000) }

end Sys2Proof.Machine
end

