-- ==== Sys2Proof/Machine/Summary.lean ====
section
/-!
DEFINITION. The device summary (R322, R323), boot (R324) and attestation (R325).
-/

namespace Sys2Proof.Machine

/-- Values of eight bytes each, one after another. -/
def dwords (l : List Nat) : List Byte := (l.map (bytesOfNat 8)).flatten

/-- Section 0 (R323): partition descriptors; mapped slots with descriptor image and LIVE (log 15). -/
def State.queueSummary (s : State) : List Byte :=
  (s.partitions.values.map fun p => bytesOfNat 64 p.toNat).flatten ++
    ((List.range 128).map fun k =>
      let q := s.queue k
      if q.state = .mapped then dwords [k] ++ s.homeBytes q.mappedAt 64 ++ dwords [s.liveOf q.ctx q.qnum] else []).flatten

/-- The tasks of a launch by the state of their records: Pending, Ready, Running, Suspended, Ended (R33); one that trapped and is
still on its core has ended. -/
def State.tasksByState (s : State) (key : Nat) (l : Launch) : List Nat :=
  let on := fun (st : CrState) => (s.cores.values.filter fun c => c.busy && decide (c.launchKey = key) && c.cr.state = st).length
  let ready := (s.ready.filter fun r => r.launch = key).length
  let ended := l.endedDone + l.trapped + on .ended
  [l.alive - ready - on .running - on .suspended - on .ended, ready, on .running, on .suspended, ended]

/-- Section 1 (R323): every launch in flight. -/
def State.launchSummary (s : State) : List Byte :=
  (s.launches.cells.map fun e => dwords ([queueKey e.2.ctx e.2.qnum, e.2.field 32 32] ++ s.tasksByState e.1 e.2)).flatten

/-- Section 2 (R323): each context's ROOT with its CTX and PART. -/
def State.rootSummary (s : State) : List Byte :=
  (s.contexts.values.map fun d => dwords [(d.extractLsb' 128 64).toNat, (d.extractLsb' 80 16).toNat, (d.extractLsb' 64 16).toNat]).flatten

/-- Section 3 (R323): per port its role, its failed lanes, whether it is down, and its Sage core's EVQ. -/
def State.portSummary (s : State) : List Byte :=
  ((List.range 48).map fun p =>
    let x := s.port p
    let g := s.sageAt (sageOfPort p)
    dwords [(isFabricPort p).toNat, x.failed.toNat, (g.pdown.getLsbD (p % 6)).toNat, g.evq.toNat]).flatten

/-- Section 4 (R323): errors by unit, HOSTREJ, dropped notifies, CFENCE, absent expanders and stacks, time synchronisation; then what other rules count
here: dropped arrivals (R379), preemptions (R287), failed Sage cores, whose ports report LDOWN with INFO 3 (R280), and dropped packets (log 15). -/
def State.errorSummary (s : State) : List Byte :=
  let units := (List.range 10).map (· + 1)
  let n := fun (k : Nat) => s.counters.get 0 k
  dwords (units.map (fun u => n (keyCorrectable u)) ++ units.map (fun u => n (keyUncorrectable u)) ++
    [n keyHostRej, n keyNotifyDrop, s.cfence.toNat, maskOf 4 s.expanderAbsent, maskOf 8 s.stackAbsent,
      n keyUnsync, n keyArrivalDrop, n keyPreempt, maskOf 8 fun g => (s.sageAt g).failed, n keyPacketDrop])

/-- Section 5 (R323): the boot journal, the entries of each unit of each step in the order they were written. -/
def State.bootSummary (s : State) : List Byte :=
  (s.bootLog.cells.map fun e => (e.2.reverse.map fun b => dwords [e.1, b.state, b.alt.toNat]).flatten).flatten

/-- The summary (R323): a header of 256 bytes, then the sections (log 15). -/
def State.summary (s : State) : List Byte :=
  let secs := [s.queueSummary, s.launchSummary, s.rootSummary, s.portSummary, s.errorSummary, s.bootSummary]
  let place := fun (i : Nat) => 256 + ((secs.take i).map List.length).foldl (· + ·) 0
  let entries := secs.zipIdx.map fun e => [(place e.2, 32), (e.1.length, 32), (s.dcc, 64)]
  bytesOfNat 256 (packFields ([(0x4E374453, 32), (place 6, 32), (0, 64)] ++ entries.flatten)) ++ secs.flatten

/-- DEVCMD written (R5, R322, R323): GO starts a summary into the buffer at ADDR; a command while BUSY is ignored and noted, and ADDR then stays; a
buffer too small or an ADDR that is invalid is refused. -/
def State.writeDevcmd (s : State) (v : DWord) : State :=
  let old := s.devcmd
  let reg := (v &&& 0x000007FFFFFFFFC0) ||| (old &&& 0xC &&& ~~~v)
  if old.getLsbD 0 then { s with devcmd := if v.getLsbD 1 then (old &&& ~~~(v &&& 0xC)) ||| 4 else reg ||| 1 }
  else
    if !v.getLsbD 1 then { s with devcmd := reg }
    else
      let a := (v.extractLsb' 6 37).toNat * 64
      let bs := s.summary
      if s.offered a bs.length ∧ bs.length ≤ s.homeRead a 8 then { s.setHomeBytes a bs with devcmd := reg ||| 1 }
      else { s with devcmd := reg ||| 8 }

/-- DEVSUM (R322, R323): DEVCMD written with GO. -/
def execDevsum (addr : BitVec 37) (s : State) : Host.Outcome State Fault Refusal := .next (s.writeDevcmd (0#21 ++ addr ++ 2#6))

/-- DEVSUM_COMPLETE (R323): BUSY clears. -/
def execDevsumComplete (s : State) : Host.Outcome State Fault Refusal := .next { s with devcmd := s.devcmd &&& ~~~1 }

/-- The units a boot step works on one by one (R324): stacks, Sage cores, expanders, ports of the die. -/
def bootUnits : Nat → Nat
  | 2 => 4
  | 5 => 4
  | 6 => 2
  | 7 => 24
  | _ => 1

/-- Has a boot step an alternative path (R324)? -/
def bootHasAlt (step : Nat) : Bool := [1, 2, 4, 5, 8].contains step

/-- May a boot step be skipped (R324)? -/
def bootMaySkip (step : Nat) : Bool := !([1, 4, 8].contains step)

/-- How a boot step is taken at a start: by its main path, its alternative, not at all, or never again (R324). -/
inductive BootPath where
  | main | alt | skip | stay
deriving DecidableEq, Repr

/-- The path of a step by its last entry; a STARTED entry counts as FAILED (R324). -/
def bootPath (step : Nat) : Option BootEntry → BootPath
  | none => .main
  | some e =>
    if e.state = 3 ∨ e.state = 1 then
      if !e.alt && bootHasAlt step then .alt else if bootMaySkip step then .skip else .stay
    else .main

/-- Is a firmware image accepted (R325): both signatures verify, and its security version is not below the fused counter? -/
def State.imageOk (s : State) (k : Nat) : Bool :=
  Config.verifies (2 * k) && Config.verifies (2 * k + 1) && decide (s.rollback ≤ Config.imageVersion k)

/-- Does an attempt at a step succeed (R324, R325)? Counting from 0 always does. -/
def State.bootSucceeds (s : State) (key step : Nat) (alt : Bool) : Bool :=
  (step = 8 && alt) ||
    (Config.bootWorks key (2 * s.steps + alt.toNat) && (!([1, 4, 5].contains step) || s.imageOk (2 * step + alt.toNat)))

/-- A Sage core with its firmware, started (R275, R324). -/
def Sage.boot (x : Sage) : Sage :=
  { x with running := true, stopped := false, pc := 0, imem := Memory.setBytes .empty 0 ((List.range 65536).map Config.firmware) }

/-- A port that stays down after boot (R24, R324). -/
def State.portAbsent (s : State) (p : Nat) : State :=
  let s := s.setPort p { s.port p with down := true, escape := [] }
  let g := sageOfPort p
  s.setSageAt g { s.sageAt g with pdown := (s.sageAt g).pdown ||| (1 <<< (p % 6)) }

/-- The routing tables of a die's Sage cores loaded (R272, R324). -/
def State.loadRouting (s : State) (die : Nat) : State :=
  (List.range 4).foldl (fun s i =>
    let g := 4 * die + i
    s.setSageAt g { s.sageAt g with routes := (List.range 1058).foldl (fun t n => t.put n (Config.routing g n)) .empty }) s

/-- A service core with the service kernel loaded, started (R18, R324); what the kernel's image holds is not given. -/
def State.startService (s : State) (slice : Nat) : State :=
  let x := s.slice slice
  s.setSlice slice { x with service := { x.service with running := true } }

/-- What a step that is done brings about (R324). -/
def State.bootDone (s : State) (die step unit : Nat) (alt : Bool) : State :=
  match step with
  | 4 => (List.range 8).foldl (fun s i => s.startService (8 * die + i)) s
  | 5 => s.setSageAt (4 * die + unit) (s.sageAt (4 * die + unit)).boot
  | 8 =>
    if s.booted.cells.any Prod.snd ∨ s.cores.values.any Core.busy then s
    else if alt then s.count keyUnsync
    else { s with dcc := s.dcc + (Config.free s.steps).toNat }
  | 9 => { s.loadRouting die with node := if Config.node.toNat ≤ 1057 then Config.node else 0x7FF }
  | _ => s

/-- The ways that failed the test of step 3 are disabled (R31, R324): which they are is not given. -/
def State.disableWays (s : State) (die : Nat) : State :=
  (List.range 8).foldl (fun s i =>
    s.failWays (8 * die + i) ((Config.free (16 * s.steps + i)).extractLsb' 0 16)) s

/-- What skipping a step brings about (R324): failed ways are disabled, a Sage core's ports or a port stay down. An absent expander or stack offers
nothing, which `State.offered` reads from the journal. -/
def State.bootSkip (s : State) (die step unit : Nat) : State :=
  match step with
  | 3 => s.disableWays die
  | 5 => (List.range 6).foldl (fun s j => s.portAbsent (24 * die + 6 * unit + j)) s
  | 7 => s.portAbsent (24 * die + unit)
  | _ => s

/-- A journal entry written (R324): DONE by the main path clears the history. -/
def State.bootEntry (s : State) (key state : Nat) (alt : Bool) : State :=
  { s with bootLog := s.bootLog.put key (⟨state, alt⟩ :: if state = 2 ∧ !alt then [] else s.bootLog.get [] key) }

/-- One unit of one step; whether boot goes on (R324). STARTED is written first, and an attempt that is cut off leaves it so. -/
def State.bootUnit (s : State) (die step unit : Nat) : State × Bool :=
  let key := bootKey die step unit
  let attempt := fun (alt : Bool) =>
    let s := s.bootEntry key 1 alt
    if Config.bootCut key s.steps then (s, false)
    else if s.bootSucceeds key step alt then ((s.bootEntry key 2 alt).bootDone die step unit alt, true) else (s.bootEntry key 3 alt, false)
  match bootPath step (s.bootLast key) with
  | .main => attempt false
  | .alt => attempt true
  | .skip => (((s.bootEntry key 1 false).bootEntry key 4 false).bootSkip die step unit, true)
  | .stay => (s, false)

/-- Steps in turn, until one fails. -/
def State.bootSteps (s : State) (die : Nat) : List (Nat × Nat) → State
  | [] => { s with booted := s.booted.put die true }
  | (k, u) :: r =>
    match s.bootUnit die k u with
    | (s, true) => s.bootSteps die r
    | (s, false) => s

/-- BOOT (R324): a start of a die that has not booted. -/
def execBoot (die : Nat) (s : State) : Host.Outcome State Fault Refusal :=
  .next (
    if 2 ≤ die ∨ s.booted.get false die then s
    else s.bootSteps die ((List.range 9).map fun k => (List.range (bootUnits (k + 1))).map fun u => (k + 1, u)).flatten)

/-- The measurements (R325): the digests of the firmware images that boot has started, of either die (log 25). -/
def State.measurements (s : State) : List (List Byte) :=
  ([0, 1].map fun die => ([1, 4, 5].map fun step => (List.range (bootUnits step)).filterMap fun u =>
    match s.bootLast (bootKey die step u) with
    | some e => if e.state = 2 then some (Config.digest (2 * step + e.alt.toNat)) else none
    | none => none).flatten).flatten

/-- A response signed under both algorithms (R325): the measurements or the identity certificate chain, the ECDSA signature, and the LMS signature in
OpaqueData. -/
def State.signed (s : State) (challenge : Bool) (request : List Byte) : State :=
  s.respond (.spdm challenge request (if challenge then [] else s.measurements) (if challenge then Config.certificates else []) ((List.range 96).map (Config.signature (2 * s.steps))) ((List.range 1772).map (Config.signature (2 * s.steps + 1))))

/-- GET_MEASUREMENTS (R325). -/
def execGetMeasurements (request : List (BitVec 8)) (s : State) : Host.Outcome State Fault Refusal := .next (s.signed false request)

/-- CHALLENGE (R325). -/
def execChallenge (request : List (BitVec 8)) (s : State) : Host.Outcome State Fault Refusal := .next (s.signed true request)

end Sys2Proof.Machine
end

