-- ==== Sys2Proof/Machine/Debug.lean ====
section
/-!
DEFINITION. The debugger's steps: the execute-word register (R330), halts (R331), views (R332), Huazu (R333, R334), samples (R335); and the
control registers outside the CSR numbers (R5, R6).
-/

namespace Sys2Proof.Machine

/-- DXW written (R5, R330): WORD and CLUS replaced, ERR cleared by a 1; GO starts the word where the task is suspended. The word that a GO started is
kept apart, so that a later write does not change it; a GO while it executes is ignored (DESIGN CHOICE, log 53). -/
def State.writeDxw (s : State) (n : Nat) (v : DWord) : State :=
  let c := s.coreAt n
  let busy := c.dxw.getLsbD 34
  let c := { c with dxw := (v &&& 0x3000000000) ||| (v &&& 0xFFFFFFFF) ||| (c.dxw &&& 0x800000000 &&& ~~~v) ||| (c.dxw &&& 0x400000000) }
  s.setCoreAt n
    (if v.getLsbD 33 && c.suspended && !busy then
      { c with dxw := c.dxw ||| 0x400000000, dxwWord := v.extractLsb' 0 32, dxwCluster := v.extractLsb' 36 2 }
    else c)

/-- EXECUTE_WORD (R330): DXW written with GO; the cluster's next step executes the word. -/
def execExecuteWord (core : Nat) (k : Cluster) (w : BitVec 32) (s : State) : Host.Outcome State Fault Refusal :=
  .next (s.writeDxw core (0#26 ++ BitVec.ofNat 2 (clusterIndex k) ++ 2#4 ++ w))

/-- May a debug halt of a core begin (R331)? -/
def Core.mayHalt (c : Core) : Bool := c.busy && c.ctx.dbg && c.stop.isNone && c.save.isNone && !c.finishing

/-- A debug halt begins (R331): a cluster with an active loop must reach its boundary, the others stop at once. -/
def State.startHalt (s : State) (n : Nat) : State :=
  let c := s.coreAt n
  if c.halting then s
  else
    let d := allClusters.foldl (fun d k =>
      let x := d.cl k
      d.setCl k { x with haltDue := x.running && (x.loop0.act || x.loop1.act) }) { c with halting := true, haltAsked := s.dcc, haltLate := 0 }
    (s.setCoreAt n d).landHalt n

/-- Is a core halted: suspended with a task whose context has DBG = 1 (R331, R334)? -/
def Core.halted (c : Core) : Bool := c.suspended && c.ctx.dbg

/-- DEBUG_HALT (R331): of a task whose context has DBG = 1, which stays as it is where it is halted; any other halt is refused. -/
def execDebugHalt (core : Nat) (s : State) : Host.Outcome State Fault Refusal :=
  .next (if (s.coreAt core).halted then s else if (s.coreAt core).mayHalt then s.startHalt core else s.respond .refused)

/-- HALT_BOUNDARY_TIMEOUT (R331): after 65,536 cycles a cluster stops at its next instruction boundary, and TRAPV tells it. -/
def execHaltBoundaryTimeout (core : Nat) (k : Cluster) (s : State) : Host.Outcome State Fault Refusal :=
  .next (
    let c := s.coreAt core
    if c.halting ∧ (c.cl k).haltDue ∧ c.haltAsked + 65536 ≤ s.dcc then
      (s.setCoreAt core (({ c with haltLate := c.haltLate ||| (1 <<< clusterIndex k) } : Core).setCl k { c.cl k with haltDue := false })).landHalt core
    else s)

/-- DEBUG_VIEW_ACCESS (R332): a read or a write of the view of a suspended core; of any other it is refused. -/
def execDebugViewAccess (core offset : Nat) (write : Option (List (BitVec 8))) (len : Nat) (s : State) :
    Host.Outcome State Fault Refusal :=
  .next (match write with
    | none => match s.readView core offset len with
      | some bs => s.respond (.view bs)
      | none => s.respond .refused
    | some bs => match s.writeView core offset bs with
      | some t => t
      | none => s.respond .refused)

/-- The bytes of a Huazu message (R333): a header of 64 bytes, then its data. -/
def huazuBytes (h : Huazu) : List Byte :=
  bytesOfNat 64 (packFields [(h.op.toNat, 4), (h.seq.toNat, 16), (h.orig.toNat, 11), (h.node.toNat, 11), (h.core.toNat, 6), (h.space.toNat, 8),
    (h.status.toNat, 8), (h.offset.toNat, 32), (h.len.toNat, 32)]) ++ h.data

/-- A Huazu message goes out (R265, R285, R333): one packet with OPC 9, a reply to the requesting node, a request to its target. -/
def State.sendHuazu (s : State) (h : Huazu) : State :=
  s.reply (if h.op = 8 then h.orig else h.node).toNat (s.debugPacket (huazuBytes h))

/-- The reply to a request (R333): to this device's own host, or to the requesting node. -/
def State.replyHuazu (s : State) (h : Huazu) (status : BitVec 8) (data : List Byte) : State :=
  let r := { h with op := 8, status := status, len := BitVec.ofNat 32 data.length, data := data }
  if h.orig = s.node then s.respond (.huazu r) else s.sendHuazu r

/-- A request of operation `op` (R333): performed and answered at its target; the debug master alone accepts its own host's, and forwards those to
other nodes; a message of another operation is dropped. -/
def State.huazuRequest (s : State) (h : Huazu) (op : BitVec 4) (perform : State → State × BitVec 8 × List Byte) : State :=
  if h.op ≠ op ∨ (h.orig = s.node ∧ Config.debugMaster = false) then s
  else if h.node = s.node then
    let (t, status, data) := perform s
    t.replyHuazu h status data
  else if h.orig = s.node then { s.sendHuazu h with huazu := s.huazu ++ [(h, s.dcc)] }
  else s

/-- HUAZU_HALT (R331, R333, R334): a halted core stays so; a halt that is refused answers 1. -/
def execHuazuHalt (h : Huazu) (s : State) : Host.Outcome State Fault Refusal :=
  .next (s.huazuRequest h 1 fun s =>
    let n := h.core.toNat
    if (s.coreAt n).halted then (s, 0, [])
    else if (s.coreAt n).mayHalt then (s.startHalt n, 0, [])
    else (s, 1, []))

/-- HUAZU_RESUME (R333, R334): of a debug stop; a running task stays so. -/
def execHuazuResume (h : Huazu) (s : State) : Host.Outcome State Fault Refusal :=
  .next (s.huazuRequest h 2 fun s =>
    let n := h.core.toNat
    let c := s.coreAt n
    match c.stop with
    | none => if c.busy then (s, 0, []) else (s, 1, [])
    | some st => if st.debug && c.mayResume then (s.resumeTask n, 0, []) else (s, 1, []))

/-- Where a range of a space of R333 lies in device memory: space 1 by address, space 2 in the buffer of the device summary. -/
def State.huazuRange (s : State) (h : Huazu) (len : Nat) : Option Nat :=
  let a := match h.space.toNat with
    | 1 => some h.offset.toNat
    | 2 => some ((s.devcmd.extractLsb' 6 37).toNat * 64 + h.offset.toNat)
    | _ => none
  match a with
  | some a => if s.offered a len then some a else none
  | none => none

/-- HUAZU_READ (R332, R333). -/
def execHuazuRead (h : Huazu) (s : State) : Host.Outcome State Fault Refusal :=
  .next (s.huazuRequest h 3 fun s =>
    let len := h.len.toNat
    if 960 < len then (s, 3, [])
    else if h.space = 0 then
      if !(s.coreAt h.core.toNat).suspended then (s, 1, [])
      else match s.readView h.core.toNat h.offset.toNat len with
        | some bs => (s, 0, bs)
        | none => (s, 3, [])
    else match s.huazuRange h len with
      | some a => (s, 0, s.homeBytes a len)
      | none => (s, 3, []))

/-- HUAZU_WRITE (R332, R333). -/
def execHuazuWrite (h : Huazu) (s : State) : Host.Outcome State Fault Refusal :=
  .next (s.huazuRequest h 4 fun s =>
    let len := h.len.toNat
    if 960 < len ∨ h.data.length < len then (s, 3, [])
    else if h.space = 0 then
      if !(s.coreAt h.core.toNat).suspended then (s, 1, [])
      else match s.writeView h.core.toNat h.offset.toNat (h.data.take len) with
        | some t => (t, 0, [])
        | none => (s, 3, [])
    else match s.huazuRange h len with
      | some a => (s.setHomeBytes a (h.data.take len), 0, [])
      | none => (s, 3, []))

/-- HUAZU_DEVSUM (R322, R333): a summary into the buffer that DEVCMD names; one that cannot start answers 1. -/
def execHuazuDevsum (h : Huazu) (s : State) : Host.Outcome State Fault Refusal :=
  .next (s.huazuRequest h 5 fun s =>
    let busy := s.devcmd.getLsbD 0
    let t := s.writeDevcmd ((s.devcmd &&& 0x000007FFFFFFFFC0) ||| 2)
    (t, if !busy && t.devcmd.getLsbD 0 then 0 else 1, []))

/-- HUAZU_REPLY (R333, R334): at the master, matched by SEQ; a duplicate is discarded. -/
def execHuazuReply (h : Huazu) (s : State) : Host.Outcome State Fault Refusal :=
  .next (
    if h.op = 8 ∧ h.orig = s.node ∧ (s.huazu.any fun e => e.1.seq = h.seq) then
      ({ s with huazu := s.huazu.filter fun e => e.1.seq ≠ h.seq } : State).respond (.huazu h)
    else s)

/-- HUAZU_RESEND (R334): a request with no reply after 2 ms goes out again with the same SEQ. -/
def execHuazuResend (seq : BitVec 16) (s : State) : Host.Outcome State Fault Refusal :=
  .next (match s.huazu.find? fun e => e.1.seq = seq && decide (e.2 + 2000000 ≤ s.dcc) with
    | none => s
    | some (h, _) => { s.sendHuazu h with huazu := s.huazu.map fun e => if e.1.seq = seq then (e.1, s.dcc) else e })

/-- SAMPLE (R335): every 2^(8 + SPER) cycles, where SEN is set. -/
def execSample (core : Nat) (s : State) : Host.Outcome State Fault Refusal :=
  .next (
    let c := s.coreAt core
    if c.dctl.getLsbD 1 ∧ c.sampledAt + 2 ^ (8 + (c.dctl.extractLsb' 4 4).toNat) ≤ s.dcc then
      (s.setCoreAt core { c with sampledAt := s.dcc }).logSample core
    else s)

/-- The fields that a write replaces, and the rest as it was (R5, R6). -/
def replaced {w : Nat} (mask old v : BitVec w) : BitVec w := (v &&& mask) ||| (old &&& ~~~mask)

/-- SLOTCTL written (R68): a map, an unmap, or a new DESCA. -/
def State.writeSlotctl (s : State) (slot : Nat) (v : DWord) : State :=
  if 128 ≤ slot then s
  else match (v.extractLsb' 2 2).toNat with
    | 1 => s.mapCommand slot (v.toNat / 64 * 64)
    | 2 => s.unmapCommand slot (v.toNat / 64 * 64)
    | _ => s.setQueue slot { s.queue slot with desca := v.toNat / 64 * 64 }

/-- Has step 4 of a die's boot loaded the service kernel (R295, R324)? -/
def State.kernelLoaded (s : State) (die : Nat) : Bool := s.bootIs (bootKey die 4 0) 2

/-- A context descriptor set (R317): the job it names is the context's, and no other is any more (R266, R311). A descriptor of zeros names none. -/
def State.setContext (s : State) (ctx : Nat) (v : BitVec 256) : State :=
  let s := { s with contexts := s.contexts.put ctx ((v.setWidth 512 &&& (BitVec.allOnes 64 ++ 0#8 ++ BitVec.allOnes 56 ++ 0#48 ++ 0xFFC7#16).setWidth 512)) }
  let jobs : Tab (BitVec 16) := ⟨s.jobs.cells.filter fun e => e.2 ≠ BitVec.ofNat 16 ctx⟩
  { s with jobs := if v = 0 then jobs else jobs.put (v.extractLsb' 96 24).toNat (BitVec.ofNat 16 ctx) }

/-- A partition descriptor set (R316). -/
def State.setPartition (s : State) (part : Nat) (mask v : BitVec 512) : State :=
  { s with partitions := s.partitions.put part ((v &&& mask) ||| (s.partitions.get 0 part &&& ~~~mask)) }

/-- The reserved bits of a routing entry (R272). -/
def routeReserved : BitVec 256 :=
  BitVec.ofNat 256 (packFields ([(0, 18), (0x3FFF, 14)] ++ (List.range 8).map (fun _ => (0xFF0000, 24)) ++ [(0xFFFFFFFF, 32)]))

/-- A routing entry of a Sage core's copy set, whole (R272, R282). -/
def State.setRoute (s : State) (g node : Nat) (v : BitVec 256) : State :=
  if 8 ≤ g ∨ 1058 ≤ node then s
  else s.setSageAt g { s.sageAt g with routes := (s.sageAt g).routes.put node (v &&& ~~~routeReserved) }

/-- A record installed as the doorbell of a slot, or no longer (R69, R152): bit 7 of `v` is 1 while it is one. -/
def State.setDoorbell (s : State) (ctx : BitVec 16) (index : BitVec 20) (v : BitVec 256) : State :=
  let a := recordAddr (s.rootOf ctx) index.toNat
  { s with doorbells := if v.getLsbD 7 then s.doorbells.put a (v.extractLsb' 0 7).toNat else s.doorbells.erase a }

/-- What the service kernel sets of its own (R19, R31, R69, R173, R272, R316, R317, R321; log 64); nothing for a control register. -/
def State.kernelSets (s : State) (r : CtlReg) (v : BitVec 256) : Option State :=
  let n := (v.extractLsb' 0 16).toNat
  match r with
  | .context ctx => some (if ctx < 65536 then s.setContext ctx v else s)
  | .partition p => some (s.setPartition p (0#320 ++ BitVec.allOnes 128 ++ 0#48 ++ BitVec.allOnes 16) (v.setWidth 512))
  | .partitionFsdl p => some (s.setPartition p (0#304 ++ BitVec.allOnes 16 ++ 0#192) ((v.setWidth 512) <<< 192))
  | .versionLimit die => some (s.divided { s with vresLimit := s.vresLimit.put die (min n 64) } die)
  | .shadowSlot die slot =>
    some (if slot < 2 then s.divided { s with shadowSlots := s.shadowSlots.set false (2 * die + slot) (v.getLsbD 0) } die else s)
  | .metaWays k =>
    some (if k < 16 ∧ n ≤ 4 then s.divided (s.setSlice k { s.slice k with metaWays := n }) (k / 8) else s)
  | .failedWays k => some (if k < 16 then s.failWays k (v.extractLsb' 0 16) else s)
  | .doorbell ctx index => some (s.setDoorbell ctx index v)
  | .route g node => some (s.setRoute g node v)
  | .journal k => some (if k < 16 then s.setSlice k ((s.slice k).carryEntry v) else s)
  | _ => none

/-- A control register written (R5, R6), or something the service kernel sets of its own. -/
def State.writeControl (s : State) (r : CtlReg) (v : BitVec 256) : State :=
  let w : DWord := v.extractLsb' 0 64
  match r with
  | .dxw n => s.writeDxw n w
  | .dctl n =>
    let c := s.coreAt n
    s.setCoreAt n { c with dctl := replaced 0xFFFFFFFF000000FE c.dctl w }
  | .dbuf n =>
    let c := s.coreAt n
    s.setCoreAt n { c with dbuf := replaced (0#32 ++ 0xFFFFFFFF#32 ++ 0#80 ++ 0xFFFFFFFFF#36 ++ 0#12) c.dbuf (v.setWidth 192) }
  | .dwp k => if k < 4 then { s with dwp := s.dwp.put k (replaced 0xFFFFC7FFFFFFFFF0 (s.dwp.get 0 k) w) } else s
  | .frb k =>
    if 16 ≤ k ∨ !s.kernelLoaded (k / 8) then s
    else s.setSlice k { s.slice k with frb := replaced 0x800007FFFFFFFFC0 (s.slice k).frb w }
  | .tinv k => s.writeTinv k w
  | .hbias k => s.writeHbias k w
  | .slotctl k => s.writeSlotctl k w
  | .devcmd => s.writeDevcmd w
  | .context _ | .partition _ | .partitionFsdl _ | .versionLimit _ | .shadowSlot _ _ | .metaWays _ | .failedWays _ | .doorbell _ _ | .route _ _ | .journal _ =>
    (s.kernelSets r v).getD s

/-- CONTROL_REGISTER_WRITE (R5, R6). -/
def execControlRegisterWrite (r : CtlReg) (v : BitVec 256) (s : State) : Host.Outcome State Fault Refusal := .next (s.writeControl r v)

end Sys2Proof.Machine
end

