-- ==== Sys2Proof/Machine/Fabric.lean ====
section
/-!
DEFINITION. The receiving side of the fabric (R266 to R270, R382), the answers to what was sent (R256, R261, R264, R265, R277), and packets in
transit, lanes and ports (R263, R274, R283).
-/

namespace Sys2Proof.Machine

/-- Are these transmissions of one packet (R265)? -/
def samePacket (p q : Packet) : Bool := p.srcn = q.srcn && p.pdc = q.pdc && p.psn = q.psn

/-- Has this device taken a packet of this source, context and number for good (R265)? -/
def State.hasTaken (s : State) (srcn : BitVec 11) (pdc : Nat) (psn : BitVec 32) : Bool :=
  s.replies.any fun e => e.packet.srcn = srcn && e.packet.pdc = pdc && e.packet.psn = psn && decide (e.answer ≠ .notReady) && decide (e.answer ≠ .nack)

/-- The selective bitmap of an acknowledgement (R264): bit i tells of packet `psn` - 1 - i (DEDUCED, log 73). -/
def State.selective (s : State) (p : Packet) : BitVec 64 :=
  BitVec.ofNat 64 ((List.range 64).foldr (fun i v => (s.hasTaken p.srcn p.pdc (p.psn - 1 - BitVec.ofNat 32 i)).toNat + 2 * v) 0)

/-- The state with a packet answered (R264, R265): the acknowledgement echoes its congestion mark. -/
def State.answer (s : State) (p : Packet) (a : Answer) : State := { s with replies := s.replies ++ [⟨p, a, s.selective p, p.ecn⟩] }

/-- The answer already given to a packet that took effect or failed: a duplicate has no further effect (R265). A load request, which is idempotent, is
served again (R264). -/
def State.answered (s : State) (p : Packet) : Option Answer :=
  if p.opc = 3 then none
  else (s.replies.find? fun e => samePacket e.packet p && decide (e.answer ≠ .notReady) && decide (e.answer ≠ .nack)).map Reply.answer

/-- A packet of opcode `opc` that arrives at a port: dropped and counted with an opcode of 10 to 15, lost on a port that is down, answered again as
a duplicate, answered as a failure where its job is unknown, or handled in its job's context (R265, R266, R283). -/
def State.arrival (s : State) (p : Packet) (opc : Nat) (f : BitVec 16 → State) : State :=
  if (s.port p.port).down then s
  else if 10 ≤ p.opc.toNat then s.count keyPacketDrop
  else if p.opc.toNat ≠ opc then s
  else
    match s.answered p with
    | some a => s.answer p a
    | none =>
      match s.jobs.find p.job.toNat with
      | none => s.answer p .noJob
      | some ctx => f ctx

/-- The partition of a context (R317). -/
def State.partOf (s : State) (ctx : BitVec 16) : BitVec 16 := (s.contexts.get 0 ctx.toNat).extractLsb' 64 16

/-- The race ring of a context's partition (R216, R316). -/
def State.raceRing (s : State) (ctx : BitVec 16) : DWord := ringOf (s.partitions.get 0 (s.partOf ctx).toNat)

/-- The port group as a deliverer for a packet in a context (R198, R202, R221). -/
def State.portParty (s : State) (p : Packet) (ctx : BitVec 16) : Deliverer :=
  let me := 0x140 + p.port
  { viewer := s.schedViewer ctx
    who :=
      { agent := me, ident := me, report := me, own := portGroup, clk := s.clockOf portGroup, scope := 5, write := false, acq := p.acq,
        rel := p.rel, sync := false, eng := false, checked := true, precise := false, rpt := true, stops := false, acc := 13, handle := 0,
        coord := [], pc := 0, ctx := ctx, launch := 0, ring := s.raceRing ctx }
    vector := s.vectorOf portGroup
    bitAgent := me
    issuer := none }

/-- Has a packet been held for its metadata's unit for 10 ms (R211)? -/
def State.heldLong (s : State) (p : Packet) : Bool :=
  s.held.any fun e => e.1 = p.pdc && e.2.1 = p.psn && decide (e.2.2 + 10000000 ≤ s.dcc)

/-- A packet held back by a metadata's unit of the object of `unit`: noted and signalled once (R211); or by something else. -/
def State.hold (s : State) (p : Packet) (v : Viewer) (unit : Option (BitVec 32)) : State :=
  match unit with
  | none => s
  | some h =>
    if s.held.any fun e => e.1 = p.pdc && e.2.1 = p.psn then s
    else ({ s with held := s.held ++ [(p.pdc, p.psn, s.dcc)] }).signalMeta v h

/-- A packet answered (R265). -/
def State.settleWith (s : State) (p : Packet) (a : Answer) : State :=
  ({ s with held := s.held.filter fun e => e.1 ≠ p.pdc || e.2.1 ≠ p.psn }).answer p a

/-- A packet that meets a unit of the object of `h` that is not present answered not ready; the instance that homes the unit's table is signalled (R157, R256). -/
def State.notReady (s : State) (p : Packet) (v : Viewer) (h : BitVec 32) : State := (s.signalUnit v h).settleWith p .notReady

/-- A packet that fails answered (R265, R266), or one that must wait for a unit. -/
def State.refusePacket (s : State) (p : Packet) (v : Viewer) (h : BitVec 32) (a : Answer) : State :=
  if a = .notReady then s.notReady p v h else s.settleWith p a

/-- Scratch records belong to a core (R147): a port finds none. -/
def scratchHandle (h : BitVec 32) : Bool := decide (0xFFF00 ≤ handleIndex h)

/-- The record of a handle as a port translates it (R154, R266). -/
def State.portLookup (s : State) (v : Viewer) (h : BitVec 32) (acc : Nat) : Except Hold ObjRec :=
  if scratchHandle h then .error (xlateTrap 0x11 h 0 acc) else s.lookup v h acc

/-- The elements of a placing packet (R266, R267): U, coordinates and code. -/
def packetElements (p : Packet) (r : ObjRec) (eb : Nat) : List (Nat × List Int × Nat) :=
  let origin := (List.range 4).map fun k => (p.coord.extractLsb' (32 * k) 32).toInt
  let all := natOfBytes p.payload
  (List.range p.nelem.toNat).map fun i => (p.uoff.toNat + i, r.uCoord origin (p.uoff.toNat + i), bitsAt all (eb * i) eb)

/-- The record into which a packet places data (R152, R154): a doorbell object takes notify writes alone. -/
def State.placeRecord (s : State) (v : Viewer) (h : BitVec 32) : Except Hold ObjRec := do
  let r ← s.portLookup v h 1
  if r.kind = 2 then .error (xlateTrap 0x14 h 0 1) else .ok r

/-- The deliveries of a packet's elements, by the receiver's own chunks (R251, R267). -/
def packetDeliveries (p : Packet) (shd : Bool) (r : ObjRec) (inside : List (Nat × List Int × Nat)) : List Delivery :=
  let chunkOf := fun (e : Nat × List Int × Nat) => r.chunkIndex (natCoords e.2.1)
  ((inside.map chunkOf).eraseDups).map fun g =>
    { opc := p.opc.toNat, handle := p.handle, aux := p.aux, shadow := shd, nc := p.nc.toNat, rank := p.rank.toNat, chunk := g,
      elements := inside.filter fun e => decide (chunkOf e = g) }

/-- Why a packet's deliveries cannot all be done now, or not at all. -/
def State.deliveryStop (s : State) (d : Deliverer) (r : ObjRec) (acc : Nat) (late : Bool) (xs : List Delivery) : Option Wrote :=
  xs.findSome? fun x => match s.deliver d r x acc late 0 with
    | (.ok _ _ _ _, _) => none
    | (w, _) => some w

/-- A packet's deliveries done one after another: the state, and the first answer other than done. -/
def State.deliverAll (s : State) (d : Deliverer) (r : ObjRec) (acc : Nat) (late : Bool) : List Delivery → State × Option Answer
  | [] => (s, none)
  | x :: xs =>
    match s.deliver d r x acc late 0 with
    | (.ok s _ _ _, a) =>
      let (s, b) := s.deliverAll d r acc late xs
      (s, a.or b)
    | _ => s.deliverAll d r acc late xs

/-- A placing packet in a context (R158, R267 to R269): PLACE, REDU or REDO. -/
def State.placePacket (s : State) (p : Packet) (shd : Bool) (ctx : BitVec 16) : State :=
  let d := s.portParty p ctx
  match s.placeRecord d.viewer p.handle with
  | .error e => s.refusePacket p d.viewer p.handle e.answer
  | .ok r =>
    let opc := p.opc.toNat
    let es := packetElements p r (if opc = 0 then r.eb else 32)
    let inside := es.filter fun e => (r.outside e.2.1).isNone
    if (inside.length < es.length) ∧ (r.padp ≠ 1 ∨ opc = 1) then s.settleWith p .oshape
    else if opc = 2 ∧ scratchHandle p.aux then s.settleWith p (.fault 0x11 0 p.aux)
    else
      let xs := packetDeliveries p shd r inside
      let acc := if opc = 1 then 14 else 13
      match s.deliveryStop d r acc (s.heldLong p) xs with
      | some (.held u) => s.hold p d.viewer u
      | some (.absent h) => s.notReady p d.viewer h
      | some (.answer a) => s.settleWith p a
      | _ =>
        let (s, a) := s.deliverAll d r acc (s.heldLong p) xs
        s.settleWith p (a.getD .done)

/-- PLACE (R267). The header of R266 has no field for SHD: whether the sender's command set it comes as an operand (DESIGN CHOICE, log 97). -/
def execPlace (p : Packet) (shd : Bool) (s : State) : Host.Outcome State Fault Refusal := .next (s.arrival p 0 (s.placePacket p shd))

/-- REDU (R268). -/
def execRedu (p : Packet) (shd : Bool) (s : State) : Host.Outcome State Fault Refusal := .next (s.arrival p 1 (s.placePacket p shd))

/-- REDO (R269). -/
def execRedo (p : Packet) (shd : Bool) (s : State) : Host.Outcome State Fault Refusal := .next (s.arrival p 2 (s.placePacket p shd))

/-- The byte offset of a forwarded access (R266). -/
def packetOffset (p : Packet) : Nat := (p.coord.extractLsb' 0 64).toNat

/-- The record of a forwarded access (R154, R270): without a valid record of that index and generation, XMISS. -/
def State.forwardedRecord (s : State) (v : Viewer) (h : BitVec 32) (acc : Nat) : Except Answer ObjRec :=
  if scratchHandle h then .error (.fault 0x17 0 h)
  else
    match s.freshRecord v h acc with
    | .error _ => .error (.fault 0x17 0 h)
    | .ok r => if permitted r acc then .ok r else .error (.fault 0x14 0 h)

/-- Bytes `off` to `off + n - 1` of an object, at this node (R156, R163, R270). -/
def State.forwardedParts (s : State) (v : Viewer) (r : ObjRec) (h : BitVec 32) (acc off : Nat) : Nat → Except Answer (List Part)
  | 0 => .ok []
  | n + 1 =>
    match s.placeOf v r h acc [] off false with
    | .error (.fault _) => .error .notReady
    | .error e => .error e.answer
    | .ok (.remote _ _, _) => .error (.fault 0x12 11 h)
    | .ok (p, ru) =>
      match s.forwardedParts v r h acc (off + 1) n with
      | .error a => .error a
      | .ok ps => .ok (⟨p, off, 0, 8, ru⟩ :: ps)

/-- A forwarded access of `n` bytes that reaches its home: refused, held, or checked by Sorrel and then performed (R164, R199, R202, R221, R270). An acquire
that reads a byte of a map with a bit set joins as one of a cluster does (R203). -/
def State.performForwarded (s : State) (p : Packet) (ctx : BitVec 16) (acc code n : Nat) (f : State → List Part → State × Answer) : State :=
  let d := s.portParty p ctx
  let write := decide (code ≠ 12)
  match s.forwardedRecord d.viewer p.handle acc with
  | .error a => s.refusePacket p d.viewer p.handle a
  | .ok r =>
    match s.forwardedParts d.viewer r p.handle acc (packetOffset p) n with
    | .error a => s.refusePacket p d.viewer p.handle a
    | .ok ps =>
      if s.runHeld write ps then s
      else
        let coord := r.linear ((packetOffset p) * 8 / r.eb)
        match s.checkRun d r p.handle code write (p.acq || p.rel || decide (code = 14)) (s.heldLong p) coord ps with
        | .held m => s.hold p d.viewer (if m then some p.handle else none)
        | .ok s _ =>
          let s := (s.cacheUse d.viewer p.handle ps).watchRun d.who.report write ps
          let s := if p.acq && ps.any (s.readsMap 0) then s.joinMap portGroup else s
          let (s, a) := f s ps
          (if p.rel then s.tick portGroup else s).settleWith p a

/-- The elements of a forwarded store (R150, R270): its bytes, or, of an object of 4-bit elements, its nibbles from the one that UOFF tells (log 70). -/
def nibbleParts (p : Packet) (r : ObjRec) (ps : List Part) : List (Part × Nat) :=
  let all := natOfBytes p.payload
  if r.eb = 4 ∧ p.nelem ≠ 0 then
    (List.range p.nelem.toNat).filterMap fun i =>
      let bit := p.uoff.toNat + 4 * i
      (ps[bit / 8]?).map fun q => ({ q with bit := bit % 8, width := 4 }, all / 2 ^ bit % 16)
  else ps.zip (p.payload.map BitVec.toNat)

/-- A packet sent back with data: to the node of a request, with its context and tag (R266, R270). -/
def State.sendBack (s : State) (p : Packet) (opc : BitVec 4) (payload : List Byte) : State :=
  s.reply p.srcn.toNat { p with srcn := s.node, opc := opc, payload := payload }

/-- LOAD_REQUEST (R270): the bytes go back as load data (R264: idempotent, so a repeated request is served again). -/
def execLoadRequest (p : Packet) (len : Nat) (s : State) : Host.Outcome State Fault Refusal :=
  .next (s.arrival p 3 fun ctx =>
    s.performForwarded p ctx 0 12 (min len 512) fun s ps =>
      (s.sendBack p 4 (ps.map fun q => BitVec.ofNat 8 (s.elementAt (s.schedViewer ctx) q)), .done))

/-- The bytes that a forwarded store's payload has for an object (R264, R266): those of its NELEM elements, the rest only fills it up; without NELEM all. -/
def storeBytes (p : Packet) (r : ObjRec) : Nat :=
  if p.nelem = 0 then p.payload.length else min p.payload.length ((p.uoff.toNat % 8 + p.nelem.toNat * r.eb + 7) / 8)

/-- STORE (R270): performed at the home, never versioned (R186); a doubleword stored to a doorbell object is a notify write (R152). -/
def execStore (p : Packet) (s : State) : Host.Outcome State Fault Refusal :=
  .next (s.arrival p 5 fun ctx =>
    let v := s.schedViewer ctx
    let (bell, n) := match s.forwardedRecord v p.handle 1 with
      | .ok r => (decide (r.kind = 2), storeBytes p r)
      | .error _ => (false, p.payload.length)
    if bell then
      if n = 8 ∧ (packetOffset p) % 8 = 0 then
        let s := match s.doorbells.find (recordAddr v.root (handleIndex p.handle)) with
          | some slot => s.notify slot (BitVec.ofNat 64 (natOfBytes (p.payload.take 8)))
          | none => s.count keyNotifyDrop
        (if p.rel then s.tick portGroup else s).settleWith p .done
      else s.settleWith p (.fault 0x14 0 p.handle)
    else
      s.performForwarded p ctx 1 13 (min n 512) fun s ps =>
        (s.putRun v false (nibbleParts p (s.record v (handleIndex p.handle)) ps), .done))

/-- ATOMIC (R184, R270): the old value goes back. -/
def execAtomic (p : Packet) (op : AtomOp) (wide : Bool) (v cmp : BitVec 64) (s : State) : Host.Outcome State Fault Refusal :=
  .next (s.arrival p 6 fun ctx =>
    let n := if wide then 8 else 4
    s.performForwarded p ctx 2 14 n fun s ps =>
      let w := s.schedViewer ctx
      let old := natOfBytes (ps.map fun q => BitVec.ofNat 8 (s.elementAt w q))
      let new := atomicNew op wide old (v.toNat % 2 ^ (8 * n)) (cmp.toNat % 2 ^ (8 * n))
      let s := s.putRun w false (ps.zip ((bytesOfNat n new).map BitVec.toNat))
      (s.sendBack p 7 (bytesOfNat n old), .done))

/-- RARRIVE (R266, R382): coordinate 0 carries the launch, coordinate 1 the round, UOFF the core, AUX the barrier. -/
def execRarrive (p : Packet) (s : State) : Host.Outcome State Fault Refusal :=
  .next (s.arrival p 8 fun _ =>
    (s.remoteArrival p.port (p.uoff.toNat % 64) (p.aux.extractLsb' 0 4) (p.coord.extractLsb' 32 32) (p.coord.extractLsb' 0 32)).answer
      p .done)

/-- The free debug buffers of a Sage core (R275, R285). -/
def Sage.freeBuffers (x : Sage) : List Nat := (List.range 16).filter fun b => !x.dbgAlloc.has b

/-- DEBUG_FORWARDING (R277, R279, R285): the payload of a packet with OPC 9 goes into a free buffer and DEBUG is raised; without a free buffer or
with fewer than 25 free records it is left unacknowledged. -/
def execDebugForwarding (p : Packet) (s : State) : Host.Outcome State Fault Refusal :=
  .next (s.arrival p 9 fun _ =>
    let g := sageOfPort p.port
    let x := s.sageAt g
    match x.freeBuffers[Config.pick (8 * s.steps + 6) % x.freeBuffers.length]? with
    | none => s
    | some b =>
      if 1024 < x.evOcc + 25 then s
      else
        let x := { x with dmem := x.dmem.setBytes (0x8000 + 1024 * b) (p.payload.take 1024), dbgAlloc := x.dbgAlloc.put b true }
        ((s.setSageAt g x).raise g ⟨8, p.port, p.pdc % 16384, p.srcn.toNat, p.psn.toNat, b⟩).answer p .done)

/-- A packet sent from a delivery context and not yet settled. -/
def State.outPacket (s : State) (pdc : Nat) (psn : BitVec 32) : Option OutPacket := (s.pdc pdc).unacked.find? fun o => o.psn = psn

/-- A packet settled: no longer in flight (R281). -/
def State.dropPacket (s : State) (pdc : Nat) (o : OutPacket) : State :=
  let c := s.pdc pdc
  s.setPdc pdc { c with unacked := c.unacked.filter fun q => q.psn ≠ o.psn, inflight := if o.counted then c.inflight - o.size else c.inflight }

/-- A packet in flight replaced. -/
def State.putPacket (s : State) (pdc : Nat) (o : OutPacket) : State := s.setPdc pdc ((s.pdc pdc).putPacket o)

/-- The command a packet belongs to. -/
def State.commandOf (s : State) (o : OutPacket) : Option Command := (s.coreAt o.core).findCommand (BitVec.ofNat 16 o.owner)

/-- The member of a command that a packet serves (see `packetOwner`). -/
def OutPacket.member (o : OutPacket) : Nat := o.owner / 65536 % 256

/-- The chunk that a packet of a command serves. -/
def OutPacket.chunk (o : OutPacket) : Nat := o.owner / 2 ^ 24

/-- Is a packet, settled by now, the last that its member's chunk has out? A forwarded store's chunk ends with what is written here (R154). -/
def State.chunkEnded (s : State) (k : Command) (o : OutPacket) : Bool :=
  o.packet.opc ≠ 5 && (k.work.all fun w => decide (w.1 ≠ o.member) || decide (w.2.1 ≠ o.chunk)) &&
    s.pdcs.cells.all fun e => e.2.unacked.all fun q => decide (q.core ≠ o.core) || !q.isCommand || decide (q.owner ≠ o.owner)

/-- The bits that a packet has brought to its destination: those of a forwarded store are counted with the rest of its chunk (R254). -/
def OutPacket.bits (o : OutPacket) : Nat := if o.packet.opc = 5 then 0 else 8 * o.data

/-- A command with a packet's bytes written, its member's chunk finished where it was the last (R254, R332). -/
def State.wroteBy (s : State) (k : Command) (o : OutPacket) : Command :=
  let k := { k with bits := k.bits.set 0 o.member (k.bits.get 0 o.member + o.bits) }
  if s.chunkEnded k o then k.chunkFinished o.member else k

/-- A command's packet acknowledged: its bytes are written (R254, R265). -/
def State.commandAcked (s : State) (o : OutPacket) : State :=
  match s.commandOf o with
  | none => s
  | some k => s.putCommand o.core { s.wroteBy k o with unacked := k.unacked - 1, since := s.dcc }

/-- A command's packet failed (R255); without a usable map the elements of a placement or an unordered reduction are written all the same (R251). -/
def State.commandFailed (s : State) (o : OutPacket) (a : Answer) : State :=
  match s.commandOf o with
  | none => s
  | some k =>
    let k := { k with unacked := k.unacked - 1 }
    s.putCommand o.core (match a with
      | .amap => if o.packet.opc = 2 then k.fail o.member none (failureOf o.packet.handle .amap) else s.wroteBy (k.unmapped o.member) o
      | a => k.fail o.member none (failureOf o.packet.handle a))

/-- An access of a core whose store or arrival has been acknowledged (R175, R270, R382). -/
def State.accessAcked (s : State) (o : OutPacket) : State :=
  match (s.coreAt o.core).findAccess o.owner with
  | none => s
  | some x =>
    match x.op with
    | .store _ =>
      match x.remoteGroup with
      | none => s
      | some g =>
        let x := { x with parts := ackParts g x.parts, phase := .issued }
        let s := s.setCoreAt o.core ((s.coreAt o.core).putAccess x)
        if x.keys.isEmpty then s.finishAccess o.core x else s
    | .arrive _ _ _ _ _ => s.finishAccess o.core x
    | _ => s

/-- An access whose packet failed (R265, R266), or the remote read of an engine, an array or a word: a load or an atomic stops its task precisely, a store or
an arrival that the node has not taken imprecisely; XMISS and RESID are restartable (R270). -/
def State.accessFailed (s : State) (o : OutPacket) (a : Answer) : State :=
  match (s.coreAt o.core).findAccess o.owner with
  | none => s.askEnded o.core o.owner none (some a)
  | some x =>
    match answerHold o.packet.handle x.code o.node.toNat x.coord (s.unitAt (s.viewer o.core) x.handle (packetOffset o.packet)) a with
    | .trap t => if t.cause = 0x19 then s.netError o.core x o.node.toNat else s.stopAccess o.core x .trap t
    | .fault t => s.stopAccess o.core x .fault t
    | _ => s

/-- The effect of a packet's end on whoever sent it: a command, an access, or GSEND, whose buffer is freed (R285, R406); a reply's has none. -/
def State.packetEnded (s : State) (o : OutPacket) (a : Answer) : State :=
  if 72 ≤ o.core then s
  else if 64 ≤ o.core then
    let g := o.core - 64
    let x := s.sageAt g
    if x.dbgSending.find o.owner = some (o.packet.pdc, o.psn) then s.setSageAt g (x.freeBuffer o.owner) else s
  else if o.isCommand then (if a = .done then s.commandAcked o else s.commandFailed o a)
  else if a = .done then s.accessAcked o
  else s.accessFailed o a

/-- Packets sent again at once (R277): which they were. -/
def State.resend (s : State) (pdc : Nat) : List (BitVec 32) → State × List OutPacket
  | [] => (s, [])
  | p :: r =>
    match s.outPacket pdc p with
    | none => s.resend pdc r
    | some o =>
      let (s, l) := (s.retransmit pdc o).resend pdc r
      (s, ((s.outPacket pdc p).getD o) :: l)

/-- An event of a delivery context raised at its Sage core (R277). -/
def State.raiseFor (s : State) (pdc : Nat) (o : OutPacket) (type info : Nat) : State :=
  s.raise (sageOfPort o.packet.port) ⟨type, o.packet.port, pdc % 16384, o.node.toNat, o.psn.toNat, info⟩

/-- RETX for the packets sent again (R277, R278): PSN tells the packet where it is one, else 0 (DESIGN CHOICE, log 73). -/
def State.raiseResent (s : State) (pdc : Nat) : List OutPacket → State
  | [] => s
  | [o] => s.raiseFor pdc o 1 1
  | o :: r => s.raiseFor pdc { o with psn := 0 } 1 (r.length + 1)

/-- Does the bitmap of 64 packets of an acknowledgement of `psn` reach packet `p` (R264): one of the 64 before it (DEDUCED, log 73)? -/
def inBitmap (psn p : BitVec 32) : Bool := decide (0 < (psn - p).toNat ∧ (psn - p).toNat ≤ 64)

/-- ACKNOWLEDGEMENT (R265, R277): the packet is settled; a gap shown selectively resends what it names, and an echoed mark raises CMARK. -/
def execAcknowledgement (pdc : Nat) (psn : BitVec 32) (gap : List (BitVec 32)) (ecn : Bool) (delay : BitVec 32) (s : State) :
    Host.Outcome State Fault Refusal :=
  .next (match s.outPacket pdc psn with
    | none => s
    | some o =>
      let s := (s.dropPacket pdc o).packetEnded o .done
      let (s, sent) := s.resend pdc (gap.filter (inBitmap psn))
      let s := s.raiseResent pdc sent
      if ecn then s.raiseFor pdc o 2 (o.size + delay.toNat * 2 ^ 32) else s)

/-- TRIMMED_PACKET (R264, R277): answered with a NACK; TRIM is raised. -/
def execTrimmedPacket (port pdc : Nat) (node : BitVec 11) (psn : BitVec 32) (s : State) : Host.Outcome State Fault Refusal :=
  .next (
    if (s.port port).down then s
    else
      let p : Packet :=
        { port := port, pdc := pdc, psn := psn, ent := 0, via := 0x7FF, srcn := node, aux := 0, rank := 0, nc := 0, nelem := 0, uoff := 0, coord := 0, handle := 0,
          job := 0, acq := false, rel := false, opc := 0, payload := [], ecn := false }
      (s.answer p .nack).raise (sageOfPort port) ⟨4, port, pdc % 16384, node.toNat, psn.toNat, 0⟩)

/-- NACK (R265, R277): immediate retransmission, RETX and TRIM. -/
def execNack (pdc : Nat) (psn : BitVec 32) (s : State) : Host.Outcome State Fault Refusal :=
  .next (match s.outPacket pdc psn with
    | none => s
    | some o =>
      let (s, sent) := s.resend pdc [psn]
      (s.raiseResent pdc sent).raiseFor pdc o 4 1)

/-- RETRANSMISSION_TIMEOUT (R265, R277): the packet is sent again, its timeout doubles up to 1,024 µs, TMOUT is raised. -/
def execRetransmissionTimeout (pdc : Nat) (psn : BitVec 32) (s : State) : Host.Outcome State Fault Refusal :=
  .next (match s.outPacket pdc psn with
    | none => s
    | some o =>
      if o.due ∨ o.notReady.isSome ∨ s.dcc < o.sentAt + 1000 * o.timeout then s
      else
        let o' := { o with timeout := min (2 * o.timeout) 1024 }
        (s.retransmit pdc o').raiseFor pdc o 3 o'.timeout)

/-- Is a packet's time up: not acknowledged within 4 ms of its first transmission, or as long without a path to go by (R265, R282); or its entry is no longer
valid (R272)? -/
def State.overdue (s : State) (pdc : Nat) (o : OutPacket) : Bool :=
  (decide (o.firstSent + 4000000 ≤ s.dcc) && (o.counted || s.noPath pdc o)) || ((s.sageAt (sageOfPdc pdc)).paths o.node.toNat).isEmpty

/-- PACKET_FAIL (R265, R266, R270): not acknowledged within 4 ms, or answered with a failure. -/
def execPacketFail (pdc : Nat) (psn : BitVec 32) (why : Answer) (s : State) : Host.Outcome State Fault Refusal :=
  .next (match s.outPacket pdc psn with
    | none => s
    | some o =>
      let due := match why with
        | .timeout => o.notReady.isNone && s.overdue pdc o
        | .done => false
        | .notReady => false
        | .stale => false
        | .nack => false
        | _ => true
      if due then (s.dropPacket pdc o).packetEnded o why else s)

/-- NOT_READY_REPLY (R256, R270): a transfer's packet waits for its unit; an access of a core, or a read on its behalf, meets RESID there. -/
def execNotReadyReply (pdc : Nat) (psn : BitVec 32) (s : State) : Host.Outcome State Fault Refusal :=
  .next (match s.outPacket pdc psn with
    | none => s
    | some o =>
      if o.isCommand then s.putPacket pdc { o with notReady := some (o.notReady.getD s.dcc), sentAt := s.dcc }
      else (s.dropPacket pdc o).packetEnded o .notReady)

/-- NOT_READY_RETRANSMIT (R255, R256): every 50 µs, not counted under R265; after 10 ms without progress the packet ends with RESID. -/
def execNotReadyRetransmit (pdc : Nat) (psn : BitVec 32) (s : State) : Host.Outcome State Fault Refusal :=
  .next (match s.outPacket pdc psn with
    | none => s
    | some o =>
      match o.notReady with
      | none => s
      | some t =>
        if t + 10000000 ≤ s.dcc then (s.dropPacket pdc o).packetEnded o .notReady
        else if o.sentAt + 50000 ≤ s.dcc then s.retransmit pdc { o with firstSent := s.dcc }
        else s)

/-- STALE_REPLY (R267, R277): the command ends STALE at that chunk; STALE is raised with the handle. -/
def execStaleReply (pdc : Nat) (psn : BitVec 32) (s : State) : Host.Outcome State Fault Refusal :=
  .next (match s.outPacket pdc psn with
    | none => s
    | some o => ((s.dropPacket pdc o).packetEnded o .stale).raiseFor pdc o 7 o.packet.handle.toNat)

/-- The request packet of an access settled by the data that answers it. -/
def State.requestAnswered (s : State) (n id : Nat) : State :=
  match s.pdcs.cells.findSome? fun (e : Nat × Pdc) =>
      (e.2.unacked.find? fun o => o.core = n && o.owner = id && !o.isCommand).map fun o => (e.1, o) with
  | some (k, o) => s.dropPacket k o
  | none => s

/-- A load whose request has been answered: it goes on, or is complete; what it has of its value it sends to its core (R261, R270). -/
def State.loadAnswered (s : State) (n : Nat) (x : Access) (data : List (BitVec 8)) : State :=
  match x.remoteGroup with
  | none => s
  | some g =>
    let y := { x with parts := answerParts g (remoteSpan g x.parts).1 data x.parts, phase := .issued }
    let s := (s.setCoreAt n ((s.coreAt n).putAccess y)).sendFlits n (sagePos (Config.choice s.steps 1026 % 8)) x y
    if y.keys.isEmpty && ((s.coreAt n).slotOf x.id).isNone then s.finishAccess n y else s

/-- LOAD_DATA (R261, R270): the bytes that answer the request a load, an engine, an array or a word has out. -/
def execLoadData (core id : Nat) (data : List (BitVec 8)) (s : State) : Host.Outcome State Fault Refusal :=
  .next (match (s.coreAt core).findAccess id with
    | none => (s.requestAnswered core id).askEnded core id (some (natOfBytes data)) none
    | some x =>
      let isRead := match x.op with
        | .load _ _ _ => true
        | .queueRow _ _ => true
        | _ => false
      if x.phase ≠ .sent ∨ !isRead then s else (s.requestAnswered core id).loadAnswered core x data)

/-- ATOMIC_REPLY (R270): the old value of the atomic a core has out. -/
def execAtomicReply (core id : Nat) (old : BitVec 64) (s : State) : Host.Outcome State Fault Refusal :=
  .next (match (s.coreAt core).findAccess id with
    | none => s
    | some x =>
      match x.op with
      | .atomic _ wide _ _ d signed =>
        if x.phase ≠ .sent then s
        else
          let s := s.requestAnswered core id
          let s := s.setCoreAt core (((s.coreAt core).freeSlot id).dropAccess id)
          let s := if x.rel then s.released (agentId core x.cluster) else s
          (match d with
           | some r => s.setCoreAt core ((s.coreAt core).deliver r (atomicOld wide signed old.toNat))
           | none => s)
      | _ => s)

/-- A packet in transit leaves by a port, its age risen by one (R274). -/
def State.departs (s : State) (p : Nat) (t : Transit) (via : BitVec 11) : State :=
  let s := (s.setPort p { s.port p with escape := (s.port p).escape.erase t }).takeSlot p (decide (16 ≤ t.age.toNat))
  { s with forwarded := s.forwarded ++ [{ t with age := t.age + 1, via := via, packet := { t.packet with port := p } }] }

/-- Has a packet in transit of age 16 or more taken this slot of a port (R274)? -/
def State.slotOld (s : State) (p : Nat) : Bool := (s.port p).slot = some (slotNumber s.dcc, true)

/-- A packet of age 16 or more (R274): its minimal next hop at absolute priority, or, where another such packet has the slot, the escape store of that port;
a slot that a packet of lesser age has taken is over before it leaves. It is lost where there is no such port or it is down (log 74). -/
def State.transitMinimal (s : State) (t : Transit) : Option Nat → State
  | none => s
  | some p =>
    let store := (s.port p).escape
    if s.slotFree p then s.departs p t 0x7FF
    else if (s.port p).down ∨ !s.slotOld p ∨ store.contains t ∨ 35 ≤ store.length then s
    else s.setPort p { s.port p with escape := store ++ [t] }

/-- A packet of lesser age (R274): by its path's next port where that is free, else by any free fabric port, and minimally from then on. -/
def State.transitPath (s : State) (t : Transit) (via : BitVec 11) (next : Option Nat) : State :=
  match next.filter s.slotFree with
  | some p => s.departs p t via
  | none =>
    let free := (List.range 48).filter s.slotFree
    match free[Config.pick (8 * s.steps + 7) % free.length]? with
    | some q => s.departs q t 0x7FF
    | none => s

/-- TRANSIT_PACKET (R274): a fabric packet that arrives at a port for another node leaves by another, or waits in an escape store; so does one that waits
there. Its ports are those of the routing table of the Sage core of the port it arrives at, towards the intermediate it still goes by, or its destination
(R272; log 74). -/
def execTransitPacket (port : Nat) (t : Transit) (s : State) : Host.Outcome State Fault Refusal :=
  .next (
    let x := s.sageAt (sageOfPort port)
    if t.dest = s.node ∨ (s.port port).down ∨ !isFabricPort port then s
    else if 16 ≤ t.age.toNat then s.transitMinimal t (x.minimalPort t.dest.toNat)
    else
      let via : BitVec 11 := if t.via = s.node then 0x7FF else t.via
      s.transitPath t via (x.minimalPort (if via = 0x7FF then t.dest else via).toNat))

/-- Does a port run in lane-erasure mode (R262)? -/
def erases (p : Nat) : Bool := isFabricPort p || Config.erasureMode p

/-- LANE_FAILURE (R263, R277): in lane-erasure mode the first failed lane is erased and LANE raised, the second takes the port down; a port in
standard mode goes down at its first, for which no INFO is given. -/
def execLaneFailure (port : Nat) (lane : BitVec 2) (s : State) : Host.Outcome State Fault Refusal :=
  .next (
    let p := s.port port
    if 48 ≤ port ∨ p.down ∨ p.failed.getLsbD lane.toNat then s
    else
      let s' := s.setPort port { p with failed := p.failed ||| (1 <<< lane.toNat) }
      if erases port then
        let s' := s'.raise (sageOfPort port) ⟨5, port, 0, 0, 0, lane.toNat⟩
        if p.failed = 0 then s' else s'.downPort port 0
      else s'.downPort port ((Config.free s.steps).toNat % 4))

/-- PORT_DOWN (R277, R278): a port loses lock on all lanes, or goes down for another cause of LDOWN. -/
def execPortDown (port : Nat) (info : BitVec 2) (s : State) : Host.Outcome State Fault Refusal :=
  .next (if 48 ≤ port ∨ (s.port port).down then s else s.downPort port info.toNat)

/-- PORT_RETRAIN_COMPLETE (R263, R283, R406): success brings the port and its lanes back; failure raises LDOWN with INFO 1, for a port that is down too. -/
def execPortRetrainComplete (port : Nat) (ok : Bool) (s : State) : Host.Outcome State Fault Refusal :=
  .next (
    let p := s.port port
    if 48 ≤ port ∨ !p.retraining then s
    else if ok then
      let g := sageOfPort port
      let x := s.sageAt g
      let s := s.setPort port { p with down := false, failed := 0, retraining := false }
      s.setSageAt g { x with pdown := x.pdown &&& ~~~((1 : BitVec 6) <<< (port % 6)) }
    else
      let s := s.setPort port { p with retraining := false }
      if p.down then s.raiseDown port 1 else s.downPort port 1)

end Sys2Proof.Machine
end

