-- ==== Sys2Proof/Machine/Scalar.lean ====
section
/-!
DEFINITION. The scalar arithmetic, logic, shift, select, compare and immediate words (R375, R376, R386, R394, R395, R418, R422, R429,
R435, R438, R439, R441, R451, R456, R461, R478).
-/

namespace Sys2Proof.Machine

/-- ILLEGAL, OP 0x00: the guard word (R361 order 1). -/
def execIllegal (c : BitVec 23) (s : State) : Host.Outcome State Fault Refusal :=
  runWord (.illegal c) s fun _ => .error (ilg 0x01)

/-- NOP (R438). -/
def execNop (s : State) : Host.Outcome State Fault Refusal := runWord .nop s fun s => .ok s.retire

/-- ADD (R375). -/
def execAdd (d a b : BitVec 5) (m n w : Bool) (s : State) : Host.Outcome State Fault Refusal :=
  runWord (.add d a b m n w) s (planRR d a b m n fun x y => narrow w (x + y))

/-- SUB (R461). -/
def execSub (d a b : BitVec 5) (m n w : Bool) (s : State) : Host.Outcome State Fault Refusal :=
  runWord (.sub d a b m n w) s (planRR d a b m n fun x y => narrow w (x - y))

/-- The low half of a product (R435). -/
def mulLow (w : Bool) (x y : DWord) : DWord := narrow w (x * y)

/-- The high half of a signed product (R435). -/
def mulHigh (w : Bool) (x y : DWord) : DWord :=
  if w then
    (BitVec.ofInt 32 ((x.extractLsb' 0 32).toInt * (y.extractLsb' 0 32).toInt / 2 ^ 32)).signExtend 64
  else BitVec.ofInt 64 (x.toInt * y.toInt / 2 ^ 64)

/-- The high half of a natural product (R435). -/
def mulHighU (w : Bool) (x y : DWord) : DWord :=
  if w then
    (BitVec.ofNat 32 ((x.extractLsb' 0 32).toNat * (y.extractLsb' 0 32).toNat / 2 ^ 32)).signExtend 64
  else BitVec.ofNat 64 (x.toNat * y.toNat / 2 ^ 64)

/-- MUL (R435). -/
def execMul (d a b : BitVec 5) (m n w : Bool) (s : State) : Host.Outcome State Fault Refusal :=
  runWord (.mul d a b m n w) s (planRR d a b m n (mulLow w))

/-- MULH (R435). -/
def execMulh (d a b : BitVec 5) (m n w : Bool) (s : State) : Host.Outcome State Fault Refusal :=
  runWord (.mulh d a b m n w) s (planRR d a b m n (mulHigh w))

/-- MULHU (R435). -/
def execMulhu (d a b : BitVec 5) (m n w : Bool) (s : State) : Host.Outcome State Fault Refusal :=
  runWord (.mulhu d a b m n w) s (planRR d a b m n (mulHighU w))

/-- The operand of a division: signed or natural, of N bits (R395). -/
def divOperand (signed w : Bool) (x : DWord) : Int :=
  match signed, w with
  | true, true => (x.extractLsb' 0 32).toInt
  | true, false => x.toInt
  | false, true => (x.extractLsb' 0 32).toNat
  | false, false => x.toNat

/-- The quotient of R395: truncated towards zero; all ones for a zero divisor; the dividend for the one overflow. -/
def quotient (signed w : Bool) (x y : DWord) : DWord :=
  let xv := divOperand signed w x
  let yv := divOperand signed w y
  let q := if yv = 0 then -1 else xv.tdiv yv
  if w then (BitVec.ofInt 32 q).signExtend 64 else BitVec.ofInt 64 q

/-- The remainder of R395: with the sign of the dividend; the dividend for a zero divisor. -/
def remainder (signed w : Bool) (x y : DWord) : DWord :=
  let xv := divOperand signed w x
  let yv := divOperand signed w y
  let r := if yv = 0 then xv else xv.tmod yv
  if w then (BitVec.ofInt 32 r).signExtend 64 else BitVec.ofInt 64 r

/-- Is the cluster's one divider taken (R395)? -/
def Core.dividing (c : Core) (k : Cluster) : Bool :=
  c.scal.cells.any fun x => match x.2.pending with
    | some p => p.divider && p.writer = k
    | none => false

/-- A DIV-family word (R395): it waits for the divider, empties d, and its result is written later (R92). -/
def planDiv (d a b : BitVec 5) (m n : Bool) (f : DWord → DWord → DWord) (s : State) : Except Hold State := do
  let x ← s.src a m
  let y ← s.src b n
  s.aluDest d
  if s.cur.dividing s.cluster then .error plainWait else
  .ok ((s.produce d true (some (f x y))).retire)

/-- DIV (R395). -/
def execDiv (d a b : BitVec 5) (m n w : Bool) (s : State) : Host.Outcome State Fault Refusal :=
  runWord (.div d a b m n w) s (planDiv d a b m n (quotient true w))

/-- DIVU (R395). -/
def execDivu (d a b : BitVec 5) (m n w : Bool) (s : State) : Host.Outcome State Fault Refusal :=
  runWord (.divu d a b m n w) s (planDiv d a b m n (quotient false w))

/-- REM (R395). -/
def execRem (d a b : BitVec 5) (m n w : Bool) (s : State) : Host.Outcome State Fault Refusal :=
  runWord (.rem d a b m n w) s (planDiv d a b m n (remainder true w))

/-- REMU (R395). -/
def execRemu (d a b : BitVec 5) (m n w : Bool) (s : State) : Host.Outcome State Fault Refusal :=
  runWord (.remu d a b m n w) s (planDiv d a b m n (remainder false w))

/-- AND (R376). -/
def execAnd (d a b : BitVec 5) (m n : Bool) (s : State) : Host.Outcome State Fault Refusal :=
  runWord (.and d a b m n) s (planRR d a b m n fun x y => x &&& y)

/-- ANDN (R376). -/
def execAndn (d a b : BitVec 5) (m n : Bool) (s : State) : Host.Outcome State Fault Refusal :=
  runWord (.andn d a b m n) s (planRR d a b m n fun x y => x &&& ~~~y)

/-- OR (R439). -/
def execOr (d a b : BitVec 5) (m n : Bool) (s : State) : Host.Outcome State Fault Refusal :=
  runWord (.or d a b m n) s (planRR d a b m n fun x y => x ||| y)

/-- XOR (R478). -/
def execXor (d a b : BitVec 5) (m n : Bool) (s : State) : Host.Outcome State Fault Refusal :=
  runWord (.xor d a b m n) s (planRR d a b m n fun x y => x ^^^ y)

/-- The shift count of a register form (R456). -/
def shiftCount (w : Bool) (y : DWord) : Nat := if w then (y.extractLsb' 0 5).toNat else (y.extractLsb' 0 6).toNat

/-- SLL of N bits (R456). -/
def shiftLeft (w : Bool) (x : DWord) (n : Nat) : DWord := narrow w (x <<< n)

/-- SRL of N bits (R456). -/
def shiftRight (w : Bool) (x : DWord) (n : Nat) : DWord :=
  if w then ((x.extractLsb' 0 32) >>> n).signExtend 64 else x >>> n

/-- SRA of N bits (R456). -/
def shiftArith (w : Bool) (x : DWord) (n : Nat) : DWord :=
  if w then ((x.extractLsb' 0 32).sshiftRight n).signExtend 64 else x.sshiftRight n

/-- SLL (R456). -/
def execSll (d a b : BitVec 5) (m n w : Bool) (s : State) : Host.Outcome State Fault Refusal :=
  runWord (.sll d a b m n w) s (planRR d a b m n fun x y => shiftLeft w x (shiftCount w y))

/-- SRL (R456). -/
def execSrl (d a b : BitVec 5) (m n w : Bool) (s : State) : Host.Outcome State Fault Refusal :=
  runWord (.srl d a b m n w) s (planRR d a b m n fun x y => shiftRight w x (shiftCount w y))

/-- SRA (R456). -/
def execSra (d a b : BitVec 5) (m n w : Bool) (s : State) : Host.Outcome State Fault Refusal :=
  runWord (.sra d a b m n w) s (planRR d a b m n fun x y => shiftArith w x (shiftCount w y))

/-- SLLI (R456). -/
def execSlli (d a : BitVec 5) (i : BitVec 6) (s : State) : Host.Outcome State Fault Refusal :=
  runWord (.slli d a i) s (planRI d a fun x => shiftLeft false x i.toNat)

/-- SRLI (R456). -/
def execSrli (d a : BitVec 5) (i : BitVec 6) (s : State) : Host.Outcome State Fault Refusal :=
  runWord (.srli d a i) s (planRI d a fun x => shiftRight false x i.toNat)

/-- SRAI (R456). -/
def execSrai (d a : BitVec 5) (i : BitVec 6) (s : State) : Host.Outcome State Fault Refusal :=
  runWord (.srai d a i) s (planRI d a fun x => shiftArith false x i.toNat)

/-- SEL (R451): both sources are read, whichever is chosen. -/
def execSel (d a b : BitVec 5) (m n g : Bool) (p : BitVec 3) (s : State) : Host.Outcome State Fault Refusal :=
  runWord (.sel d a b m n g p) s (planRR d a b m n fun x y => if s.predicate p != g then x else y)

/-- The lesser or the greater of two values, signed or natural, of 32 or 64 bits (R422). -/
def pickMinMax (greater signed w : Bool) (x y : DWord) : DWord :=
  let xn := narrow w x
  let yn := narrow w y
  let less := match signed, w with
    | true, _ => xn.slt yn
    | false, true => (x.extractLsb' 0 32).ult (y.extractLsb' 0 32)
    | false, false => x.ult y
  if less != greater then xn else yn

/-- MIN (R422). -/
def execMin (d a b : BitVec 5) (m n w : Bool) (s : State) : Host.Outcome State Fault Refusal :=
  runWord (.min d a b m n w) s (planRR d a b m n (pickMinMax false true w))

/-- MAX (R422). -/
def execMax (d a b : BitVec 5) (m n w : Bool) (s : State) : Host.Outcome State Fault Refusal :=
  runWord (.max d a b m n w) s (planRR d a b m n (pickMinMax true true w))

/-- MINU (R422). -/
def execMinu (d a b : BitVec 5) (m n w : Bool) (s : State) : Host.Outcome State Fault Refusal :=
  runWord (.minu d a b m n w) s (planRR d a b m n (pickMinMax false false w))

/-- MAXU (R422). -/
def execMaxu (d a b : BitVec 5) (m n w : Bool) (s : State) : Host.Outcome State Fault Refusal :=
  runWord (.maxu d a b m n w) s (planRR d a b m n (pickMinMax true false w))

/-- MOV (R429). -/
def execMov (d a : BitVec 5) (m : Bool) (s : State) : Host.Outcome State Fault Refusal :=
  runWord (.mov d a m) s fun s => do
    let x ← s.src a m
    s.aluDest d
    .ok ((s.putScal d x).retire)

/-- CMP (R386). -/
def execCmp (p : BitVec 3) (a b : BitVec 5) (m n w : Bool) (c : BitVec 4) (s : State) : Host.Outcome State Fault Refusal :=
  runWord (.cmp p a b m n w c) s fun s => do
    let x ← s.src a m
    let y ← s.src b n
    .ok ((s.putPred p (holds c.toNat (cmpOperand w c.toNat x) (cmpOperand w c.toNat y))).retire)

/-- PSET (R441). -/
def execPset (d a b o : BitVec 3) (s : State) : Host.Outcome State Fault Refusal :=
  runWord (.pset d a b o) s fun s =>
    .ok ((s.putPred d (predOp o.toNat (s.predicate a) (s.predicate b))).retire)

/-- ADDI (R375). -/
def execAddi (d a : BitVec 5) (i : BitVec 13) (s : State) : Host.Outcome State Fault Refusal :=
  runWord (.addi d a i) s (planRI d a fun x => x + simm13 i)

/-- MULI (R435). -/
def execMuli (d a : BitVec 5) (i : BitVec 13) (s : State) : Host.Outcome State Fault Refusal :=
  runWord (.muli d a i) s (planRI d a fun x => x * simm13 i)

/-- ANDI (R376). -/
def execAndi (d a : BitVec 5) (i : BitVec 13) (s : State) : Host.Outcome State Fault Refusal :=
  runWord (.andi d a i) s (planRI d a fun x => x &&& simm13 i)

/-- ORI (R439). -/
def execOri (d a : BitVec 5) (i : BitVec 13) (s : State) : Host.Outcome State Fault Refusal :=
  runWord (.ori d a i) s (planRI d a fun x => x ||| simm13 i)

/-- XORI (R478). -/
def execXori (d a : BitVec 5) (i : BitVec 13) (s : State) : Host.Outcome State Fault Refusal :=
  runWord (.xori d a i) s (planRI d a fun x => x ^^^ simm13 i)

/-- MINI (R422). -/
def execMini (d a : BitVec 5) (i : BitVec 13) (s : State) : Host.Outcome State Fault Refusal :=
  runWord (.mini d a i) s (planRI d a fun x => pickMinMax false true false x (simm13 i))

/-- MAXI (R422). -/
def execMaxi (d a : BitVec 5) (i : BitVec 13) (s : State) : Host.Outcome State Fault Refusal :=
  runWord (.maxi d a i) s (planRI d a fun x => pickMinMax true true false x (simm13 i))

/-- MINUI (R422). -/
def execMinui (d a : BitVec 5) (i : BitVec 13) (s : State) : Host.Outcome State Fault Refusal :=
  runWord (.minui d a i) s (planRI d a fun x => pickMinMax false false false x (simm13 i))

/-- MAXUI (R422). -/
def execMaxui (d a : BitVec 5) (i : BitVec 13) (s : State) : Host.Outcome State Fault Refusal :=
  runWord (.maxui d a i) s (planRI d a fun x => pickMinMax true false false x (simm13 i))

/-- CMPI.EQ (R386). -/
def execCmpiEq (p : BitVec 3) (a : BitVec 5) (i : BitVec 13) (s : State) : Host.Outcome State Fault Refusal :=
  runWord (.cmpiEq p a i) s (planCmpI 0 p a i)

/-- CMPI.NE (R386). -/
def execCmpiNe (p : BitVec 3) (a : BitVec 5) (i : BitVec 13) (s : State) : Host.Outcome State Fault Refusal :=
  runWord (.cmpiNe p a i) s (planCmpI 1 p a i)

/-- CMPI.LT (R386). -/
def execCmpiLt (p : BitVec 3) (a : BitVec 5) (i : BitVec 13) (s : State) : Host.Outcome State Fault Refusal :=
  runWord (.cmpiLt p a i) s (planCmpI 2 p a i)

/-- CMPI.GE (R386). -/
def execCmpiGe (p : BitVec 3) (a : BitVec 5) (i : BitVec 13) (s : State) : Host.Outcome State Fault Refusal :=
  runWord (.cmpiGe p a i) s (planCmpI 3 p a i)

/-- CMPI.LE (R386). -/
def execCmpiLe (p : BitVec 3) (a : BitVec 5) (i : BitVec 13) (s : State) : Host.Outcome State Fault Refusal :=
  runWord (.cmpiLe p a i) s (planCmpI 4 p a i)

/-- CMPI.GT (R386). -/
def execCmpiGt (p : BitVec 3) (a : BitVec 5) (i : BitVec 13) (s : State) : Host.Outcome State Fault Refusal :=
  runWord (.cmpiGt p a i) s (planCmpI 5 p a i)

/-- CMPI.LTU (R386). -/
def execCmpiLtu (p : BitVec 3) (a : BitVec 5) (i : BitVec 13) (s : State) : Host.Outcome State Fault Refusal :=
  runWord (.cmpiLtu p a i) s (planCmpI 6 p a i)

/-- CMPI.GEU (R386). -/
def execCmpiGeu (p : BitVec 3) (a : BitVec 5) (i : BitVec 13) (s : State) : Host.Outcome State Fault Refusal :=
  runWord (.cmpiGeu p a i) s (planCmpI 7 p a i)

/-- CMPI.LEU (R386). -/
def execCmpiLeu (p : BitVec 3) (a : BitVec 5) (i : BitVec 13) (s : State) : Host.Outcome State Fault Refusal :=
  runWord (.cmpiLeu p a i) s (planCmpI 8 p a i)

/-- CMPI.GTU (R386). -/
def execCmpiGtu (p : BitVec 3) (a : BitVec 5) (i : BitVec 13) (s : State) : Host.Outcome State Fault Refusal :=
  runWord (.cmpiGtu p a i) s (planCmpI 9 p a i)

/-- LI (R418). -/
def execLi (d : BitVec 5) (i : BitVec 18) (s : State) : Host.Outcome State Fault Refusal :=
  runWord (.li d i) s (planSet d fun _ => i.signExtend 64)

/-- LIH (R418): d is also a source. -/
def execLih (d : BitVec 5) (i : BitVec 18) (s : State) : Host.Outcome State Fault Refusal :=
  runWord (.lih d i) s (planRI d d fun x => (x <<< 18) ||| i.setWidth 64)

end Sys2Proof.Machine
end

