-- ==== Sys2Proof/Machine/Dispatch.lean ====
section
/-!
DEFINITION. Which meaning each instruction has: one direct call per row of the opcode table.
-/

namespace Sys2Proof.Machine

/-- The effect of an instruction. -/
def exec (i : Instr) (s : State) : Host.Outcome State Fault Refusal :=
  match i with
  | .illegal c => Sys2Proof.Machine.execIllegal c s
  | .nop => Sys2Proof.Machine.execNop s
  | .add d a b m n w => Sys2Proof.Machine.execAdd d a b m n w s
  | .sub d a b m n w => Sys2Proof.Machine.execSub d a b m n w s
  | .mul d a b m n w => Sys2Proof.Machine.execMul d a b m n w s
  | .mulh d a b m n w => Sys2Proof.Machine.execMulh d a b m n w s
  | .mulhu d a b m n w => Sys2Proof.Machine.execMulhu d a b m n w s
  | .div d a b m n w => Sys2Proof.Machine.execDiv d a b m n w s
  | .divu d a b m n w => Sys2Proof.Machine.execDivu d a b m n w s
  | .rem d a b m n w => Sys2Proof.Machine.execRem d a b m n w s
  | .remu d a b m n w => Sys2Proof.Machine.execRemu d a b m n w s
  | .and d a b m n => Sys2Proof.Machine.execAnd d a b m n s
  | .andn d a b m n => Sys2Proof.Machine.execAndn d a b m n s
  | .or d a b m n => Sys2Proof.Machine.execOr d a b m n s
  | .xor d a b m n => Sys2Proof.Machine.execXor d a b m n s
  | .sll d a b m n w => Sys2Proof.Machine.execSll d a b m n w s
  | .srl d a b m n w => Sys2Proof.Machine.execSrl d a b m n w s
  | .sra d a b m n w => Sys2Proof.Machine.execSra d a b m n w s
  | .min d a b m n w => Sys2Proof.Machine.execMin d a b m n w s
  | .max d a b m n w => Sys2Proof.Machine.execMax d a b m n w s
  | .minu d a b m n w => Sys2Proof.Machine.execMinu d a b m n w s
  | .maxu d a b m n w => Sys2Proof.Machine.execMaxu d a b m n w s
  | .mov d a m => Sys2Proof.Machine.execMov d a m s
  | .sel d a b m n g p => Sys2Proof.Machine.execSel d a b m n g p s
  | .cmp p a b m n w c => Sys2Proof.Machine.execCmp p a b m n w c s
  | .pset d a b o => Sys2Proof.Machine.execPset d a b o s
  | .addi d a im => Sys2Proof.Machine.execAddi d a im s
  | .muli d a im => Sys2Proof.Machine.execMuli d a im s
  | .andi d a im => Sys2Proof.Machine.execAndi d a im s
  | .ori d a im => Sys2Proof.Machine.execOri d a im s
  | .xori d a im => Sys2Proof.Machine.execXori d a im s
  | .slli d a im => Sys2Proof.Machine.execSlli d a im s
  | .srli d a im => Sys2Proof.Machine.execSrli d a im s
  | .srai d a im => Sys2Proof.Machine.execSrai d a im s
  | .mini d a im => Sys2Proof.Machine.execMini d a im s
  | .maxi d a im => Sys2Proof.Machine.execMaxi d a im s
  | .minui d a im => Sys2Proof.Machine.execMinui d a im s
  | .maxui d a im => Sys2Proof.Machine.execMaxui d a im s
  | .cmpiEq p a im => Sys2Proof.Machine.execCmpiEq p a im s
  | .cmpiNe p a im => Sys2Proof.Machine.execCmpiNe p a im s
  | .cmpiLt p a im => Sys2Proof.Machine.execCmpiLt p a im s
  | .cmpiGe p a im => Sys2Proof.Machine.execCmpiGe p a im s
  | .cmpiLe p a im => Sys2Proof.Machine.execCmpiLe p a im s
  | .cmpiGt p a im => Sys2Proof.Machine.execCmpiGt p a im s
  | .cmpiLtu p a im => Sys2Proof.Machine.execCmpiLtu p a im s
  | .cmpiGeu p a im => Sys2Proof.Machine.execCmpiGeu p a im s
  | .cmpiLeu p a im => Sys2Proof.Machine.execCmpiLeu p a im s
  | .cmpiGtu p a im => Sys2Proof.Machine.execCmpiGtu p a im s
  | .li d im => Sys2Proof.Machine.execLi d im s
  | .lih d im => Sys2Proof.Machine.execLih d im s
  | .b p g o => Sys2Proof.Machine.execB p g o s
  | .bz a im => Sys2Proof.Machine.execBz a im s
  | .bnz a im => Sys2Proof.Machine.execBnz a im s
  | .jmp a m => Sys2Proof.Machine.execJmp a m s
  | .call d im => Sys2Proof.Machine.execCall d im s
  | .callr d a m => Sys2Proof.Machine.execCallr d a m s
  | .ret a m => Sys2Proof.Machine.execRet a m s
  | .loop k l a im => Sys2Proof.Machine.execLoop k l a im s
  | .loopi k l n e => Sys2Proof.Machine.execLoopi k l n e s
  | .csrr d c => Sys2Proof.Machine.execCsrr d c s
  | .csrw a c => Sys2Proof.Machine.execCsrw a c s
  | .waitfRead d a => Sys2Proof.Machine.execWaitfRead d a s
  | .waitfTake d a => Sys2Proof.Machine.execWaitfTake d a s
  | .waitfPut d a => Sys2Proof.Machine.execWaitfPut d a s
  | .waitfEmpty a => Sys2Proof.Machine.execWaitfEmpty a s
  | .fence e c => Sys2Proof.Machine.execFence e c s
  | .rdv => Sys2Proof.Machine.execRdv s
  | .ld w d a b m n c x => Sys2Proof.Machine.execLd w d a b m n c x s
  | .ldAcq w d a b m n c x => Sys2Proof.Machine.execLdAcq w d a b m n c x s
  | .st w d a b m n c => Sys2Proof.Machine.execSt w d a b m n c s
  | .stRel w d a b m n c => Sys2Proof.Machine.execStRel w d a b m n c s
  | .ldo w d a im => Sys2Proof.Machine.execLdo w d a im s
  | .ldoS w d a im => Sys2Proof.Machine.execLdoS w d a im s
  | .stoB d a im => Sys2Proof.Machine.execStoB d a im s
  | .stoH d a im => Sys2Proof.Machine.execStoH d a im s
  | .stoW d a im => Sys2Proof.Machine.execStoW d a im s
  | .sto d a im => Sys2Proof.Machine.execSto d a im s
  | .aaddW d a b m n c q r => Sys2Proof.Machine.execAaddW d a b m n c q r s
  | .aadd d a b m n c q r => Sys2Proof.Machine.execAadd d a b m n c q r s
  | .afadd d a b m n c q r => Sys2Proof.Machine.execAfadd d a b m n c q r s
  | .aandW d a b m n c q r => Sys2Proof.Machine.execAandW d a b m n c q r s
  | .aand d a b m n c q r => Sys2Proof.Machine.execAand d a b m n c q r s
  | .aorW d a b m n c q r => Sys2Proof.Machine.execAorW d a b m n c q r s
  | .aor d a b m n c q r => Sys2Proof.Machine.execAor d a b m n c q r s
  | .axorW d a b m n c q r => Sys2Proof.Machine.execAxorW d a b m n c q r s
  | .axor d a b m n c q r => Sys2Proof.Machine.execAxor d a b m n c q r s
  | .aminW d a b m n c q r => Sys2Proof.Machine.execAminW d a b m n c q r s
  | .amin d a b m n c q r => Sys2Proof.Machine.execAmin d a b m n c q r s
  | .aminuW d a b m n c q r => Sys2Proof.Machine.execAminuW d a b m n c q r s
  | .aminu d a b m n c q r => Sys2Proof.Machine.execAminu d a b m n c q r s
  | .amaxW d a b m n c q r => Sys2Proof.Machine.execAmaxW d a b m n c q r s
  | .amax d a b m n c q r => Sys2Proof.Machine.execAmax d a b m n c q r s
  | .amaxuW d a b m n c q r => Sys2Proof.Machine.execAmaxuW d a b m n c q r s
  | .amaxu d a b m n c q r => Sys2Proof.Machine.execAmaxu d a b m n c q r s
  | .axchgW d a b m n c q r => Sys2Proof.Machine.execAxchgW d a b m n c q r s
  | .axchg d a b m n c q r => Sys2Proof.Machine.execAxchg d a b m n c q r s
  | .acasW d a b m n c q r => Sys2Proof.Machine.execAcasW d a b m n c q r s
  | .acas d a b m n c q r => Sys2Proof.Machine.execAcas d a b m n c q r s
  | .qrd w q a b m n c k => Sys2Proof.Machine.execQrd w q a b m n c k s
  | .qwr w q a b m n c k => Sys2Proof.Machine.execQwr w q a b m n c k s
  | .hinfo d a b m n im => Sys2Proof.Machine.execHinfo d a b m n im s
  | .pub d a m => Sys2Proof.Machine.execPub d a m s
  | .copy d a b r => Sys2Proof.Machine.execCopy d a b r s
  | .send d a b r => Sys2Proof.Machine.execSend d a b r s
  | .mcast d a b r => Sys2Proof.Machine.execMcast d a b r s
  | .redw d a b r => Sys2Proof.Machine.execRedw d a b r s
  | .brarv a b m n c => Sys2Proof.Machine.execBrarv a b m n c s
  | .mark => Sys2Proof.Machine.execMark s
  | .waita d a b m n => Sys2Proof.Machine.execWaita d a b m n s
  | .waitc d a m => Sys2Proof.Machine.execWaitc d a m s
  | .waitct d a b m n => Sys2Proof.Machine.execWaitct d a b m n s
  | .vadd d a b r x => Sys2Proof.Machine.execVadd d a b r x s
  | .vsub d a b r x => Sys2Proof.Machine.execVsub d a b r x s
  | .vmul d a b r x => Sys2Proof.Machine.execVmul d a b r x s
  | .vfma d a b r x => Sys2Proof.Machine.execVfma d a b r x s
  | .vfms d a b r x => Sys2Proof.Machine.execVfms d a b r x s
  | .vfnma d a b r x => Sys2Proof.Machine.execVfnma d a b r x s
  | .vadds d a b r x => Sys2Proof.Machine.execVadds d a b r x s
  | .vsubs d a b r x => Sys2Proof.Machine.execVsubs d a b r x s
  | .vmuls d a b r x => Sys2Proof.Machine.execVmuls d a b r x s
  | .vdiv d a b r x => Sys2Proof.Machine.execVdiv d a b r x s
  | .vabs d a r x => Sys2Proof.Machine.execVabs d a r x s
  | .vneg d a r x => Sys2Proof.Machine.execVneg d a r x s
  | .vmin d a b r x => Sys2Proof.Machine.execVmin d a b r x s
  | .vmax d a b r x => Sys2Proof.Machine.execVmax d a b r x s
  | .vclamp d a b r x => Sys2Proof.Machine.execVclamp d a b r x s
  | .vrint d a r x => Sys2Proof.Machine.execVrint d a r x s
  | .vcvt f d a t r p x => Sys2Proof.Machine.execVcvt f d a t r p x s
  | .vcvtN d a t r p x => Sys2Proof.Machine.execVcvtN d a t r p x s
  | .vexp d a x => Sys2Proof.Machine.execVexp d a x s
  | .vexp2 d a x => Sys2Proof.Machine.execVexp2 d a x s
  | .vlog d a x => Sys2Proof.Machine.execVlog d a x s
  | .vlog2 d a x => Sys2Proof.Machine.execVlog2 d a x s
  | .vrcp d a x => Sys2Proof.Machine.execVrcp d a x s
  | .vrsqrt d a x => Sys2Proof.Machine.execVrsqrt d a x s
  | .vsqrt d a x => Sys2Proof.Machine.execVsqrt d a x s
  | .vtanh d a x => Sys2Proof.Machine.execVtanh d a x s
  | .vsigm d a x => Sys2Proof.Machine.execVsigm d a x s
  | .vsin d a x => Sys2Proof.Machine.execVsin d a x s
  | .vcos d a x => Sys2Proof.Machine.execVcos d a x s
  | .vcmp d a b c x => Sys2Proof.Machine.execVcmp d a b c x s
  | .vsel d a b x => Sys2Proof.Machine.execVsel d a b x s
  | .vand d a b x => Sys2Proof.Machine.execVand d a b x s
  | .vor d a b x => Sys2Proof.Machine.execVor d a b x s
  | .vxor d a b x => Sys2Proof.Machine.execVxor d a b x s
  | .vandn d a b x => Sys2Proof.Machine.execVandn d a b x s
  | .vnot d a x => Sys2Proof.Machine.execVnot d a x s
  | .vsll d a b x => Sys2Proof.Machine.execVsll d a b x s
  | .vsrl d a b x => Sys2Proof.Machine.execVsrl d a b x s
  | .vsra d a b x => Sys2Proof.Machine.execVsra d a b x s
  | .vrsum d a x => Sys2Proof.Machine.execVrsum d a x s
  | .vrsumsq d a x => Sys2Proof.Machine.execVrsumsq d a x s
  | .vrmax d a x => Sys2Proof.Machine.execVrmax d a x s
  | .vrmin d a x => Sys2Proof.Machine.execVrmin d a x s
  | .vramax d a x => Sys2Proof.Machine.execVramax d a x s
  | .vscan d a x => Sys2Proof.Machine.execVscan d a x s
  | .vscanmax d a x => Sys2Proof.Machine.execVscanmax d a x s
  | .vscanseg d a b x => Sys2Proof.Machine.execVscanseg d a b x s
  | .vperm d a b x => Sys2Proof.Machine.execVperm d a b x s
  | .vrote d a b x => Sys2Proof.Machine.execVrote d a b x s
  | .vbcast d a b x => Sys2Proof.Machine.execVbcast d a b x s
  | .vmov d a x => Sys2Proof.Machine.execVmov d a x s
  | .vget d a b n r => Sys2Proof.Machine.execVget d a b n r s
  | .vput d a b n r => Sys2Proof.Machine.execVput d a b n r s
  | .vshp f c b => Sys2Proof.Machine.execVshp f c b s
  | .vshpr a m => Sys2Proof.Machine.execVshpr a m s
  | .vpopc d a x => Sys2Proof.Machine.execVpopc d a x s
  | .mseta y a b n q w t => Sys2Proof.Machine.execMseta y a b n q w t s
  | .msetac y a b => Sys2Proof.Machine.execMsetac y a b s
  | .minca y a b => Sys2Proof.Machine.execMinca y a b s
  | .msetb y a b n q w t => Sys2Proof.Machine.execMsetb y a b n q w t s
  | .msetbc y a b => Sys2Proof.Machine.execMsetbc y a b s
  | .mincb y a b => Sys2Proof.Machine.execMincb y a b s
  | .msetc y a l r c => Sys2Proof.Machine.execMsetc y a l r c s
  | .msetcc y a b => Sys2Proof.Machine.execMsetcc y a b s
  | .mincc y a b => Sys2Proof.Machine.execMincc y a b s
  | .mfmt y a im => Sys2Proof.Machine.execMfmt y a im s
  | .mstamp y a => Sys2Proof.Machine.execMstamp y a s
  | .mmul y => Sys2Proof.Machine.execMmul y s
  | .mzero y c => Sys2Proof.Machine.execMzero y c s
  | .mdrain y => Sys2Proof.Machine.execMdrain y s
  | .mwait y b => Sys2Proof.Machine.execMwait y b s
  | .mprog y a => Sys2Proof.Machine.execMprog y a s
  | .fork c im => Sys2Proof.Machine.execFork c im s
  | .done => Sys2Proof.Machine.execDone s
  | .spawn d a b m n o => Sys2Proof.Machine.execSpawn d a b m n o s
  | .join d a b m n o => Sys2Proof.Machine.execJoin d a b m n o s
  | .phint a b m n => Sys2Proof.Machine.execPhint a b m n s
  | .svc d a b m n im => Sys2Proof.Machine.execSvc d a b m n im s
  | .iinv a m => Sys2Proof.Machine.execIinv a m s
  | .commit => Sys2Proof.Machine.execCommit s
  | .bset c a im => Sys2Proof.Machine.execBset c a im s
  | .barv a im => Sys2Proof.Machine.execBarv a im s
  | .bwait a im => Sys2Proof.Machine.execBwait a im s
  | .bsync a im => Sys2Proof.Machine.execBsync a im s
  | .bstat d w im => Sys2Proof.Machine.execBstat d w im s
  | .csrs d a c => Sys2Proof.Machine.execCsrs d a c s
  | .csrc d a c => Sys2Proof.Machine.execCsrc d a c s
  | .waitd d a m => Sys2Proof.Machine.execWaitd d a m s
  | .trap v c => Sys2Proof.Machine.execTrap v c s
  | .brk im => Sys2Proof.Machine.execBrk im s
  | .gadd d a b => Sys2Proof.Machine.execGadd d a b s
  | .gaddI d a im => Sys2Proof.Machine.execGaddI d a im s
  | .gsub d a b => Sys2Proof.Machine.execGsub d a b s
  | .gsubI d a im => Sys2Proof.Machine.execGsubI d a im s
  | .gmul d a b => Sys2Proof.Machine.execGmul d a b s
  | .gmulI d a im => Sys2Proof.Machine.execGmulI d a im s
  | .gand d a b => Sys2Proof.Machine.execGand d a b s
  | .gandI d a im => Sys2Proof.Machine.execGandI d a im s
  | .gor d a b => Sys2Proof.Machine.execGor d a b s
  | .gorI d a im => Sys2Proof.Machine.execGorI d a im s
  | .gxor d a b => Sys2Proof.Machine.execGxor d a b s
  | .gxorI d a im => Sys2Proof.Machine.execGxorI d a im s
  | .gsll d a b => Sys2Proof.Machine.execGsll d a b s
  | .gsllI d a im => Sys2Proof.Machine.execGsllI d a im s
  | .gsrl d a b => Sys2Proof.Machine.execGsrl d a b s
  | .gsrlI d a im => Sys2Proof.Machine.execGsrlI d a im s
  | .gli d h im => Sys2Proof.Machine.execGli d h im s
  | .gliK d h im => Sys2Proof.Machine.execGliK d h im s
  | .gbeq a b o => Sys2Proof.Machine.execGbeq a b o s
  | .gbne a b o => Sys2Proof.Machine.execGbne a b o s
  | .gblt a b o => Sys2Proof.Machine.execGblt a b o s
  | .gjmp d a o => Sys2Proof.Machine.execGjmp d a o s
  | .gld d a p w o => Sys2Proof.Machine.execGld d a p w o s
  | .gst d a p r w o => Sys2Proof.Machine.execGst d a p r w o s
  | .gcsr d a w c => Sys2Proof.Machine.execGcsr d a w c s
  | .gwait => Sys2Proof.Machine.execGwait s
  | .gev => Sys2Proof.Machine.execGev s
  | .gsetw a b => Sys2Proof.Machine.execGsetw a b s
  | .gsetr a b => Sys2Proof.Machine.execGsetr a b s
  | .gwgt a b j => Sys2Proof.Machine.execGwgt a b j s
  | .gportDown a => Sys2Proof.Machine.execGportDown a s
  | .gportRetrain a => Sys2Proof.Machine.execGportRetrain a s
  | .gntfy a b => Sys2Proof.Machine.execGntfy a b s
  | .gsvc a b => Sys2Proof.Machine.execGsvc a b s
  | .gsend a b l => Sys2Proof.Machine.execGsend a b l s
  | .gfree b => Sys2Proof.Machine.execGfree b s
  | .notifyWrite slot v => Sys2Proof.Machine.execNotifyWrite slot v s
  | .mapQueue slot v => Sys2Proof.Machine.execMapQueue slot v s
  | .unmapQueue slot => Sys2Proof.Machine.execUnmapQueue slot s
  | .unmapComplete slot => Sys2Proof.Machine.execUnmapComplete slot s
  | .launchAccept slot => Sys2Proof.Machine.execLaunchAccept slot s
  | .launchExpansion launch => Sys2Proof.Machine.execLaunchExpansion launch s
  | .taskPop die => Sys2Proof.Machine.execTaskPop die s
  | .gangReservation die => Sys2Proof.Machine.execGangReservation die s
  | .gangStart gang => Sys2Proof.Machine.execGangStart gang s
  | .ageingInterval slot => Sys2Proof.Machine.execAgeingInterval slot s
  | .firstFetch core => Sys2Proof.Machine.execFirstFetch core s
  | .launchComplete launch => Sys2Proof.Machine.execLaunchComplete launch s
  | .completionRecordTimeout launch => Sys2Proof.Machine.execCompletionRecordTimeout launch s
  | .throttleUpdate quad deflected aged => Sys2Proof.Machine.execThrottleUpdate quad deflected aged s
  | .synctoExpiry core => Sys2Proof.Machine.execSynctoExpiry core s
  | .femodeLimitExpiry core c => Sys2Proof.Machine.execFemodeLimitExpiry core c s
  | .producerResultWritten core d => Sys2Proof.Machine.execProducerResultWritten core d s
  | .vectorRowStep core => Sys2Proof.Machine.execVectorRowStep core s
  | .mmulArrayIssue core y => Sys2Proof.Machine.execMmulArrayIssue core y s
  | .mmulRowEntry core y => Sys2Proof.Machine.execMmulRowEntry core y s
  | .drainRow core y => Sys2Proof.Machine.execDrainRow core y s
  | .accessAtHome core id => Sys2Proof.Machine.execAccessAtHome core id s
  | .engineRaceTrap core => Sys2Proof.Machine.execEngineRaceTrap core s
  | .eraChange => Sys2Proof.Machine.execEraChange s
  | .metadataWaitTimeout core id => Sys2Proof.Machine.execMetadataWaitTimeout core id s
  | .versionCommitComplete core => Sys2Proof.Machine.execVersionCommitComplete core s
  | .engineChunkWrite core cmd => Sys2Proof.Machine.execEngineChunkWrite core cmd s
  | .engineCompletion core cmd => Sys2Proof.Machine.execEngineCompletion core cmd s
  | .residencyWaitTimeout core cmd => Sys2Proof.Machine.execResidencyWaitTimeout core cmd s
  | .residencyWaitResume core w => Sys2Proof.Machine.execResidencyWaitResume core w s
  | .place p shd => Sys2Proof.Machine.execPlace p shd s
  | .redu p shd => Sys2Proof.Machine.execRedu p shd s
  | .redo p shd => Sys2Proof.Machine.execRedo p shd s
  | .loadRequest p len => Sys2Proof.Machine.execLoadRequest p len s
  | .loadData core id data => Sys2Proof.Machine.execLoadData core id data s
  | .store p => Sys2Proof.Machine.execStore p s
  | .atomic p op wide v cmp => Sys2Proof.Machine.execAtomic p op wide v cmp s
  | .atomicReply core id old => Sys2Proof.Machine.execAtomicReply core id old s
  | .rarrive p => Sys2Proof.Machine.execRarrive p s
  | .debugForwarding p => Sys2Proof.Machine.execDebugForwarding p s
  | .barrierArrival core bar round launch src => Sys2Proof.Machine.execBarrierArrival core bar round launch src s
  | .acknowledgement pdc psn gap ecn delay => Sys2Proof.Machine.execAcknowledgement pdc psn gap ecn delay s
  | .trimmedPacket port pdc node psn => Sys2Proof.Machine.execTrimmedPacket port pdc node psn s
  | .nack pdc psn => Sys2Proof.Machine.execNack pdc psn s
  | .retransmissionTimeout pdc psn => Sys2Proof.Machine.execRetransmissionTimeout pdc psn s
  | .packetFail pdc psn why => Sys2Proof.Machine.execPacketFail pdc psn why s
  | .notReadyReply pdc psn => Sys2Proof.Machine.execNotReadyReply pdc psn s
  | .notReadyRetransmit pdc psn => Sys2Proof.Machine.execNotReadyRetransmit pdc psn s
  | .staleReply pdc psn => Sys2Proof.Machine.execStaleReply pdc psn s
  | .transitPacket port t => Sys2Proof.Machine.execTransitPacket port t s
  | .laneFailure port lane => Sys2Proof.Machine.execLaneFailure port lane s
  | .portDown port info => Sys2Proof.Machine.execPortDown port info s
  | .portRetrainComplete port ok => Sys2Proof.Machine.execPortRetrainComplete port ok s
  | .flitDelivery core msg flit data => Sys2Proof.Machine.execFlitDelivery core msg flit data s
  | .dieBridgeFailure => Sys2Proof.Machine.execDieBridgeFailure s
  | .uncorrectableError core e => Sys2Proof.Machine.execUncorrectableError core e s
  | .fenceCore core => Sys2Proof.Machine.execFenceCore core s
  | .timeSyncMessage msg ppm => Sys2Proof.Machine.execTimeSyncMessage msg ppm s
  | .sageWatchdog g => Sys2Proof.Machine.execSageWatchdog g s
  | .stopRecordWrite core => Sys2Proof.Machine.execStopRecordWrite core s
  | .serviceResume core => Sys2Proof.Machine.execServiceResume core s
  | .convertToTrap core => Sys2Proof.Machine.execConvertToTrap core s
  | .preemptionRequest core d => Sys2Proof.Machine.execPreemptionRequest core d s
  | .forcedSaveDeadline core => Sys2Proof.Machine.execForcedSaveDeadline core s
  | .drainLimitExpiry core => Sys2Proof.Machine.execDrainLimitExpiry core s
  | .saveImageWrite core buf => Sys2Proof.Machine.execSaveImageWrite core buf s
  | .svcReply core answer => Sys2Proof.Machine.execSvcReply core answer s
  | .hostCxlMemAccess addr req => Sys2Proof.Machine.execHostCxlMemAccess addr req s
  | .flipToHostBias slice frame => Sys2Proof.Machine.execFlipToHostBias slice frame s
  | .flipToDeviceBias slice frame => Sys2Proof.Machine.execFlipToDeviceBias slice frame s
  | .readBias slice frame => Sys2Proof.Machine.execReadBias slice frame s
  | .biasFlipComplete slice => Sys2Proof.Machine.execBiasFlipComplete slice s
  | .tinvRecord slice ctx index => Sys2Proof.Machine.execTinvRecord slice ctx index s
  | .tinvRuEntry slice ctx index ru => Sys2Proof.Machine.execTinvRuEntry slice ctx index ru s
  | .tinvContext slice ctx => Sys2Proof.Machine.execTinvContext slice ctx s
  | .tinvDevice slice => Sys2Proof.Machine.execTinvDevice slice s
  | .invalidationComplete slice => Sys2Proof.Machine.execInvalidationComplete slice s
  | .devsum addr => Sys2Proof.Machine.execDevsum addr s
  | .devsumComplete => Sys2Proof.Machine.execDevsumComplete s
  | .boot die => Sys2Proof.Machine.execBoot die s
  | .getMeasurements request => Sys2Proof.Machine.execGetMeasurements request s
  | .challenge request => Sys2Proof.Machine.execChallenge request s
  | .executeWord core c w => Sys2Proof.Machine.execExecuteWord core c w s
  | .debugHalt core => Sys2Proof.Machine.execDebugHalt core s
  | .haltBoundaryTimeout core c => Sys2Proof.Machine.execHaltBoundaryTimeout core c s
  | .huazuHalt h => Sys2Proof.Machine.execHuazuHalt h s
  | .huazuResume h => Sys2Proof.Machine.execHuazuResume h s
  | .huazuRead h => Sys2Proof.Machine.execHuazuRead h s
  | .huazuWrite h => Sys2Proof.Machine.execHuazuWrite h s
  | .huazuDevsum h => Sys2Proof.Machine.execHuazuDevsum h s
  | .huazuReply h => Sys2Proof.Machine.execHuazuReply h s
  | .huazuResend seq => Sys2Proof.Machine.execHuazuResend seq s
  | .sample core => Sys2Proof.Machine.execSample core s
  | .controlRegisterWrite r v => Sys2Proof.Machine.execControlRegisterWrite r v s
  | .waitctTimeout core => Sys2Proof.Machine.execWaitctTimeout core s
  | .clockThrottle mhz => Sys2Proof.Machine.execClockThrottle mhz s
  | .frameLockInstall slice old new frames => Sys2Proof.Machine.execFrameLockInstall slice old new frames s
  | .frameLockRelease slice old => Sys2Proof.Machine.execFrameLockRelease slice old s
  | .redirectionRemove slice old => Sys2Proof.Machine.execRedirectionRemove slice old s
  | .drainResidTrap core y => Sys2Proof.Machine.execDrainResidTrap core y s
  | .debugViewAccess core offset write len => Sys2Proof.Machine.execDebugViewAccess core offset write len s
  | .waitdTargetReached core c => Sys2Proof.Machine.execWaitdTargetReached core c s
  | .engineWatchStop core => Sys2Proof.Machine.execEngineWatchStop core s
  | .illegalRsvd w => Sys2Proof.Machine.execIllegalRsvd w s
  | .notAGInstruction w => Sys2Proof.Machine.execNotAGInstruction w s

end Sys2Proof.Machine
end

