-- ==== Sys2Proof/Machine/Events.lean ====
section
/-!
DEFINITION. An event that happens by itself has the meaning of its row of the opcode table.
-/

namespace Sys2Proof.Machine

/-- The event's effect: the same meanings as `exec` calls. -/
def runEvent (e : Event) (s : State) : Host.Outcome State Fault Refusal :=
  match e with
  | .notifyWrite slot v => execNotifyWrite slot v s
  | .mapQueue slot v => execMapQueue slot v s
  | .unmapQueue slot => execUnmapQueue slot s
  | .unmapComplete slot => execUnmapComplete slot s
  | .launchAccept slot => execLaunchAccept slot s
  | .launchExpansion launch => execLaunchExpansion launch s
  | .taskPop die => execTaskPop die s
  | .gangReservation die => execGangReservation die s
  | .gangStart gang => execGangStart gang s
  | .ageingInterval slot => execAgeingInterval slot s
  | .firstFetch core => execFirstFetch core s
  | .launchComplete launch => execLaunchComplete launch s
  | .completionRecordTimeout launch => execCompletionRecordTimeout launch s
  | .throttleUpdate quad deflected aged => execThrottleUpdate quad deflected aged s
  | .synctoExpiry core => execSynctoExpiry core s
  | .femodeLimitExpiry core c => execFemodeLimitExpiry core c s
  | .producerResultWritten core d => execProducerResultWritten core d s
  | .vectorRowStep core => execVectorRowStep core s
  | .mmulArrayIssue core y => execMmulArrayIssue core y s
  | .mmulRowEntry core y => execMmulRowEntry core y s
  | .drainRow core y => execDrainRow core y s
  | .accessAtHome core id => execAccessAtHome core id s
  | .engineRaceTrap core => execEngineRaceTrap core s
  | .eraChange => execEraChange s
  | .metadataWaitTimeout core id => execMetadataWaitTimeout core id s
  | .versionCommitComplete core => execVersionCommitComplete core s
  | .engineChunkWrite core cmd => execEngineChunkWrite core cmd s
  | .engineCompletion core cmd => execEngineCompletion core cmd s
  | .residencyWaitTimeout core cmd => execResidencyWaitTimeout core cmd s
  | .residencyWaitResume core w => execResidencyWaitResume core w s
  | .place p shd => execPlace p shd s
  | .redu p shd => execRedu p shd s
  | .redo p shd => execRedo p shd s
  | .loadRequest p len => execLoadRequest p len s
  | .loadData core id data => execLoadData core id data s
  | .store p => execStore p s
  | .atomic p op wide v cmp => execAtomic p op wide v cmp s
  | .atomicReply core id old => execAtomicReply core id old s
  | .rarrive p => execRarrive p s
  | .debugForwarding p => execDebugForwarding p s
  | .barrierArrival core bar round launch src => execBarrierArrival core bar round launch src s
  | .acknowledgement pdc psn gap ecn delay => execAcknowledgement pdc psn gap ecn delay s
  | .trimmedPacket port pdc node psn => execTrimmedPacket port pdc node psn s
  | .nack pdc psn => execNack pdc psn s
  | .retransmissionTimeout pdc psn => execRetransmissionTimeout pdc psn s
  | .packetFail pdc psn why => execPacketFail pdc psn why s
  | .notReadyReply pdc psn => execNotReadyReply pdc psn s
  | .notReadyRetransmit pdc psn => execNotReadyRetransmit pdc psn s
  | .staleReply pdc psn => execStaleReply pdc psn s
  | .transitPacket port t => execTransitPacket port t s
  | .laneFailure port lane => execLaneFailure port lane s
  | .portDown port info => execPortDown port info s
  | .portRetrainComplete port ok => execPortRetrainComplete port ok s
  | .flitDelivery core msg flit data => execFlitDelivery core msg flit data s
  | .dieBridgeFailure => execDieBridgeFailure s
  | .uncorrectableError core e => execUncorrectableError core e s
  | .fenceCore core => execFenceCore core s
  | .timeSyncMessage msg ppm => execTimeSyncMessage msg ppm s
  | .sageWatchdog g => execSageWatchdog g s
  | .stopRecordWrite core => execStopRecordWrite core s
  | .serviceResume core => execServiceResume core s
  | .convertToTrap core => execConvertToTrap core s
  | .preemptionRequest core d => execPreemptionRequest core d s
  | .forcedSaveDeadline core => execForcedSaveDeadline core s
  | .drainLimitExpiry core => execDrainLimitExpiry core s
  | .saveImageWrite core buf => execSaveImageWrite core buf s
  | .svcReply core answer => execSvcReply core answer s
  | .hostCxlMemAccess addr req => execHostCxlMemAccess addr req s
  | .flipToHostBias slice frame => execFlipToHostBias slice frame s
  | .flipToDeviceBias slice frame => execFlipToDeviceBias slice frame s
  | .readBias slice frame => execReadBias slice frame s
  | .biasFlipComplete slice => execBiasFlipComplete slice s
  | .tinvRecord slice ctx index => execTinvRecord slice ctx index s
  | .tinvRuEntry slice ctx index ru => execTinvRuEntry slice ctx index ru s
  | .tinvContext slice ctx => execTinvContext slice ctx s
  | .tinvDevice slice => execTinvDevice slice s
  | .invalidationComplete slice => execInvalidationComplete slice s
  | .devsum addr => execDevsum addr s
  | .devsumComplete => execDevsumComplete s
  | .boot die => execBoot die s
  | .getMeasurements request => execGetMeasurements request s
  | .challenge request => execChallenge request s
  | .executeWord core c w => execExecuteWord core c w s
  | .debugHalt core => execDebugHalt core s
  | .haltBoundaryTimeout core c => execHaltBoundaryTimeout core c s
  | .huazuHalt h => execHuazuHalt h s
  | .huazuResume h => execHuazuResume h s
  | .huazuRead h => execHuazuRead h s
  | .huazuWrite h => execHuazuWrite h s
  | .huazuDevsum h => execHuazuDevsum h s
  | .huazuReply h => execHuazuReply h s
  | .huazuResend seq => execHuazuResend seq s
  | .sample core => execSample core s
  | .controlRegisterWrite r v => execControlRegisterWrite r v s
  | .waitctTimeout core => execWaitctTimeout core s
  | .clockThrottle mhz => execClockThrottle mhz s
  | .frameLockInstall slice old new frames => execFrameLockInstall slice old new frames s
  | .frameLockRelease slice old => execFrameLockRelease slice old s
  | .redirectionRemove slice old => execRedirectionRemove slice old s
  | .drainResidTrap core y => execDrainResidTrap core y s
  | .debugViewAccess core offset write len => execDebugViewAccess core offset write len s
  | .waitdTargetReached core c => execWaitdTargetReached core c s
  | .engineWatchStop core => execEngineWatchStop core s

end Sys2Proof.Machine
end

