-- ==== Sys2Proof/Machine/Run.lean ====
section
/-!
DEFINITION. How an agent moves: a cluster fetches, decodes and issues its next word (R34, R55), alone or in a lockstep group (R59, R60), or
executes the word of DXW (R330); a Sage core executes its next word (R275); an event happens.
-/

namespace Sys2Proof.Machine

/-- The state with cluster `k` of core `n` as the one whose word is meant. -/
def State.focus (s : State) (n : Nat) (k : Cluster) : State := { s with core := n, cluster := k }

/-- What cluster `k` has next: the word of DXW, or the word at its program counter. -/
def State.nextWord (s : State) (n : Nat) (k : Cluster) : Except Hold (Option Nat × Word) :=
  let c := s.coreAt n
  if c.executes k then .ok (none, c.dxwWord)
  else
    match s.fetch n k (c.cl k).pc with
    | .ok (a, w) => .ok (some a, w)
    | .error h => .error h

/-- The caches after a fetch (R164, R170): the instruction cache may hold the word, the translation caches what led to it. -/
def State.cached (s : State) (n : Nat) (k : Cluster) (a : Option Nat) (w : Word) : State :=
  match a with
  | some a =>
    let s := if a = farWord then s else s.setCoreAt n { s.coreAt n with icache := (s.coreAt n).icache.put a (w, s.codeKey n) }
    let h := (s.coreAt n).cr.ch
    match s.locate (s.viewer n) (s.record (s.viewer n) (handleIndex h)) h 3 [((s.coreAt n).cl k).pc, (clusterIndex k : Int), 0, 0] false with
    | .ok p => s.cacheUse (s.viewer n) h [p]
    | .error _ => s
  | none => s

/-- A word issued by the focused cluster: its meaning, or the ILLEGAL of a word that is no instruction (R361). -/
def State.issue (s : State) (w : Word) : Host.Outcome State Fault Refusal :=
  match decode w with
  | .ok d => exec d.instr s
  | .error .xfn => .next (s.settle (.error (ilg (if opAllowed (w.extractLsb' 23 8).toNat s.cluster then 0x0E else 0x02))))
  | .error _ => execIllegalRsvd w s

/-- Is an instruction a plain access of cluster A, which enters its queues and is cancelled with them (R176, R290)? -/
def isQueued : Instr → Bool
  | .ld _ _ _ _ _ _ _ _ | .ldAcq _ _ _ _ _ _ _ _ | .ldo _ _ _ _ | .ldoS _ _ _ _ => true
  | .st _ _ _ _ _ _ _ | .stoB _ _ _ | .stoH _ _ _ | .stoW _ _ _ | .sto _ _ _ => true
  | .qrd _ _ _ _ _ _ _ _ | .qwr _ _ _ _ _ _ _ _ | .mark => true
  | _ => false

/-- Has cluster `k` an access that may still stop its task precisely: it has not passed translation at another node (R270), its check in mode 1 is to come
(R219), or it is a write for which the version may have no room left (R188)? -/
def Core.unresolved (c : Core) (k : Cluster) : Bool :=
  c.accesses.any fun y => y.cluster = k && ((y.mayStop && (y.mode = 1 || y.parts.any Part.isRemote)) ||
    y.op.isCommand || (y.versioned && y.before.isSome && decide (c.vresLines < (c.heldLines ++ c.queuedLines k).eraseDups.length)))

/-- Does a word of cluster `k` not issue yet: after an access that may still stop precisely it waits, but for plain accesses, since no later word of a cluster
whose word stops has issued, and a later access is cancelled (R290; log 83)? -/
def State.behindFault (s : State) (n : Nat) (k : Cluster) (w : Word) : Bool :=
  (s.coreAt n).unresolved k && (w.getLsbD 31 || !(match decode w with
    | .ok d => isQueued d.instr
    | .error _ => false))

/-- The outcome of the next word of cluster `k` of core `n` on its own. The word after a stamped MMUL is held until that has issued (R227). -/
def State.attempt (s : State) (n : Nat) (k : Cluster) : Host.Outcome State Fault Refusal :=
  let u := s.focus n k
  if k = .M ∧ (s.coreAt n).stampHeld then .next (u.waited 0 0)
  else
    match s.nextWord n k with
    | .ok (a, w) =>
      if s.behindFault n k w then .next (u.waited 0 0)
      else
        match (u.cached n k a w).issue w with
        | .next t => .next (if a = some farWord ∧ ((t.coreAt n).cl k).since.isNone then t.dropAsks n (askFetch k) else t)
        | o => o
    | .error h => .next ((u.askForFetch n k).settle (.error h))

/-- The state after an attempt; a word that ends in a fault or a refusal leaves the state. -/
def State.attempted (s : State) (n : Nat) (k : Cluster) : State :=
  match s.attempt n k with
  | .next t => t
  | _ => s

/-- Has a cluster's next word S set (R59)? A cluster whose word cannot be fetched has none. -/
def State.syncNext (s : State) (n : Nat) (k : Cluster) : Bool :=
  match s.nextWord n k with
  | .ok (_, w) => w.getLsbD 31
  | .error _ => false

/-- The running clusters in the order C, A, V, M. -/
def Core.runningClusters (c : Core) : List Cluster := [Cluster.C, .A, .V, .M].filter fun k => (c.cl k).running

/-- Has cluster `k`'s word issued in going to this state: it waits no longer? -/
def State.didIssue (t : State) (n : Nat) (k : Cluster) : Bool := ((t.coreAt n).cl k).since.isNone

/-- Did an attempt stop the task? -/
def State.didStop (t : State) (n : Nat) : Bool := (t.coreAt n).stop.isSome

/-- Words issued one after another in one cycle, up to a stop; nothing if one of them waits. -/
def State.issueAll (s : State) (n : Nat) : List Cluster → Option State
  | [] => some s
  | k :: r =>
    if s.didStop n then some s
    else
      let t := s.attempted n k
      if t.didIssue n k then t.issueAll n r else none

/-- The stop that a cluster's word takes in this cycle, as the cluster's word finds the state at its beginning. -/
def State.stopOf (s : State) (n : Nat) (k : Cluster) : Option Stop := ((s.attempted n k).coreAt n).stop

/-- The members of a group whose words complete. -/
def State.completing (s : State) (n : Nat) (ks : List Cluster) : List Cluster := ks.filter fun k => (s.stopOf n k).isNone

/-- The stop that counts among those of a group: a trap before a restartable fault, and the first in the order C, A, V, M (R291). -/
def State.groupStop (s : State) (n : Nat) (ks : List Cluster) : Option (Cluster × Stop) :=
  let all := ks.filterMap fun k => (s.stopOf n k).map fun st => (k, st)
  match all.find? fun e => decide (e.2.kind ≠ .fault) with
  | some e => some e
  | none => all.head?

/-- The state after the words of the others have completed, with the stop that counts taken (R291). -/
def State.stopGroup (t : State) (n : Nat) : Option (Cluster × Stop) → State
  | none => t
  | some (k, st) =>
    if t.didStop n then t
    else
      let u := (t.focus n k).stopWith n st
      if st.kind = .fault then u.rearm else u

/-- Clusters that form a lockstep group, and wait for no other (R59). -/
def Core.locked (c : Core) (ks : List Cluster) : Core :=
  ks.foldl (fun c k => c.setCl k { c.cl k with lock := true, syncWait := false }) c

/-- Clusters that count against SYNCTO, from now on (R61). -/
def Core.syncing (c : Core) (now : Nat) (ks : List Cluster) : Core :=
  ks.foldl (fun c k =>
    let x := c.cl k
    c.setCl k { x with syncSince := match x.syncSince with
      | some t => some t
      | none => some now }) c

/-- A cluster that waits at an S word for the others (R59). -/
def Core.syncWaits (c : Core) (now : Nat) (k : Cluster) : Core :=
  (c.setCl k { c.cl k with lock := false, syncWait := true }).syncing now [k]

/-- The part of a word that goes on while its group waits: a member that cannot issue keeps how far it has got. -/
def State.progress (s : State) (n : Nat) : List Cluster → State
  | [] => s
  | k :: r =>
    let t := s.attempted n k
    (if t.didIssue n k then s else t).progress n r

/-- A lockstep group with all its next words S: all issue in one cycle, or none does (R59). Cluster M's hold after a stamped MMUL is no sync wait (R82). -/
def State.groupStep (s : State) (n : Nat) (ks : List Cluster) : State :=
  let tried := ks.filter fun k => !(k = .M && (s.coreAt n).stampHeld)
  let s := s.setCoreAt n ((s.coreAt n).locked ks)
  let ready := decide (tried = ks) && ks.all fun k => (s.attempted n k).didIssue n k
  let all := if ready then
      (match s.issueAll n (s.completing n ks) with
       | some t => some t
       | none => s.issueAll n (s.completing n ks.reverse))
    else none
  match all with
  | some t =>
    let t := t.stopGroup n (s.groupStop n ks)
    t.setCoreAt n ((ks.foldl (fun c k =>
      let x := c.cl k
      c.setCl k { x with lock := x.running && c.stop.isNone, syncWait := false }) (t.coreAt n)))
  | none =>
    let s := s.progress n tried
    s.setCoreAt n ((s.coreAt n).syncing s.dcc tried)

/-- The lockstep group of a core dissolved (R59). -/
def Core.dissolve (c : Core) : Core :=
  allClusters.foldl (fun c k => c.setCl k { c.cl k with lock := false }) c

/-- The members of the group of cluster `k`: those in lockstep with it. -/
def Core.group (c : Core) : List Cluster := c.runningClusters.filter fun k => (c.cl k).lock

/-- The word that a stopped cluster re-executes alone, its sync wait counted as satisfied (R291): while it cannot issue it is counted (R61). -/
def State.soloStep (s : State) (n : Nat) (k : Cluster) : Host.Outcome State Fault Refusal :=
  match (s.setCoreAt n ((s.coreAt n).setCl k { (s.coreAt n).cl k with syncWait := false })).attempt n k with
  | .next t => .next (if t.didIssue n k || t.didStop n then t else t.setCoreAt n ((t.coreAt n).syncing s.dcc [k]))
  | o => o

/-- A cluster whose next word has S set (R59, R60): with every running cluster, where all have an S word next; with its group; or waiting. One that is alone
in running issues as a group of one, and stays one (R59, R60; DESIGN CHOICE, log 84). -/
def State.syncStep (s : State) (n : Nat) (k : Cluster) : Host.Outcome State Fault Refusal :=
  let c := s.coreAt n
  let run := c.runningClusters
  let members := if run.all (s.syncNext n) then run
    else if (c.cl k).lock && c.group.all (s.syncNext n) then c.group
    else []
  if members = [] then .next (s.setCoreAt n ((if (c.cl k).lock then c.dissolve else c).syncWaits s.dcc k))
  else .next (s.groupStep n members)

/-- A step of cluster `k` of core `n`. -/
def State.wordStep (s : State) (n : Nat) (k : Cluster) : Host.Outcome State Fault Refusal :=
  let c := s.coreAt n
  if c.executes k then s.attempt n k
  else if !c.issues k ∨ (k = .M ∧ c.stampHeld) then .next s
  else if c.owedLate s.dcc then .next (s.takeOwed n ((c.pendingTrap.map Stop.debug).getD false))
  else if s.syncNext n k then (if (c.cl k).satisfied then s.soloStep n k else s.syncStep n k)
  else if (c.cl k).lock then (s.setCoreAt n c.dissolve).attempt n k
  else s.attempt n k

/-- A step of Sage core `g` (R275, R286): a word beyond its memory, or one that is no G instruction, stops it. -/
def State.sageStep (s : State) (g : Nat) : Host.Outcome State Fault Refusal :=
  let x := s.sageAt g
  let s := { s with sage := g }
  if !x.running then .next s
  else if x.pc < 0 ∨ 65536 ≤ x.pc then .next s.stopSage
  else
    match decodeSage (BitVec.ofNat 32 (x.imem.read x.pc.toNat 4)) with
    | .ok i => exec i s
    | .error _ => execNotAGInstruction (BitVec.ofNat 32 (x.imem.read x.pc.toNat 4)) s

/-- What the mover of this step does. -/
def State.move (s : State) : Host.Outcome State Fault Refusal :=
  match s.mover with
  | .word n k => s.wordStep n k
  | .sage g => s.sageStep g
  | .event e => runEvent e s

/-- The stamped MMULs that wait for their cycle in the pending slots of tasks that run: stamp, core, array (R82). -/
def State.stamped (s : State) : List (Nat × Nat × Bool) :=
  (s.cores.cells.map fun (e : Nat × Core) =>
    if e.2.busy && e.2.stop.isNone && e.2.save.isNone then
      [false, true].filterMap fun y => match (e.2.array y).pend with
        | some p => if p.stamp = 0 then none else some (p.stamp.toNat, e.1, y)
        | none => none
    else []).flatten

/-- The first of them with its stamp from cycle `now` to `t`. -/
def firstDue (now t : Nat) : List (Nat × Nat × Bool) → Option (Nat × Nat × Bool)
  | [] => none
  | e :: r =>
    match firstDue now t r with
    | none => if now ≤ e.1 ∧ e.1 ≤ t then some e else none
    | some f => if now ≤ e.1 ∧ e.1 ≤ f.1 then some e else some f

/-- DCC and the mover of the next step: some time on, and any agent; but no later than the cycle of a stamped MMUL, which issues or misses in that very cycle
(R82; log 1, log 2). -/
def State.nextCycle (s : State) : Nat × Mover :=
  let t := s.dcc + 1 + Config.dccAdvance s.steps
  match firstDue s.dcc t s.stamped with
  | some (d, n, y) => (d, .event (.mmulArrayIssue n (if y then .Y else .X)))
  | none => (t, Config.nextMover s.steps)

/-- The counters, with an error that has been corrected (R326). -/
def State.countersNow (s : State) : Tab Nat :=
  match Config.corrected s.steps with
  | some u => if 1 ≤ u ∧ u ≤ 10 then (s.count (keyCorrectable u)).counters else s.counters
  | none => s.counters

/-- Time goes on, Chervil moves its flits, packets that wait at the source are tried again (R282), an error that has been corrected is counted (R326), and
another agent is next (log 1, log 2, log 67). -/
def State.pass (s : State) : State :=
  let m := s.meshCycle
  let t := s.launchAll
  let next := s.nextCycle
  { s with
    steps := s.steps + 1, dcc := next.1, mover := next.2, flits := m.flits
    planeTurns := m.planeTurns, throttles := m.throttles, counters := s.countersNow, pdcs := t.pdcs, outbox := t.outbox
    ports := t.ports }

/-- A code object of the scratchpad whose four sections are 64 bytes long: its record, in the layout of R148, as withFetchWord places it. -/
def codeRecordBits : Nat :=
  packFields [(0, 37), (0, 37), (64, 20), (4, 20), (1, 20), (1, 20), (64, 36), (0, 36), (0, 36), (0, 16), (8, 4), (0, 16), (0, 4), (1, 2), (0, 2), (1, 2),
    (9, 4), (0, 2), (0, 160), (0, 5), (1, 1), (0, 12)]

/-- The cluster a word is placed in: the first of C, A, V, M that may execute it (R359). -/
def placeCluster (w : Word) : Cluster :=
  ([Cluster.C, .A, .V, .M].find? fun k => opAllowed (w.extractLsb' 23 8).toNat k).getD .C

/-- A core with a task that runs a code object of its scratchpad, whose section of cluster `k` begins with the word. -/
def Core.withWord (c : Core) (k : Cluster) (w : Word) : Core :=
  let c :=
    { c with
      busy := true
      started := true
      stop := none
      save := none
      halting := false
      dxw := 0
      cr := { c.cr with ch := 0xFFF00000, coff := 0, state := .running }
      scratch := (c.scratch.write 0x3FC000 64 codeRecordBits).write (64 * clusterIndex k) 4 w.toNat }
  let c := allClusters.foldl (fun c j => c.setCl j { c.cl j with running := decide (j = k) }) c
  c.setCl k { c.cl k with pc := 0, running := true, stage := 0, since := none, lock := false, syncWait := false, satisfied := false }

/-- Core 0 with a task at this word, which moves next. -/
def State.withCoreWord (s : State) (w : Word) : State :=
  { s.setCoreAt 0 ((s.coreAt 0).withWord (placeCluster w) w) with mover := .word 0 (placeCluster w) }

/-- Sage core 0 running at this word, which moves next. -/
def State.withSageWord (s : State) (w : Word) : State :=
  { s.setSageAt 0 { s.sageAt 0 with running := true, pc := 0, imem := (s.sageAt 0).imem.write 0 4 w.toNat } with mover := .sage 0 }

/-- The word stored where the next step fetches it: a word that a Sage core alone executes in Sage core 0, any other in core 0 (log 9). -/
def State.placeWord (s : State) (w : Word) : State :=
  match decode w, decodeSage w with
  | .error _, .ok _ => s.withSageWord w
  | _, _ => s.withCoreWord w

end Sys2Proof.Machine
end

