-- ==== Sys2Proof/Machine/Step.lean ====
section
/-!
DEFINITION. One step of the device, and the state in which a given word is the next the device executes.
-/

namespace Sys2Proof.Machine

/-- One step: the agent whose turn it is moves, and time goes on. -/
def step (s : State) : Host.Outcome State Fault Refusal :=
  match s.move with
  | .next t => .next t.pass
  | .fault f => .fault f
  | .refused r => .refused r

/-- The state with the instruction of bits `w` where the next step fetches it (log 9, log 10). -/
def State.withFetchWord (s : State) (nbits w : Nat) : State := s.placeWord (BitVec.ofNat 32 (w % 2 ^ nbits))

end Sys2Proof.Machine
end

