-- ==== Sys2Proof/Safety.lean ====
section
/-!
DEFINITION. What counts as a safe step, the states reachable by steps, and the groups of instructions and of states that the frames name.
-/

namespace Sys2Proof.Machine

/-- The step goes on: it ends in a next state. -/
def Goes (s : State) : Prop := ∃ t, step s = .next t

/-- Every step from states of `inv` that goes on stays in `inv`. -/
def KeptBySteps (inv : State → Prop) : Prop := ∀ s t, inv s → step s = .next t → inv t

/-- The states that steps reach from `s`. -/
inductive Reaches (s : State) : State → Prop where
  | here : Reaches s s
  | next (t u : State) : Reaches s t → step t = .next u → Reaches s u

/-- The focused cluster's word runs undisturbed: its task runs on the core, is not stopped, saved or halted, and the word has not waited. -/
def State.undisturbed (s : State) : Bool :=
  s.cur.busy && s.cur.stop.isNone && s.cur.save.isNone && !s.cur.halting && s.cl.since.isNone

/-- The scalar a register word writes, s0 where it writes none; nothing for any other instruction. -/
def registerDest : Instr → Option (BitVec 5)
  | .nop => some 0
  | .add d _ _ _ _ _ | .sub d _ _ _ _ _ | .mul d _ _ _ _ _ | .mulh d _ _ _ _ _ | .mulhu d _ _ _ _ _ => some d
  | .div d _ _ _ _ _ | .divu d _ _ _ _ _ | .rem d _ _ _ _ _ | .remu d _ _ _ _ _ => some d
  | .and d _ _ _ _ | .andn d _ _ _ _ | .or d _ _ _ _ | .xor d _ _ _ _ => some d
  | .sll d _ _ _ _ _ | .srl d _ _ _ _ _ | .sra d _ _ _ _ _ => some d
  | .min d _ _ _ _ _ | .max d _ _ _ _ _ | .minu d _ _ _ _ _ | .maxu d _ _ _ _ _ => some d
  | .mov d _ _ => some d
  | .sel d _ _ _ _ _ _ => some d
  | .addi d _ _ | .muli d _ _ | .andi d _ _ | .ori d _ _ | .xori d _ _ => some d
  | .slli d _ _ | .srli d _ _ | .srai d _ _ => some d
  | .mini d _ _ | .maxi d _ _ | .minui d _ _ | .maxui d _ _ => some d
  | .li d _ | .lih d _ => some d
  | .cmp _ _ _ _ _ _ _ | .pset _ _ _ _ => some 0
  | .cmpiEq _ _ _ | .cmpiNe _ _ _ | .cmpiLt _ _ _ | .cmpiGe _ _ _ | .cmpiLe _ _ _ | .cmpiGt _ _ _ => some 0
  | .cmpiLtu _ _ _ | .cmpiGeu _ _ _ | .cmpiLeu _ _ _ | .cmpiGtu _ _ _ => some 0
  | .b _ _ _ | .bz _ _ | .bnz _ _ | .jmp _ _ | .ret _ _ | .loop _ _ _ _ | .loopi _ _ _ _ => some 0
  | .call d _ | .callr d _ _ => some d
  | .csrr d _ => some d
  | _ => none

/-- The scalar a word of clusters V or M writes, s0 where it writes none; nothing for any other instruction. -/
def arrayDest (i : Instr) : Option (BitVec 5) :=
  match i with
  | .vget d _ _ _ _ => some d
  | .mprog _ d => some d
  | i => if 0x80 ≤ opOf i ∧ opOf i < 0xE0 then some 0 else none

/-- Is it an engine command (R390, R453)? -/
def isEngineWord : Instr → Bool
  | .copy _ _ _ _ | .send _ _ _ _ | .mcast _ _ _ _ | .redw _ _ _ _ => true
  | _ => false

/-- The store queue a word takes rows from (R447). -/
def storeQueue : Instr → Option (BitVec 2)
  | .qwr _ q _ _ _ _ _ _ => some q
  | _ => none

/-- The scalar an access, engine or wait word of cluster A empties for its result, s0 where it has none; nothing for any other instruction. -/
def accessDest : Instr → Option (BitVec 5)
  | .ld _ d _ _ _ _ _ _ | .ldAcq _ d _ _ _ _ _ _ | .ldo _ d _ _ | .ldoS _ d _ _ => some d
  | .st _ _ _ _ _ _ _ | .stRel _ _ _ _ _ _ _ | .stoB _ _ _ | .stoH _ _ _ | .stoW _ _ _ | .sto _ _ _ => some 0
  | .mark | .fence _ _ => some 0
  | .aaddW d _ _ _ _ _ _ r | .aadd d _ _ _ _ _ _ r | .afadd d _ _ _ _ _ _ r | .aandW d _ _ _ _ _ _ r
  | .aand d _ _ _ _ _ _ r | .aorW d _ _ _ _ _ _ r | .aor d _ _ _ _ _ _ r | .axorW d _ _ _ _ _ _ r
  | .axor d _ _ _ _ _ _ r | .aminW d _ _ _ _ _ _ r | .amin d _ _ _ _ _ _ r | .aminuW d _ _ _ _ _ _ r
  | .aminu d _ _ _ _ _ _ r | .amaxW d _ _ _ _ _ _ r | .amax d _ _ _ _ _ _ r | .amaxuW d _ _ _ _ _ _ r
  | .amaxu d _ _ _ _ _ _ r | .axchgW d _ _ _ _ _ _ r | .axchg d _ _ _ _ _ _ r | .acasW d _ _ _ _ _ _ r
  | .acas d _ _ _ _ _ _ r =>
    some (if r then d else 0)
  | .copy d _ _ r | .send d _ _ r | .mcast d _ _ r | .redw d _ _ r => some (if r then d else 0)
  | .qrd _ _ _ _ _ _ _ _ | .qwr _ _ _ _ _ _ _ _ | .waita _ _ _ _ _ => some 0
  | .hinfo d _ _ _ _ _ | .waitc d _ _ | .waitct d _ _ _ _ => some d
  | _ => none

/-- Does the word only change registers and the program counter of a Sage core? -/
def sageRegisterDest : Instr → Option (BitVec 4)
  | .gadd d _ _ | .gsub d _ _ | .gmul d _ _ | .gand d _ _ | .gor d _ _ | .gxor d _ _ | .gsll d _ _ | .gsrl d _ _ => some d
  | .gaddI d _ _ | .gsubI d _ _ | .gmulI d _ _ | .gandI d _ _ | .gorI d _ _ | .gxorI d _ _ | .gsllI d _ _ | .gsrlI d _ _ => some d
  | .gli d _ _ | .gliK d _ _ => some d
  | .gld d _ _ _ _ => some d
  | .gbeq _ _ _ | .gbne _ _ _ | .gblt _ _ _ => some 0
  | .gjmp d _ _ => some d
  | _ => none

end Sys2Proof.Machine
end

