-- ==== Sys2Proof/WellFormed.lean ====
section
/-!
DEFINITION. The well-formed instructions: the words that some cluster, or a Sage core, executes without an ILLEGAL of R361 that the word
alone decides, and the events that name units the device has.
-/

namespace Sys2Proof

/-- Does a word avoid the subcauses of R361 and the operand values that have no encoding of their own? -/
def wordOk (i : Instr) : Bool :=
  (Machine.fieldCheck i).isNone &&
    (match i with
     | .illegal _ => false
     | .ldoS w _ _ _ => decide (w.toNat ≤ 2)
     | .vcvt f _ _ _ _ _ _ => decide (f.toNat ≤ 8)
     | .trap v _ => decide (v.toNat ≤ 14)
     | _ => true)

/-- Do the units a queue, launch or core event names exist (R15, R68)? -/
def unitsOk : Instr → Bool
  | .notifyWrite offset _ => decide (offset < 2 ^ 23)
  | .mapQueue slot _ => decide (slot < 128)
  | .unmapQueue slot => decide (slot < 128)
  | .unmapComplete slot => decide (slot < 128)
  | .launchAccept slot => decide (slot < 128)
  | .taskPop die => decide (die < 2)
  | .gangReservation die => decide (die < 2)
  | .ageingInterval slot => decide (slot < 128)
  | .firstFetch core => decide (core < 64)
  | .throttleUpdate quad _ _ => decide (quad < 16)
  | .synctoExpiry core => decide (core < 64)
  | .femodeLimitExpiry core _ => decide (core < 64)
  | .producerResultWritten core _ => decide (core < 64)
  | .vectorRowStep core => decide (core < 64)
  | .mmulArrayIssue core _ => decide (core < 64)
  | .mmulRowEntry core _ => decide (core < 64)
  | .drainRow core _ => decide (core < 64)
  | .accessAtHome core _ => decide (core < 64)
  | .laneFailure port _ => decide (port < 48)
  | .portDown port _ => decide (port < 48)
  | .portRetrainComplete port _ => decide (port < 48)
  | .sageWatchdog g => decide (g < 8)
  | .fenceCore core => decide (core < 64)
  | .uncorrectableError core _ => decide (core < 64)
  | .boot die => decide (die < 2)
  | .flipToHostBias slice _ => decide (slice < 16)
  | .flipToDeviceBias slice _ => decide (slice < 16)
  | .readBias slice _ => decide (slice < 16)
  | _ => true

/-- The well-formed instructions. -/
def WellFormed (i : Instr) : Bool := wordOk i && unitsOk i

end Sys2Proof
end

