-- ==== Sys2Proof/Certificates/Slice0/Obligations.lean ====
section
/-!
DEFINITION. The statements about the machine. The first group says, family by family, that a word or an event whose conditions hold completes, and
with which next state.
-/

open Sys2Proof Sys2Proof.Machine

/-- The register words of R375, R376, R422, R429, R435, R439, R451, R456, R461 and R478 complete in every cluster once their sources can be read
and their destination can be written: d takes the result, and the word retires. The words of the divider (R395) complete once the cluster's divider is
free: d empties with a pending producer, whose result is the truncated quotient or the remainder with the sign of the dividend; a zero divisor
gives all ones and the dividend. -/
def Obligations.RegisterWordsComplete : Prop :=
  ∀ (s : State) (d a b : BitVec 5) (m n w g : Bool) (p : BitVec 3) (x y : DWord),
    s.src a m = .ok x → s.src b n = .ok y → s.aluDest d = .ok () →
    let done := fun v => (Host.Outcome.next ((s.putScal d v).retire) : Host.Outcome State Fault Refusal)
    exec (.add d a b m n w) s = done (narrow w (x + y)) ∧
    exec (.sub d a b m n w) s = done (narrow w (x - y)) ∧
    exec (.mul d a b m n w) s = done (narrow w (x * y)) ∧
    exec (.mulh d a b m n false) s = done (BitVec.ofInt 64 (x.toInt * y.toInt / 2 ^ 64)) ∧
    exec (.mulhu d a b m n false) s = done (BitVec.ofNat 64 (x.toNat * y.toNat / 2 ^ 64)) ∧
    exec (.mulh d a b m n true) s =
      done ((BitVec.ofInt 32 ((x.extractLsb' 0 32).toInt * (y.extractLsb' 0 32).toInt / 2 ^ 32)).signExtend 64) ∧
    exec (.mulhu d a b m n true) s =
      done ((BitVec.ofNat 32 ((x.extractLsb' 0 32).toNat * (y.extractLsb' 0 32).toNat / 2 ^ 32)).signExtend 64) ∧
    exec (.and d a b m n) s = done (x &&& y) ∧
    exec (.andn d a b m n) s = done (x &&& ~~~y) ∧
    exec (.or d a b m n) s = done (x ||| y) ∧
    exec (.xor d a b m n) s = done (x ^^^ y) ∧
    exec (.sll d a b m n false) s = done (x <<< (y.toNat % 64)) ∧
    exec (.srl d a b m n false) s = done (x >>> (y.toNat % 64)) ∧
    exec (.sra d a b m n false) s = done (x.sshiftRight (y.toNat % 64)) ∧
    exec (.sll d a b m n true) s = done (((x.extractLsb' 0 32) <<< (y.toNat % 32)).signExtend 64) ∧
    exec (.srl d a b m n true) s = done (((x.extractLsb' 0 32) >>> (y.toNat % 32)).signExtend 64) ∧
    exec (.sra d a b m n true) s = done (((x.extractLsb' 0 32).sshiftRight (y.toNat % 32)).signExtend 64) ∧
    exec (.min d a b m n w) s = done (if (narrow w x).slt (narrow w y) then narrow w x else narrow w y) ∧
    exec (.max d a b m n w) s = done (if (narrow w x).slt (narrow w y) then narrow w y else narrow w x) ∧
    exec (.minu d a b m n w) s = done (if (narrow w x).ult (narrow w y) then narrow w x else narrow w y) ∧
    exec (.maxu d a b m n w) s = done (if (narrow w x).ult (narrow w y) then narrow w y else narrow w x) ∧
    exec (.mov d a m) s = done x ∧
    exec (.sel d a b m n g p) s = done (if s.predicate p = g then y else x) ∧
    (s.cur.dividing s.cluster = false →
      let begun := fun v => (Host.Outcome.next ((s.produce d true (some v)).retire) : Host.Outcome State Fault Refusal)
      let xw := x.extractLsb' 0 32
      let yw := y.extractLsb' 0 32
      exec (.div d a b m n false) s = begun (if y = 0 then BitVec.allOnes 64 else x.sdiv y) ∧
      exec (.divu d a b m n false) s = begun (if y = 0 then BitVec.allOnes 64 else x / y) ∧
      exec (.rem d a b m n false) s = begun (if y = 0 then x else x.srem y) ∧
      exec (.remu d a b m n false) s = begun (if y = 0 then x else x % y) ∧
      exec (.div d a b m n true) s = begun ((if yw = 0 then BitVec.allOnes 32 else xw.sdiv yw).signExtend 64) ∧
      exec (.divu d a b m n true) s = begun ((if yw = 0 then BitVec.allOnes 32 else xw / yw).signExtend 64) ∧
      exec (.rem d a b m n true) s = begun ((if yw = 0 then xw else xw.srem yw).signExtend 64) ∧
      exec (.remu d a b m n true) s = begun ((if yw = 0 then xw else xw % yw).signExtend 64))

/-- The immediate words (R375, R376, R418, R422, R435, R439, R456, R478) complete in every cluster once their source, read in the mode of
FEMODE.DEF, can be read and d can be written. -/
def Obligations.ImmediateWordsComplete : Prop :=
  ∀ (s : State) (d a : BitVec 5) (i : BitVec 13) (j : BitVec 18) (c : BitVec 6) (x y : DWord),
    s.src a s.femodeDef = .ok x → s.src d s.femodeDef = .ok y → s.aluDest d = .ok () →
    let done := fun v => (Host.Outcome.next ((s.putScal d v).retire) : Host.Outcome State Fault Refusal)
    let k : DWord := i.signExtend 64
    exec (.addi d a i) s = done (x + k) ∧
    exec (.muli d a i) s = done (x * k) ∧
    exec (.andi d a i) s = done (x &&& k) ∧
    exec (.ori d a i) s = done (x ||| k) ∧
    exec (.xori d a i) s = done (x ^^^ k) ∧
    exec (.slli d a c) s = done (x <<< c.toNat) ∧
    exec (.srli d a c) s = done (x >>> c.toNat) ∧
    exec (.srai d a c) s = done (x.sshiftRight c.toNat) ∧
    exec (.mini d a i) s = done (if x.slt k then x else k) ∧
    exec (.maxi d a i) s = done (if x.slt k then k else x) ∧
    exec (.minui d a i) s = done (if x.ult k then x else k) ∧
    exec (.maxui d a i) s = done (if x.ult k then k else x) ∧
    exec (.li d j) s = done (j.signExtend 64) ∧
    exec (.lih d j) s = done ((y <<< 18) ||| j.setWidth 64)

/-- The compares and PSET (R386, R441) complete once their sources can be read, and write one predicate; NOP (R438) only retires. -/
def Obligations.PredicateWordsComplete : Prop :=
  ∀ (s : State) (p q r : BitVec 3) (a b : BitVec 5) (m n w : Bool) (i : BitVec 13) (c : BitVec 4) (x y z : DWord),
    s.src a m = .ok x → s.src b n = .ok y → s.src a s.femodeDef = .ok z →
    let done := fun v => (Host.Outcome.next ((s.putPred p v).retire) : Host.Outcome State Fault Refusal)
    let k : DWord := i.signExtend 64
    (c.toNat < 10 → exec (.cmp p a b m n w c) s = done (holds c.toNat (cmpOperand w c.toNat x) (cmpOperand w c.toNat y))) ∧
    exec (.cmpiEq p a i) s = done (decide (z = k)) ∧
    exec (.cmpiNe p a i) s = done (decide (z ≠ k)) ∧
    exec (.cmpiLt p a i) s = done (z.slt k) ∧
    exec (.cmpiGe p a i) s = done (k.sle z) ∧
    exec (.cmpiLe p a i) s = done (z.sle k) ∧
    exec (.cmpiGt p a i) s = done (k.slt z) ∧
    exec (.cmpiLtu p a i) s = done (z.ult k) ∧
    exec (.cmpiGeu p a i) s = done (k.ule z) ∧
    exec (.cmpiLeu p a i) s = done (z.ule k) ∧
    exec (.cmpiGtu p a i) s = done (k.ult z) ∧
    exec (.pset p q r 0) s = done (s.predicate q && s.predicate r) ∧
    exec (.pset p q r 1) s = done (s.predicate q || s.predicate r) ∧
    exec (.pset p q r 2) s = done (s.predicate q ^^ s.predicate r) ∧
    exec (.pset p q r 3) s = done (s.predicate q && !s.predicate r) ∧
    exec (.pset p q r 4) s = done (s.predicate q || !s.predicate r) ∧
    exec (.pset p q r 5) s = done (s.predicate q == s.predicate r) ∧
    exec (.pset p 0 0 6) s = done true ∧
    exec (.pset p 0 0 7) s = done false ∧
    exec .nop s = .next s.retire

/-- Branches, jumps, calls and returns (R377, R385, R411, R450) complete away from the end word of an active loop: taken, the
cluster continues at the target and the loops whose bodies do not contain it end, except in a call, which ends no loop (R101); not taken, the word
retires. A register target that is no multiple of 4 traps with ALIGN. That RET ends the loops whose bodies do not contain its target, as R450 has it and R101
not, is the model's choice (log 51). -/
def Obligations.BranchWordsComplete : Prop :=
  ∀ (s : State) (d a : BitVec 5) (m g : Bool) (p : BitVec 3) (o : BitVec 19) (i : BitVec 13) (j : BitVec 18) (x z : DWord),
    s.atLoopEnd = false → s.cur.dxw.getLsbD 34 = false → s.src a m = .ok x → s.src a s.femodeDef = .ok z →
    s.aluDest d = .ok () →
    exec (.b p g o) s = .next (if s.predicate p = g then s.retire else s.branchTo (s.cl.pc + 4 * o.toInt)) ∧
    exec (.bz a i) s = .next (if z = 0 then s.branchTo (s.cl.pc + 4 * i.toInt) else s.retire) ∧
    exec (.bnz a i) s = .next (if z = 0 then s.retire else s.branchTo (s.cl.pc + 4 * i.toInt)) ∧
    exec (.call d j) s = .next ((s.putScal d (BitVec.ofInt 64 (s.cl.pc + 4))).goTo (s.cl.pc + 4 * j.toInt)) ∧
    (x.toNat % 4 = 0 →
      exec (.jmp a m) s = .next (s.branchTo x.toNat) ∧
      exec (.ret a m) s = .next (s.branchTo x.toNat) ∧
      exec (.callr d a m) s = .next ((s.putScal d (BitVec.ofInt 64 (s.cl.pc + 4))).goTo x.toNat)) ∧
    (x.toNat % 4 ≠ 0 →
      exec (.jmp a m) s = .next (s.stopPrecise .trap false ⟨0x09, 0, 0, [], 0⟩) ∧
      exec (.ret a m) s = .next (s.stopPrecise .trap false ⟨0x09, 0, 0, [], 0⟩) ∧
      exec (.callr d a m) s = .next (s.stopPrecise .trap false ⟨0x09, 0, 0, [], 0⟩))

/-- LOOP and LOOPI (R420) arm a loop whose end word lies in the section after them, where at most one loop rotates predicates and the trip
count fits; otherwise they trap ILLEGAL with LOOPEND, LOOPSTG or LOOPCNT, in this order. Armed (R99), the loop has its START, END, TRIP and STG, ITER 0, and INNER where
the other loop is active, whose INNER clears; with a trip count of 0 it is not active and the cluster goes on after END, no predicate changing; else
COUNT is n + max(k, 1) − 1, the cluster goes on at START, and of p1 to pk p1 is 1 and the others 0. -/
def Obligations.LoopWordsComplete : Prop :=
  ∀ (s : State) (k : BitVec 3) (l : Bool) (a : BitVec 5) (i : BitVec 13) (t : BitVec 10) (e : Byte) (x : DWord),
    s.atLoopEnd = false → s.cur.dxw.getLsbD 34 = false → s.src a s.femodeDef = .ok x →
    let effect := fun (trip : Nat) (last : Int) =>
      let other := s.cl.loop !l
      if last < s.cl.pc + 4 ∨ (s.cur.sectionLength s : Int) ≤ last then s.stopPrecise .trap false ⟨0x01, 0x07, 0, [], 0⟩
      else if k ≠ 0 ∧ other.act = true ∧ 0 < other.stg then s.stopPrecise .trap false ⟨0x01, 0x08, 0, [], 0⟩
      else if 2 ^ 32 - 1 < trip + max k.toNat 1 - 1 then s.stopPrecise .trap false ⟨0x01, 0x09, 0, [], 0⟩
      else s.armLoop l (s.cl.pc + 4).toNat last.toNat trip k.toNat
    exec (.loop k l a i) s = .next (effect x.toNat (s.cl.pc + 4 * i.toInt)) ∧
    exec (.loopi k l t e) s = .next (effect t.toNat (s.cl.pc + 4 * (e.toNat : Int))) ∧
    (∀ start last n : Nat, s.cl.since = none → s.cur.halting = false → start < 2 ^ 32 → last < 2 ^ 32 → n + max k.toNat 1 - 1 < 2 ^ 32 →
      let u := (s.armLoop l start last n k.toNat).cl
      let this := u.loop l
      this.first = start ∧ this.last = last ∧ this.trip = n ∧ this.stg = k.toNat ∧ this.iter = 0 ∧
      this.inner = (s.cl.loop !l).act ∧ (u.loop !l).inner = false ∧ (u.loop !l).act = (s.cl.loop !l).act ∧
      (u.loop !l).lps = (s.cl.loop !l).lps ∧ (u.loop !l).lpc = (s.cl.loop !l).lpc ∧ (u.loop !l).iter = (s.cl.loop !l).iter ∧
      (u.loop !l).stg = (s.cl.loop !l).stg ∧
      (n = 0 → this.act = false ∧ this.count = 0 ∧ u.pc = (last : Int) + 4 ∧ u.pred = s.cl.pred) ∧
      (0 < n → this.act = true ∧ this.count.toNat = n + max k.toNat 1 - 1 ∧ u.pc = start ∧
        ∀ j, 0 < j → j < 8 → u.pred.getLsbD j = if j ≤ k.toNat then decide (j = 1) else s.cl.pred.getLsbD j))

/-- CSRR, CSRW, CSRS and CSRC (R392, R393) complete for every register of R115: the old value goes to d (s0 in CSRW); W stores the source, S the old value
with its bits set, C with its bits clear. A number not listed traps ILLEGAL CSRNUM, and a write of SHP from outside cluster V
traps ILLEGAL CSRCL; that these traps come before the sources are read is the model's choice (log 40). -/
def Obligations.ControlRegisterWordsComplete : Prop :=
  ∀ (s : State) (d a : BitVec 5) (c : BitVec 12) (v : DWord),
    (∀ old, s.readCsr c.toNat = some old → s.src a s.femodeDef = .ok v → s.aluDest d = .ok () →
      exec (.csrr d c) s = .next ((s.putScal d old).retire) ∧
      (¬(c = 0x028 ∧ s.cluster ≠ .V) →
        exec (.csrs d a c) s = .next (((s.writeCsr c.toNat (old ||| v)).putScal d old).retire) ∧
        exec (.csrc d a c) s = .next (((s.writeCsr c.toNat (old &&& ~~~v)).putScal d old).retire) ∧
        exec (.csrw a c) s = .next (((s.writeCsr c.toNat v).putScal 0 old).retire))) ∧
    (s.readCsr c.toNat = none →
      let trap := (Host.Outcome.next (s.stopPrecise .trap false ⟨0x01, 0x0A, 0, [], 0⟩) : Host.Outcome State Fault Refusal)
      exec (.csrr d c) s = trap ∧ exec (.csrw a c) s = trap ∧ exec (.csrs d a c) s = trap ∧ exec (.csrc d a c) s = trap) ∧
    (s.cluster ≠ .V →
      let trap := (Host.Outcome.next (s.stopPrecise .trap false ⟨0x01, 0x0B, 0, [], 0⟩) : Host.Outcome State Fault Refusal)
      exec (.csrw a 0x028) s = trap ∧ exec (.csrs d a 0x028) s = trap ∧ exec (.csrc d a 0x028) s = trap)

/-- The waits on full/empty bits and on the clock (R476, R477) complete once what they wait for holds: READ and TAKE when the register is full,
TAKE emptying it, PUT when d is empty with no pending producer, EMPTY when the register is empty, WAITD when DCC has reached the
target. Before, the word waits, its program counter and every register staying; WAITD's target stays as it has read it. -/
def Obligations.ScalarWaitWordsComplete : Prop :=
  ∀ (s : State) (d a : BitVec 5) (m : Bool) (v : DWord),
    s.aluDest d = .ok () →
    ((s.view a).2 = true → exec (.waitfRead d a) s = .next ((s.putScal d (s.view a).1).retire)) ∧
    ((s.viewAt (some false) a).2 = true → s.markFree = .ok () →
      exec (.waitfTake d a) s =
        .next (((s.setCur (s.cur.change s.dcc s.cluster a (s.viewAt (some false) a).1 false)).putScal d (s.viewAt (some false) a).1).retire)) ∧
    ((s.viewAt (some true) d).2 = false → s.src a false = .ok v → exec (.waitfPut d a) s = .next ((s.putScal d v).retire)) ∧
    ((s.view a).2 = false → exec (.waitfEmpty a) s = .next s.retire) ∧
    (s.src a m = .ok v → v.toNat ≤ s.dcc → exec (.waitd d a m) s = .next ((s.putScal d (BitVec.ofNat 64 s.dcc)).retire)) ∧
    (s.cl.since = none →
      let waits := fun (kind : Nat) (r : BitVec 5) =>
        (Host.Outcome.next (s.setCl { s.cl with since := some s.dcc, waitKind := kind, waitObj := r.setWidth 64, waitFrom := s.dcc }) :
          Host.Outcome State Fault Refusal)
      ((s.view a).2 = false → exec (.waitfRead d a) s = waits 1 a) ∧
      ((s.viewAt (some false) a).2 = false → exec (.waitfTake d a) s = waits 1 a) ∧
      ((s.viewAt (some true) d).2 = true → exec (.waitfPut d a) s = waits 5 d) ∧
      ((s.view a).2 = true → exec (.waitfEmpty a) s = waits 5 a) ∧
      (s.src a m = .ok v → s.dcc < v.toNat →
        exec (.waitd d a m) s =
          .next (s.setCl { s.cl with since := some s.dcc, waitKind := 7, waitObj := 0, waitFrom := s.dcc, seen := s.reads })))

/-- WAITC and WAITCT (R475) complete with the status of the command's record once it has ended, with 0x100 where its slot may have been used
again, WAITCT with 0x200 at its limit; a command not issued, or a limit of 0, traps with TASKSEQ. WAITA (R474) completes once every chunk that
meets its rectangle has its bit set in the present arrival map, of this node here; it is an acquire (R203). -/
def Obligations.EngineWaitWordsComplete : Prop :=
  ∀ (s : State) (d a b : BitVec 5) (m n : Bool) (x limit : DWord),
    s.cluster = .A → s.src a m = .ok x → s.src b n = .ok limit → s.aluDest d = .ok () →
    let id : BitVec 16 := x.extractLsb' 0 16
    let age := (s.cur.cmdn - id).toNat
    let record := BitVec.ofNat 64 (s.cur.scratch.read (ringSlot id) 1)
    let acquired := fun v => (Host.Outcome.next (((s.acquireCommand id).putScal d v).retire) : Host.Outcome State Fault Refusal)
    let trap := (Host.Outcome.next (s.stopPrecise .trap false ⟨0x04, 0, 0, [], 0⟩) : Host.Outcome State Fault Refusal)
    (0 < age → age ≤ 128 → s.cur.inFlight id = false →
      exec (.waitc d a m) s = acquired record ∧ (limit ≠ 0 → exec (.waitct d a b m n) s = acquired record)) ∧
    (128 < age → age ≤ 2 ^ 15 →
      exec (.waitc d a m) s = acquired 0x100 ∧ (limit ≠ 0 → exec (.waitct d a b m n) s = acquired 0x100)) ∧
    (0 < age → age ≤ 128 → s.cur.inFlight id = true → limit ≠ 0 → s.waitedFor limit.toNat = true →
      exec (.waitct d a b m n) s = .next ((s.putScal d 0x200).retire)) ∧
    (age = 0 ∨ 2 ^ 15 < age → exec (.waitc d a m) s = trap ∧ exec (.waitct d a b m n) s = trap) ∧
    (limit = 0 → exec (.waitct d a b m n) s = trap) ∧
    (∀ (e : DWord) (amap : BitVec 32) (gs : List Nat) (ps : List Part),
      s.src d s.femodeDef = .ok e → s.cl.found = [] → s.waitaChunks x limit e = .ok (amap, gs) → s.mapParts s.here amap gs = .ok ps →
      (∀ p ∈ ps, p.group = none) → (∀ g ∈ gs.zip ps, s.partValue s.cur false g.2 / 2 ^ (g.1 % 8) % 2 = 1) →
      let t := s.cacheUse s.here amap ps
      exec (.waita d a b m n) s =
        .next ((t.setCl { t.cl with waitObj := chunkWord x (t.lastChunk x gs) }).joinMap (agentId s.core s.cluster)).retire)

/-- The loads (R414, R415, R416) complete in cluster A where the handle resolves, the index is aligned, d has no pending producer, every element
translates and no watchpoint strikes: d empties, and the access enters the load queue with the width, extension, acquire and scope of the word. -/
def Obligations.LoadWordsComplete : Prop :=
  ∀ (s : State) (d a b : BitVec 5) (m n x : Bool) (c : BitVec 3) (w : BitVec 2) (i : BitVec 13) (h o g : DWord) (r : ObjRec)
    (ps : List Part) (off : BitVec 32) (bits : Nat) (base : DWord),
    s.cluster = .A → s.src a m = .ok h → s.src b n = .ok o → s.src a s.femodeDef = .ok g → s.destFree d = .ok () →
    bits = 8 * 2 ^ w.toNat →
    (let e := (indexOf base + off.toNat) % 2 ^ 32
     s.lookup s.here (handleOf base) 0 = .ok r ∧ r.alignedAccess e bits = true ∧
       s.locateAll s.here r (handleOf base) 0 (r.elements e bits) = .ok ps ∧ s.watchIssue false (r.linear e) ps = .ok ()) →
    let queued := fun (signed acq : Bool) (scope : BitVec 3) =>
      let t := (s.produce d false none).cacheUse s.here (handleOf base) ps
      (Host.Outcome.next
        (t.enqueue r (handleOf base) 0 (r.linear ((indexOf base + off.toNat) % 2 ^ 32)) (.load d bits signed) ps acq false scope).retire :
          Host.Outcome State Fault Refusal)
    (base = h → off = o.extractLsb' 0 32 → c.toNat < 6 → ¬(x = true ∧ w = 3) →
      exec (.ld w d a b m n c x) s = queued x false c ∧ exec (.ldAcq w d a b m n c x) s = queued x true c) ∧
    (base = g → off = i.signExtend 32 →
      exec (.ldo w d a i) s = queued false false s.cur.cr.dscope ∧ exec (.ldoS w d a i) s = queued true false s.cur.cr.dscope)

/-- The stores (R458, R459) complete in cluster A where the handle resolves for a write, the index is aligned, every element translates
and no watchpoint strikes, a release of quad scope or wider in the last of its parts, after its commit (R49): the write enters the
store queue. -/
def Obligations.StoreWordsComplete : Prop :=
  ∀ (s : State) (d a b : BitVec 5) (m n : Bool) (c : BitVec 3) (w : BitVec 2) (i : BitVec 13) (h o g v : DWord) (r : ObjRec)
    (ps : List Part) (off : BitVec 32) (bits : Nat) (base : DWord),
    s.cluster = .A → s.src a m = .ok h → s.src b n = .ok o → s.src a s.femodeDef = .ok g → s.src d s.femodeDef = .ok v →
    (let e := (indexOf base + off.toNat) % 2 ^ 32
     s.lookup s.here (handleOf base) 1 = .ok r ∧ r.kind ≠ 2 ∧ r.alignedAccess e bits = true ∧
       s.locateAll s.here r (handleOf base) 1 (r.elements e bits) = .ok ps ∧ s.watchIssue true (r.linear e) ps = .ok ()) →
    let queued := fun (rel : Bool) (scope : BitVec 3) =>
      (Host.Outcome.next
        ((s.cacheUse s.here (handleOf base) ps).enqueue r (handleOf base) 1 (r.linear ((indexOf base + off.toNat) % 2 ^ 32))
          (.store v.toNat) ps false rel scope).retire : Host.Outcome State Fault Refusal)
    (base = h → off = o.extractLsb' 0 32 → bits = 8 * 2 ^ w.toNat → c.toNat < 6 →
      exec (.st w d a b m n c) s = queued false c ∧
      ((2 ≤ c.toNat → 2 ≤ s.cl.stage) → exec (.stRel w d a b m n c) s = queued true c)) ∧
    (base = g → off = i.signExtend 32 →
      (bits = 8 → exec (.stoB d a i) s = queued false s.cur.cr.dscope) ∧
      (bits = 16 → exec (.stoH d a i) s = queued false s.cur.cr.dscope) ∧
      (bits = 32 → exec (.stoW d a i) s = queued false s.cur.cr.dscope) ∧
      (bits = 64 → exec (.sto d a i) s = queued false s.cur.cr.dscope))

/-- A store of 64 bits to a doorbell (R459) enters the store queue as a notify write to the slot that its object leads to where its index is a multiple of 8,
a release of quad scope or wider in the last of its parts, after its commit; a store of any other width or index traps with HPERM. -/
def Obligations.DoorbellStoresNotify : Prop :=
  ∀ (s : State) (d a b : BitVec 5) (m n : Bool) (c : BitVec 3) (w : BitVec 2) (i : BitVec 13) (h o g v base : DWord) (off : BitVec 32) (r : ObjRec),
    s.cluster = .A → s.src a m = .ok h → s.src b n = .ok o → s.src a s.femodeDef = .ok g → s.src d s.femodeDef = .ok v →
    s.lookup s.here (handleOf base) 1 = .ok r → r.kind = 2 →
    let x := (indexOf base + off.toNat) % 2 ^ 32
    let trap := (Host.Outcome.next (s.stopPrecise .trap false ⟨0x14, 0, mkTrapv (handleOf base) 0 1 0, r.linear x, 0⟩) :
      Host.Outcome State Fault Refusal)
    let notify := fun (rel : Bool) (scope : BitVec 3) =>
      (Host.Outcome.next (s.enqueue r (handleOf base) 1 [] (.notify (s.doorbellSlot base) v) [] false rel scope).retire :
        Host.Outcome State Fault Refusal)
    (base = h → off = o.extractLsb' 0 32 → c.toNat < 6 →
      (w = 3 → x % 8 = 0 →
        exec (.st w d a b m n c) s = notify false c ∧
        ((2 ≤ c.toNat → 2 ≤ s.cl.stage) → exec (.stRel w d a b m n c) s = notify true c)) ∧
      (w ≠ 3 ∨ x % 8 ≠ 0 → exec (.st w d a b m n c) s = trap ∧ exec (.stRel w d a b m n c) s = trap)) ∧
    (base = g → off = i.signExtend 32 →
      (x % 8 = 0 → exec (.sto d a i) s = notify false s.cur.cr.dscope) ∧
      (x % 8 ≠ 0 → exec (.sto d a i) s = trap) ∧
      exec (.stoB d a i) s = trap ∧ exec (.stoH d a i) s = trap ∧ exec (.stoW d a i) s = trap)

/-- The atomics (R370 to R374) complete in cluster A on an object of 32-bit elements where the element, and in a 64-bit form the one after it,
translate and make an aligned doubleword, and a reassembly slot is free: the access enters the queue with its operation, its operands and, where r is set,
the destination it empties, and takes a slot.
A release of quad scope or wider completes in the last of its parts, after its commit. -/
def Obligations.AtomicWordsComplete : Prop :=
  ∀ (s : State) (d a b : BitVec 5) (m n ret : Bool) (c : BitVec 3) (q : BitVec 2) (h v cmp : DWord) (r : ObjRec) (p : Part) (ps : List Part)
    (op : AtomOp) (wide : Bool)
    (word : BitVec 5 → BitVec 5 → BitVec 5 → Bool → Bool → BitVec 3 → BitVec 2 → Bool → Instr),
    (word, op, wide) ∈
      [(Instr.aaddW, AtomOp.add, false), (.aadd, .add, true), (.afadd, .fadd, false), (.aandW, .and, false), (.aand, .and, true),
       (.aorW, .or, false), (.aor, .or, true), (.axorW, .xor, false), (.axor, .xor, true), (.aminW, .min, false), (.amin, .min, true),
       (.aminuW, .minu, false), (.aminu, .minu, true), (.amaxW, .max, false), (.amax, .max, true), (.amaxuW, .maxu, false),
       (.amaxu, .maxu, true), (.axchgW, .xchg, false), (.axchg, .xchg, true), (.acasW, .cas, false), (.acas, .cas, true)] →
    s.cluster = .A → s.src a m = .ok h → s.src b n = .ok v → s.src d s.femodeDef = .ok cmp → s.destFree d = .ok () →
    c.toNat < 6 → (ret = false → op ≠ .cas → d = 0) →
    s.lookup s.here (handleOf h) 2 = .ok r → r.eb = 32 →
    s.locate s.here r (handleOf h) 2 (r.linear (indexOf h)) false = .ok p →
    s.locateAll s.here r (handleOf h) 2 (if wide then [r.linear (indexOf h + 1)] else []) = .ok ps →
    pairAligned (p :: ps) = true → s.cur.slotsFree 1 = true →
    s.watchIssue true (r.linear (indexOf h)) (p :: ps) = .ok () →
    (q.getLsbD 1 = true → 2 ≤ c.toNat → 2 ≤ s.cl.stage) →
    let t := (if ret then s.produce d false none else s).cacheUse s.here (handleOf h) (p :: ps)
    let u := t.enqueue r (handleOf h) 2 (r.linear (indexOf h))
      (.atomic op wide v (if op = .cas then cmp else 0) (if ret then some d else none) (signedOld op && !wide)) (p :: ps)
      (q.getLsbD 0) (q.getLsbD 1) c
    exec (word d a b m n c q ret) s = .next (u.setCur (u.cur.takeSlot t.cur.nextId 0)).retire

/-- QRD and QWR (R445, R446, R447) complete in cluster A where the handle resolves, every row is aligned and translates, and the load queue has
room for the rows, or the store queue holds them: a row is one access. -/
def Obligations.RowWordsComplete : Prop :=
  ∀ (s : State) (w : BitVec 2) (q : BitVec 3) (e : BitVec 2) (a b : BitVec 5) (m n : Bool) (c k : BitVec 3) (h v : DWord) (r : ObjRec)
    (ps : List (List Part)) (acc : Nat),
    s.cluster = .A → s.src a m = .ok h → s.src b n = .ok v → c.toNat < 6 →
    s.lookup s.here (handleOf h) acc = .ok r →
    let rows := (List.range (k.toNat + 1)).map (rowCoords r.eb (64 * 2 ^ w.toNat) h v)
    rows.all r.rowAligned = true → s.locateRows r (handleOf h) acc rows = .ok ps →
    s.watchIssue (decide (acc = 8)) (rowCoord (rows.headD [])) ps.flatten = .ok () →
    (acc = 7 → s.cur.slotsFree (ps.filter needsSlot).length = true → s.cur.loadqUsed q.toNat + (k.toNat + 1) ≤ 8 →
      let u := s.cacheUse s.here (handleOf h) ps.flatten
      let t := (rows.zip ps).foldl (fun t x => t.enqueueRow r (handleOf h) q.toNat (rowCoord x.1) x.2 c) u
      exec (.qrd w q a b m n c k) s = .next (t.setCur (t.cur.oneWord u.cur.nextId none)).retire) ∧
    (acc = 8 → r.kind ≠ 2 → k.toNat + 1 ≤ (s.cur.storeq.get [] e.toNat).length →
      let es := s.cur.storeq.get [] e.toNat
      let u := (s.setCur { s.cur with storeq := s.cur.storeq.put e.toNat (es.drop (k.toNat + 1)) }).cacheUse s.here (handleOf h) ps.flatten
      let t := ((rows.zip ps).zip es).foldl
        (fun t x => t.enqueue r (handleOf h) 8 (rowCoord x.1.1) (.store x.2.toNat) x.1.2 false false c) u
      exec (.qwr w e a b m n c k) s = .next (t.setCur (t.cur.oneWord u.cur.nextId (some (e.toNat, es.take (k.toNat + 1))))).retire)

/-- MARK (R421) enters the queues of cluster A; FENCE (R398) enters its cluster's queues, or in cluster M waits for the arrays; where it
orders writes at quad scope or wider it does so in the last of its parts, after its commit. -/
def Obligations.OrderingWordsComplete : Prop :=
  ∀ (s : State) (e : BitVec 5) (c : BitVec 3),
    (s.cluster = .A → exec .mark s = .next (s.enqueueMarker .mark 1).retire) ∧
    (c.toNat < 6 → e ≠ 0 → (e.getLsbD 2 = true ∨ e.getLsbD 3 = true → 2 ≤ c.toNat → 2 ≤ s.cl.stage) →
      (s.cluster ≠ .M → exec (.fence e c) s = .next (s.enqueueMarker (.fence e) c).retire) ∧
      (s.cluster = .M → s.cur.arraysOrdered e = true → exec (.fence e c) s = .next s.retire))

/-- HINFO (R408, R409) completes in cluster A once the record resolves, item 0 whatever its generation: the item's value is the pending result
of d. PUB (R442) completes, in the last of its parts, on a shadowed data object whose generation still matches and of which nothing is being moved:
the frames are exchanged and d takes the handle with the next generation. That PUB does not wait for engine writes to the shadow frames is the model's choice
(log 43). -/
def Obligations.ObjectWordsComplete : Prop :=
  ∀ (s : State) (d a b : BitVec 5) (m n : Bool) (i : BitVec 6) (h ru : DWord) (r : ObjRec),
    s.cluster = .A → s.src a m = .ok h → s.src b n = .ok ru → s.aluDest d = .ok () →
    let v := s.here
    let hd := handleOf h
    (i.toNat < 0x11 → (if i = 0 then s.findRecord v hd 0 else s.freshRecord v hd 0) = .ok r →
      exec (.hinfo d a 0 m false i) s = .next ((s.produce d false (some (s.hinfoValue v hd r i.toNat 0))).cacheUse v hd []).retire) ∧
    (s.freshRecord v hd 0 = .ok r →
      exec (.hinfo d a b m n 0x11) s = .next ((s.produce d false (some (s.ruState v r ru.toNat))).cacheUse v hd []).retire) ∧
    (s.lookup v hd 1 = .ok r → r.sh = true → r.kind = 0 → 2 ≤ s.cl.stage → s.cur.hasAccesses .A = false →
      let address := recordAddr v.root (handleIndex hd)
      let now := ObjRec.ofBits (BitVec.ofNat 512 (s.homeRead address 64))
      s.someMoving v now = false → now.gen = handleGen hd →
      exec (.pub d a m) s =
        .next (((s.exchange v address).putScal d (h.extractLsb' 44 20 ++ BitVec.ofNat 12 (now.gen + 1) ++ h.extractLsb' 0 32)).released
          (agentId s.core .A)).retire)

/-- The engine words (R246, R248, R390, R453) complete in cluster A once there is room for a command. Where no MARK, acquire or FENCE holds them and the
descriptor and its handles pass, the command is in flight under CMDN, and with a reply d takes its number; one without a reply that is held waits in the
queue of cluster A. -/
def Obligations.EngineWordsComplete : Prop :=
  ∀ (s t : State) (d a b : BitVec 5) (reply : Bool) (ha ib : DWord) (x : BitVec 512) (src dst : ObjRec) (fn : BitVec 7)
    (word : BitVec 5 → BitVec 5 → BitVec 5 → Bool → Instr),
    (word, fn) ∈ [(Instr.copy, (0 : BitVec 7)), (.send, 1), (.mcast, 2), (.redw, 3)] →
    s.cluster = .A → s.src a s.femodeDef = .ok ha → s.src b s.femodeDef = .ok ib → s.cur.commandsFull = false → s.destFree d = .ok () →
    (reply = false → d = 0) →
    let me := agentId s.core .A
    let p := { s.engineParty s.core (s.clockOf me) (s.vectorOf me) s.raceMode with viewer := s.here }
    let h : BitVec 32 := ha.extractLsb' 0 32
    (s.cur.commandsHeld = false → (∀ goOn u, goOn t x = .ok u → s.readDescriptor p askCommandWord h ib false goOn = .done u) →
      descOk fn.toNat x = true → t.checkHandles p.viewer fn.toNat x = .ok (src, dst) →
      let u := (t.cacheHandles p.viewer fn.toNat x none).accept fn x src dst
      exec (word d a b reply) s = .next (if reply then u.produce d false (some (s.cur.cmdn.setWidth 64)) else u).retire) ∧
    (s.cur.commandsHeld = true → reply = false → exec (word d a b reply) s = .next (s.queueCommand fn h ib none).retire)

/-- The barrier words (R378 to R383) complete: BSET sets a count from 1 to 65,535; BARV and BSYNC arrive once the cluster's accesses are
performed, at quad scope or wider in the last part after the commit, BSYNC then going on with its wait; BWAIT and that wait complete at a barrier
that has completed the round, an acquire; BSTAT reads a word; BRARV queues a remote arrival. A barrier without a count traps with
TASKSEQ. -/
def Obligations.BarrierWordsComplete : Prop :=
  ∀ (s : State) (d a b : BitVec 5) (m n w : Bool) (c : BitVec 3) (i : BitVec 4) (x y z : DWord),
    s.src a s.femodeDef = .ok x → s.src a m = .ok y → s.src b n = .ok z →
    let bar := s.cur.barrier i
    let round : BitVec 32 := x.extractLsb' 0 32
    let me := agentId s.core s.cluster
    let arrived := (s.setCur (s.cur.setBarrier i (bar.arrive round (BitVec.ofNat 9 me) (s.vectorOf me)).1)).released me
    let acquired := (Host.Outcome.next (s.joinInto me bar.joined).retire : Host.Outcome State Fault Refusal)
    (s.cluster = .C →
      (c.toNat < 6 → x.toNat < 65536 → x ≠ 0 →
        exec (.bset c a i) s = .next (s.setCur (s.cur.setBarrier i (bar.set c (x.extractLsb' 0 16)))).retire) ∧
      (bar.exp ≠ 0 → (2 ≤ bar.scope.toNat → 2 ≤ s.cl.stage) → s.cur.hasAccesses .C = false →
        exec (.barv a i) s = .next arrived.retire ∧ (s.cl.stage ≠ 5 → exec (.bsync a i) s = .next (arrived.atStage 5))) ∧
      (bar.exp ≠ 0 → (bar.compl - round).toNat < 2 ^ 31 → exec (.bwait a i) s = acquired) ∧
      (bar.exp ≠ 0 → (bar.compl - (round + 1)).toNat < 2 ^ 31 → s.cl.stage = 5 → exec (.bsync a i) s = acquired) ∧
      (s.aluDest d = .ok () → exec (.bstat d w i) s = .next ((s.putScal d (bar.word w)).retire)) ∧
      (bar.exp = 0 →
        exec (.barv a i) s = .next (s.stopPrecise .trap false ⟨0x04, 0, 0, [], 0⟩) ∧
        exec (.bwait a i) s = .next (s.stopPrecise .trap false ⟨0x04, 0, 0, [], 0⟩))) ∧
    (s.cluster = .A → c.toNat < 6 → targetReserved y = false → (2 ≤ c.toNat → 2 ≤ s.cl.stage) →
      let node : BitVec 11 := y.extractLsb' 16 11
      let away := if node = 0x7FF ∨ node = s.node then none else some node
      exec (.brarv a b m n c) s =
        .next (s.enqueue .scratchpad 0 0 []
          (.arrive (y.extractLsb' 8 6).toNat (y.extractLsb' 0 4) (z.extractLsb' 0 32) (y.extractLsb' 32 32) away) [] false true c).retire)

/-- SPAWN and JOIN (R46 to R49, R413, R457) complete in cluster C while the pending-spawn buffer has room: they hold an entry, JOIN opening
a join on its slot. A full buffer of 64 entries traps with SPOVF, the domain
code 5, reserved options or a join already open with TASKSEQ. -/
def Obligations.TaskMakingWordsComplete : Prop :=
  ∀ (s : State) (d a b : BitVec 5) (m n : Bool) (o : BitVec 3) (code x y : DWord) (r : ObjRec) (p : Part),
    s.cluster = .C → s.src d s.femodeDef = .ok code → s.src a m = .ok x → s.src b n = .ok y → o ≠ 0 → o ≠ 6 → o ≠ 7 →
    let trap := fun k => (Host.Outcome.next (s.stopPrecise .trap false ⟨k, 0, 0, [], 0⟩) : Host.Outcome State Fault Refusal)
    (o ≠ 5 → y.extractLsb' 5 59 = 0 →
      exec (.spawn d a b m n o) s =
        if 64 ≤ s.cur.spawn.length then trap 0x05
        else .next (s.setCur (s.cur.hold ⟨false, s.cur.child o (code.extractLsb' 0 32) x y, 0, 0⟩)).retire) ∧
    (o = 5 ∨ y.extractLsb' 5 59 ≠ 0 → exec (.spawn d a b m n o) s = trap 0x04) ∧
    (o ≠ 5 → s.cur.openJoin = none →
      s.freshRecord s.here (handleOf x) 1 = .ok r → r.slotOk (indexOf x) = true →
      s.lookup s.here (handleOf x) 1 = .ok r →
      s.locate s.here r (handleOf x) 1 (r.linear (indexOf x)) false = .ok p →
      exec (.join d a b m n o) s =
        if 64 ≤ s.cur.spawn.length then trap 0x05
        else .next (s.setCur { s.cur.hold ⟨true, s.cur.continuation o (code.extractLsb' 0 32) y, handleOf x, x.extractLsb' 0 32⟩ with
          openJoin := some ⟨handleOf x, x.extractLsb' 0 32, false⟩ }).retire) ∧
    (o = 5 ∨ s.cur.openJoin.isSome = true → exec (.join d a b m n o) s = trap 0x04)

/-- The words of a task's clusters and of its end (R49, R52, R57, R58, R170, R297, R319, R387): FORK starts a cluster at an offset of its section;
RDV stops a cluster whose words have completed, and lets C pass when the others have stopped; COMMIT completes when its commit has, or at once
in a task without a version; DONE ends the task after its commit; SVC takes the service's answer; PHINT completes, and begins a save where
one is asked for; IINV drops the cached words of a code object. -/
def Obligations.TaskWordsComplete : Prop :=
  ∀ (s t : State) (d a b : BitVec 5) (m n : Bool) (k : BitVec 2) (i : BitVec 18) (j : BitVec 6) (x y : DWord) (r : ObjRec),
    s.atLoopEnd = false → s.cur.dxw.getLsbD 34 = false → s.cluster = .C → s.src a m = .ok x → s.src b n = .ok y →
    (clusterOf k ≠ .C → (s.cur.cl (clusterOf k)).running = false → 4 * i.toNat < s.cur.sectionLength s →
      exec (.fork k i) s = .next (s.setCur (s.cur.setCl (clusterOf k) ((s.cur.cl (clusterOf k)).fork (4 * i.toNat)))).retire) ∧
    ((∀ c : Cluster, c ≠ .C → (s.cur.cl c).running = false) → exec .rdv s = .next s.retire) ∧
    (s.cur.committing = none → s.cl.stage ≠ 0 ∨ s.cur.vresLines = 0 → exec .commit s = .next s.retire) ∧
    (s.cl.stage = 8 → s.cur.committing = none → s.holdReached s.core = .ok () → s.applyHeld s.core = .ok t → t.holdReached s.core = .ok () →
      exec .done s = .next (t.retire.endTask t.core)) ∧
    (s.cl.stage = 3 → s.aluDest d = .ok () →
      (∀ w v, s.cur.svc = some w → w.answer = some v →
        exec (.svc d a b m n j) s = .next ((s.setCur { s.cur with svc := none }).putScal d v).retire)) ∧
    exec (.phint a b m n) s =
      .next (if s.cur.preempt = none then s.retire else s.retire.beginSave s.core (s.phintSave s.core x y)) ∧
    (s.lookup s.here (x.extractLsb' 0 32) 3 = .ok r →
      exec (.iinv a m) s =
        (let key := objectKey s.here.root (x.extractLsb' 0 32)
         .next (if r.isScratch then s.setCur (s.cur.dropWords (s.fetchedFrom s.here r) key)
           else { s with cores := s.cores.mapValues fun c => c.dropWords (s.fetchedFrom s.here r) key }).retire))

/-- The words that stop their task or cluster (R58, R361, R363, R384, R463): RDV stops clusters A, V and M once their earlier words have completed, its pc
past the word; ILLEGAL and a word with reserved bits set trap with cause ILLEGAL, TRAP with cause
TRAP and TRAPV from v and the code, BRK with cause BRK, as a debug stop in a context that allows debugging. A word with reserved bits in
a cluster its OP is not valid in is OPCL. -/
def Obligations.StoppingWordsStop : Prop :=
  ∀ (s : State) (c : BitVec 23) (v : BitVec 4) (i : BitVec 16) (w : Word),
    (s.cluster ≠ .C → s.atLoopEnd = false → s.cur.dxw.getLsbD 34 = false → s.cur.completed s.cluster = true →
      exec .rdv s = .next s.retire.stopRunning ∧ s.retire.stopRunning.cl.running = false) ∧
    exec (.illegal c) s = .next (s.stopPrecise .trap false ⟨0x01, 0x01, 0, [], 0⟩) ∧
    exec (.trap v c) s = .next (s.stopPrecise .trap false ⟨0x0B, 0, (v ++ c).setWidth 64, [], 0⟩) ∧
    (s.cur.dxw.getLsbD 34 = false →
      exec (.brk i) s =
        .next (if s.cur.ctx.dbg then s.stopPrecise .fault true ⟨0x0C, 0, i.setWidth 64, [], 0⟩
          else s.stopPrecise .trap false ⟨0x0C, 0, i.setWidth 64, [], 0⟩)) ∧
    (decode w = .error .rsvd →
      exec (.illegalRsvd w) s =
        .next (s.stopPrecise .trap false ⟨0x01, if opAllowed (w.extractLsb' 23 8).toNat s.cluster then 0x04 else 0x02, 0, [], 0⟩))

/-- The VR words (R464 to R471) complete in cluster V once no other is in the pipeline, the shape is valid, the scalar to broadcast can be read, the
operation's conditions on formats hold and the queues allow row step 0: that step is done, and of a longer shape the rest is under way.
The word hands its OP, its selectors and its sub field to the row steps; a word of one source reads zero as its second. -/
def Obligations.VectorWordsComplete : Prop :=
  ∀ (s : State) (i : Instr) (op : Byte) (d a b second x : BitVec 5) (sub c p : BitVec 3) (f : BitVec 4) (r t : Bool) (shape : Fmt) (w : DWord),
    let u := BitVec.ofNat 3 r.toNat
    let o := BitVec.ofNat 5 (2 * t.toNat + r.toNat)
    (i, op, second, sub) ∈
      [(Instr.vadd d a b r x, 0x80, b, u), (.vsub d a b r x, 0x81, b, u), (.vmul d a b r x, 0x82, b, u), (.vfma d a b r x, 0x83, b, u),
       (.vfms d a b r x, 0x84, b, u), (.vfnma d a b r x, 0x85, b, u), (.vadds d a b r x, 0x86, b, u), (.vsubs d a b r x, 0x87, b, u),
       (.vmuls d a b r x, 0x88, b, u), (.vdiv d a b r x, 0x89, b, u), (.vabs d a r x, 0x8A, 28, u), (.vneg d a r x, 0x8B, 28, u),
       (.vmin d a b r x, 0x8C, b, u), (.vmax d a b r x, 0x8D, b, u), (.vclamp d a b r x, 0x8E, b, u), (.vrint d a r x, 0x8F, 28, u),
       (.vexp d a x, 0x9A, 28, 0), (.vexp2 d a x, 0x9B, 28, 0), (.vlog d a x, 0x9C, 28, 0), (.vlog2 d a x, 0x9D, 28, 0),
       (.vrcp d a x, 0x9E, 28, 0), (.vrsqrt d a x, 0x9F, 28, 0), (.vsqrt d a x, 0xA0, 28, 0), (.vtanh d a x, 0xA1, 28, 0),
       (.vsigm d a x, 0xA2, 28, 0), (.vsin d a x, 0xA3, 28, 0), (.vcos d a x, 0xA4, 28, 0), (.vcmp d a b c x, 0xA5, b, c),
       (.vsel d a b x, 0xA6, b, 0), (.vand d a b x, 0xA7, b, 0), (.vor d a b x, 0xA8, b, 0), (.vxor d a b x, 0xA9, b, 0),
       (.vandn d a b x, 0xAA, b, 0), (.vnot d a x, 0xAB, 28, 0), (.vsll d a b x, 0xAC, b, 0), (.vsrl d a b x, 0xAD, b, 0),
       (.vsra d a b x, 0xAE, b, 0), (.vrsum d a x, 0xAF, 28, 0), (.vrsumsq d a x, 0xB0, 28, 0), (.vrmax d a x, 0xB1, 28, 0),
       (.vrmin d a x, 0xB2, 28, 0), (.vramax d a x, 0xB3, 28, 0), (.vscan d a x, 0xB4, 28, 0), (.vscanmax d a x, 0xB5, 28, 0),
       (.vscanseg d a b x, 0xB6, b, 0), (.vperm d a b x, 0xB7, b, 0), (.vrote d a b x, 0xB8, b, 0), (.vbcast d a b x, 0xB9, b, 0),
       (.vmov d a x, 0xBA, 28, 0), (.vpopc d a x, 0xBF, 28, 0), (.vcvt f d a t r p x, (0x9#4 ++ f), o, p), (.vcvtN d a t r p x, 0x99, o, p)] →
    fieldCheck i = none → s.cluster = .V → s.cl.stage = 0 → s.cur.vop = none → shapeFormat s.cur.shp = .ok shape →
    (if op = 0x99 ∨ a = 29 ∨ (isConvert op = false ∧ second = 29) then s.src x s.femodeDef = .ok w else w = 0) →
    let v : VecOp :=
      { op := op, d := d, a := a, b := second, sub := sub, shape := s.cur.shp, row := 0, scal := w, desc := w.extractLsb' 0 16 }
    v.shapeOk = .ok () → s.cur.rowReady v = true →
    exec i s = .next (if shpCount s.cur.shp = 1 then s.vectorStep v else (s.vectorStep v).underway)

/-- VGET, VPUT, VSHP and VSHPR (R472, R473) complete in cluster V while no VR word is in the pipeline: VGET reads the element of a row of a tile, of
the head of a load queue, which it takes, or zero; VPUT replaces one; the shape words set SHP. -/
def Obligations.VectorAccessWordsComplete : Prop :=
  ∀ (s : State) (d a b : BitVec 5) (m n : Bool) (r : BitVec 4) (f : Fmt) (k v y : DWord) (g : BitVec 4) (c : BitVec 5) (e : BitVec 4) (head : Row)
    (rest : List Row),
    s.cluster = .V → s.cur.vop = none → shapeFormat s.cur.shp = .ok f → r.toNat < shpCount s.cur.shp → s.src b n = .ok k →
    s.src d s.femodeDef = .ok v → s.src a m = .ok y → s.aluDest d = .ok () →
    let row := shpBase s.cur.shp + r.toNat
    let at_ := k.toNat % f.perRow
    (a.toNat < 16 → exec (.vget d a b n r) s = .next ((s.putScalNext d (elementValue f (s.cur.tileRow a.toNat row) at_)).retire)) ∧
    (16 ≤ a.toNat → a.toNat < 24 → s.cur.loadq.get [] (a.toNat - 16) = head :: rest →
      exec (.vget d a b n r) s =
        .next (((s.setCur (s.cur.takeHeads [a.toNat - 16])).putScalNext d (elementValue f head at_)).retire)) ∧
    (a = 28 → exec (.vget d a b n r) s = .next ((s.putScalNext d 0).retire)) ∧
    (a.toNat < 16 →
      exec (.vput d a b n r) s =
        .next (s.setCur (s.cur.setTileRow a.toNat row (putElement f (s.cur.tileRow a.toNat row) at_ v))).retire) ∧
    exec (.vshp g c e) s = .next (s.setShape (shpWith s.cur.shp g c e)).retire ∧
    exec (.vshpr a m) s = .next (s.setShape (y &&& 0xFFFF0000000F1F0F)).retire

/-- The setting steps of an array (R424, R426, R430 to R434) complete in cluster M once their sources can be read: each changes its own step
register of its own array alone. MPROG reads how far the array has got. -/
def Obligations.MatrixSettingWordsComplete : Prop :=
  ∀ (s : State) (y q w t l r : Bool) (a b : BitVec 5) (n : BitVec 3) (c : BitVec 4) (i : BitVec 13) (u v : DWord),
    s.cluster = .M → s.src a s.femodeDef = .ok u → s.src b s.femodeDef = .ok v →
    let x := s.cur.array y
    let done := fun z => (Host.Outcome.next (s.setArray y z).retire : Host.Outcome State Fault Refusal)
    ((if q then a = 0 else n = 0) →
      exec (.mseta y a b n q w t) s = done { x with regs := { x.regs with ma := setOperand x.regs.ma u v n q w t } } ∧
      exec (.msetb y a b n q w t) s = done { x with regs := { x.regs with mb := setOperand x.regs.mb u v n q w t } }) ∧
    exec (.msetac y a b) s = done { x with regs := { x.regs with ma := setCoords false x.regs.ma u v } } ∧
    exec (.minca y a b) s = done { x with regs := { x.regs with ma := setCoords true x.regs.ma u v } } ∧
    exec (.msetbc y a b) s = done { x with regs := { x.regs with mb := setCoords false x.regs.mb u v } } ∧
    exec (.mincb y a b) s = done { x with regs := { x.regs with mb := setCoords true x.regs.mb u v } } ∧
    (c.getLsbD 3 = y → exec (.msetc y a l r c) s = done { x with regs := { x.regs with mc := setDrain x.regs.mc u l r c } }) ∧
    exec (.msetcc y a b) s = done { x with regs := { x.regs with mc := setCoords false x.regs.mc u v } } ∧
    exec (.mincc y a b) s = done { x with regs := { x.regs with mc := setCoords true x.regs.mc u v } } ∧
    exec (.mfmt y a i) s = done { x with mf := BitVec.ofNat 64 ((u.toNat + i.toNat) % 2 ^ 16) } ∧
    exec (.mstamp y a) s = done { x with ms := u } ∧
    (s.aluDest a = .ok () → exec (.mprog y a) s = .next ((s.putScal a x.mprog).retire))

/-- The acting steps of an array (R235 to R237, R425, R427) complete in cluster M: MMUL enters the free pending slot once its checks pass, unless
its stamp is past or too far ahead, which traps with SMISS; MDRAIN enters the free drain slot with the scales its accumulator recorded, which is
FRESH after it; MZERO zeroes an accumulator no operation uses; MWAIT passes when its arrays have finished. -/
def Obligations.MatrixActingWordsComplete : Prop :=
  ∀ (s t : State) (y both : Bool) (n : BitVec 4) (bits : BitVec 128) (e : MatEntry),
    s.cluster = .M →
    let x := s.cur.array y
    let k := x.regs.accumulator
    let st := t.cur.accState k
    let entryRead := ∀ goOn, s.withEntry (s.entryIndex y) (askWord .M) (fun t => t.waited 0 0) goOn = goOn t bits
    (x.pend = none → (x.ms = 0 ∨ (s.dcc < x.ms.toNat ∧ x.ms.toNat ≤ s.dcc + 2 ^ 32)) → sourceCheck y x.regs = .ok () →
      entryRead → t.checkMmul x.regs bits = .ok e →
      let c := t.cur.openAcc k e.ak (stepField x.regs.ma 224 32) (stepField x.regs.mb 224 32)
      exec (.mmul y) s =
        .next ((t.setCur ({ c with seq := c.seq + 1 } : Core)).setArray y
          { x with pend := some (
            { regs := x.regs, entry := bits, stamp := x.ms, seq := c.seq, pc := t.cl.pc, index := some (s.entryIndex y), checked := true, entered := t.dcc, mode := t.raceMode, steps := [],
              staged := [], waiting := false, since := 0 } : PendingOp) }).retire) ∧
    (x.pend = none → x.ms ≠ 0 → (x.ms.toNat ≤ s.dcc ∨ s.dcc + 2 ^ 32 < x.ms.toNat) →
      exec (.mmul y) s = .next (s.stopPrecise .trap false ⟨0x0D, 0, x.ms, [], 0⟩)) ∧
    ((∀ o ∈ x.ops, o.isDrain = false) → otherArray y (BitVec.ofNat 4 k) = false → entryRead → t.checkDrain x.regs bits = .ok () →
      exec (.mdrain y) s =
        .next ((t.setCur (({ t.cur with seq := t.cur.seq + 1 } : Core).setAccState k { st with fresh := true })).setArray y
          { x with ops := x.ops ++ [
            { isDrain := true, regs := x.regs, entry := bits, seq := t.cur.seq, row := 0, b := [], bScale := [],
              ta := if st.fresh then 0x3F800000 else st.ta, tb := if st.fresh then 0x3F800000 else st.tb,
              waiting := false, since := 0, latched := true, pc := t.cl.pc, mode := t.raceMode, steps := [],
              staged := [] }] }).retire) ∧
    (n.getLsbD 3 = y → x.uses n.toNat = false →
      exec (.mzero y n) s = .next (s.setCur ((s.cur.zeroAcc n.toNat).setAccState n.toNat .start)).retire) ∧
    (¬(y = true ∧ both = true) → s.cur.arrayDone y = true → (both = true → s.cur.arrayDone (!y) = true) →
      exec (.mwait y both) s = .next s.retire)

/-- The register words of a Sage core (R365, R366, R400, R401) complete while it runs: d takes the result, and the core goes on at the next word. -/
def Obligations.SageRegisterWordsComplete : Prop :=
  ∀ (s : State) (d a b : BitVec 4) (i : BitVec 17) (h : BitVec 2) (j : BitVec 16),
    s.curSage.running = true →
    let done := fun v => (Host.Outcome.next (s.setG d v).advanceSage : Host.Outcome State Fault Refusal)
    let x := s.g a
    let y := s.g b
    let k : DWord := i.signExtend 64
    let field : DWord := 0xFFFF#64 <<< (16 * h.toNat)
    exec (.gadd d a b) s = done (x + y) ∧ exec (.gaddI d a i) s = done (x + k) ∧
    exec (.gsub d a b) s = done (x - y) ∧ exec (.gsubI d a i) s = done (x - k) ∧
    exec (.gmul d a b) s = done (x * y) ∧ exec (.gmulI d a i) s = done (x * k) ∧
    exec (.gand d a b) s = done (x &&& y) ∧ exec (.gandI d a i) s = done (x &&& k) ∧
    exec (.gor d a b) s = done (x ||| y) ∧ exec (.gorI d a i) s = done (x ||| k) ∧
    exec (.gxor d a b) s = done (x ^^^ y) ∧ exec (.gxorI d a i) s = done (x ^^^ k) ∧
    exec (.gsll d a b) s = done (x <<< (y.toNat % 64)) ∧ exec (.gsllI d a i) s = done (x <<< (k.toNat % 64)) ∧
    exec (.gsrl d a b) s = done (x >>> (y.toNat % 64)) ∧ exec (.gsrlI d a i) s = done (x >>> (k.toNat % 64)) ∧
    exec (.gli d h j) s = done (j.setWidth 64 <<< (16 * h.toNat)) ∧
    exec (.gliK d h j) s = done ((s.g d &&& ~~~field) ||| (j.setWidth 64 <<< (16 * h.toNat)))

/-- The branches and jumps of a Sage core (R400, R401) complete while it runs: taken, it goes on at the target, a multiple of 4 inside its 64 KB,
GJMP leaving the link; not taken, at the next word. Any other target stops the core, as does a word that is no G instruction (R286, R366). -/
def Obligations.SageBranchWordsComplete : Prop :=
  ∀ (s : State) (d a b : BitVec 4) (o : BitVec 18) (w : Word) (e : Reject),
    s.curSage.running = true →
    let pc := s.curSage.pc
    let valid := fun (t : Int) => t % 4 = 0 ∧ 0 ≤ t ∧ t < 0x10000
    let target := pc + 4 * o.toInt
    let at_ := fun (t : Int) => s.setCurSage { s.curSage with pc := t }
    let branch := fun (taken : Prop) (r : Host.Outcome State Fault Refusal) =>
      (taken → valid target → r = .next (at_ target)) ∧ (¬taken → r = .next s.advanceSage) ∧ (taken → ¬valid target → r = .next s.stopSage)
    branch (s.g a = s.g b) (exec (.gbeq a b o) s) ∧
    branch (s.g a ≠ s.g b) (exec (.gbne a b o) s) ∧
    branch ((s.g a).toInt < (s.g b).toInt) (exec (.gblt a b o) s) ∧
    (let base : Int := if a = 0 then pc else (s.g a).toNat
     (valid (base + 4 * o.toInt) →
       exec (.gjmp d a o) s = .next ((at_ (base + 4 * o.toInt)).setG d (BitVec.ofInt 64 (pc + 4)))) ∧
     (¬valid (base + 4 * o.toInt) → exec (.gjmp d a o) s = .next s.stopSage)) ∧
    (decodeSage w = .error e →
      exec (.notAGInstruction w) s = .next s.stopSage ∧ s.stopSage.curSage.running = false ∧ s.stopSage.curSage.stopped = true)

/-- The loads, stores and register reads of a Sage core (R402 to R405) complete while it runs, on an aligned address of its data memory or of
the device, of either tier, a device access that no lock or flip holds: a store writes its bytes and no other, a load zero-extends. A load or
store beyond its memory, or of bytes the device does not offer, stops the core, as does a store into the event queue. That a device access is performed in
the step of its word is the model's choice (log 47). -/
def Obligations.SageMemoryWordsComplete : Prop :=
  ∀ (s : State) (d a : BitVec 4) (w : BitVec 2) (o : BitVec 14) (r g : Bool) (c : BitVec 12) (t : Nat),
    s.curSage.running = true → ((s.g a).toNat : Int) + o.toInt = t → t % 2 ^ w.toNat = 0 →
    let n := 2 ^ w.toNat
    let v := (s.g d).toNat % 2 ^ (8 * n)
    let x := s.curSage
    let result := fun z => (Host.Outcome.next (s.setG d z).advanceSage : Host.Outcome State Fault Refusal)
    (t + n ≤ 0x40000 → exec (.gld d a false w o) s = result (BitVec.ofNat 64 (x.dmem.read t n))) ∧
    (s.offered t n = true → s.homeHolds (0, t / 64) false = false → exec (.gld d a true w o) s = result (BitVec.ofNat 64 (s.homeRead t n))) ∧
    (0x8000 ≤ t → t + n ≤ 0x40000 →
      exec (.gst d a false false w o) s = .next (s.setCurSage { x with dmem := x.dmem.write t n v }).advanceSage) ∧
    (s.offered t n = true → s.homeHolds (0, t / 64) true = false → exec (.gst d a true r w o) s = .next (s.homeWrite t n v).advanceSage) ∧
    (s.offered t n = false → exec (.gld d a true w o) s = .next s.stopSage ∧ exec (.gst d a true r w o) s = .next s.stopSage) ∧
    (0x40000 < t + n → exec (.gld d a false w o) s = .next s.stopSage ∧ exec (.gst d a false r w o) s = .next s.stopSage) ∧
    (t < 0x8000 → exec (.gst d a false r w o) s = .next s.stopSage) ∧ exec (.gst d a false true w o) s = .next s.stopSage ∧
    exec (.gcsr d a g 0) s =
      .next ((s.setCurSage { x with evDrop := 0 }).setG d (BitVec.ofNat 64 (x.evDrop * 2 ^ 48 + x.evOcc * 2 ^ 32 + x.evHead))).advanceSage ∧
    exec (.gcsr d a g 1) s = result (x.pdown.setWidth 64) ∧
    exec (.gcsr d a g 2) s = result (BitVec.ofNat 64 (s.node.toNat * 8 + s.sage)) ∧
    exec (.gcsr d a g 3) s = result (BitVec.ofNat 64 s.dcc) ∧
    (3 < c.toNat → exec (.gcsr d a g c) s = .next s.stopSage)

/-- The event, transport, port and service words of a Sage core (R280 to R285, R400, R405 to R407) complete while it runs: g15 tells 0 for an effect
and 1 for none. -/
def Obligations.SageControlWordsComplete : Prop :=
  ∀ (s : State) (a b : BitVec 4) (j : BitVec 3) (l : BitVec 14),
    s.curSage.running = true →
    let x := s.curSage
    let report := fun (t : State) (v : DWord) => (Host.Outcome.next (t.setG 15 v).advanceSage : Host.Outcome State Fault Refusal)
    let k := 16384 * s.sage + (s.g a).toNat % 2 ^ 14
    let node := (s.g a).toNat % 2 ^ 11
    let entry := x.routes.get 0 node
    let port := (s.g a).toNat
    let mine := port < 48 ∧ sageOfPort port = s.sage
    let buf := (s.g b).toNat
    (x.evOcc ≠ 0 → exec .gwait s = .next s.advanceSage ∧
      exec .gev s = .next (s.setCurSage
        (({ x with evOcc := x.evOcc - 1, evHead := (x.evHead + 1) % 1024, lastPop := s.dcc } : Sage).setRecord
          (x.dmem.read (x.recordOff 0) 32))).advanceSage) ∧
    (x.evOcc = 0 → exec .gwait s = .next s ∧ exec .gev s = .next (s.setCurSage (x.setRecord 0)).advanceSage) ∧
    ((s.pdc k).isOpen = true →
      exec (.gsetw a b) s = report (s.setPdc k { s.pdc k with cwnd := (max 1152 (min (s.g b).toNat (4 * 2 ^ 20))) / 64 * 64 }) 0 ∧
      exec (.gsetr a b) s = report (s.setPdc k { s.pdc k with rate := min (s.g b).toNat 8000 }) 0) ∧
    ((s.pdc k).isOpen = false → exec (.gsetw a b) s = report s 1 ∧ exec (.gsetr a b) s = report s 1) ∧
    (node ≤ 1057 → entry.getLsbD (43 + 24 * j.toNat) = true →
      exec (.gwgt a b j) s =
        report (s.setCurSage { x with routes := x.routes.put node (withWeight entry j.toNat ((s.g b).extractLsb' 0 4)) }) 0) ∧
    (mine →
      exec (.gportDown a) s = report (s.downPort port 2) 0 ∧
      exec (.gportRetrain a) s = report (s.setPort port { s.port port with retraining := true }) 0) ∧
    (¬mine → exec (.gportDown a) s = report s 1 ∧ exec (.gportRetrain a) s = report s 1) ∧
    (s.g a &&& ~~~(0x3F0F#64) = 0 →
      let arrival := s.arriveAt ((s.g a).extractLsb' 8 6).toNat ((s.g a).extractLsb' 0 4) ((s.g b).extractLsb' 0 32) none
        (BitVec.ofNat 9 (0x170 + s.sage)) .empty
      exec (.gntfy a b) s = report arrival.1 (if arrival.2 then 0 else 1)) ∧
    (port < 16 → exec (.gsvc a b) s = report (s.interrupt port (s.g b)) 0) ∧
    (16 ≤ port → exec (.gsvc a b) s = report s 1) ∧
    (buf < 16 → x.dbgAlloc.has buf = true →
      exec (.gfree b) s = report (s.setCurSage { x with dbgAlloc := x.dbgAlloc.erase buf, dbgSending := x.dbgSending.erase buf }) 0 ∧
      (∀ t psn, 64 ≤ l.toNat → l.toNat ≤ 1024 → l.toNat % 8 = 0 → node ≠ s.node.toNat → node ≤ 1057 →
        s.transmitBy s.sage node 0 (s.debugPacket (x.buffer buf l.toNat)) buf false (64 + s.sage) = .ok t psn →
        exec (.gsend a b l) s = report (t.setCurSage { t.curSage with dbgSending := t.curSage.dbgSending.put buf (pdcFor s.sage node, psn) }) 0)) ∧
    (x.dbgAlloc.has buf = false → exec (.gfree b) s = report s 1 ∧ exec (.gsend a b l) s = report s 1)


/-- The queue events (R68 to R70, R72): a notify write to a mapped slot, an aligned doubleword of its page, moves TAIL forward by at most a full ring and
changes nothing where its value is not newer; it counts as dropped at a free slot and
goes to the descriptor of one being unmapped; a map command is accepted in state FREE of a descriptor that is not mapped and an unmap command in state
MAPPED, any other setting MERR, as where no memory is at the descriptor's address; the Ready records that its ready area holds are taken in as the model
chooses (log 82); unmapping ends with MAPD clear and the slot FREE; an interval with a record ready raises the boost by one, up to 31. -/
def Obligations.QueueEventsComplete : Prop :=
  ∀ (s : State) (slot offset : Nat) (v : DWord),
    slot < 128 → offset / 65536 = slot → offset % 8 = 0 → (64 ≤ slot → s.bridgeFailed = false) →
    let q := s.queue slot
    let a := v.toNat / 64 * 64
    let value : BitVec 32 := v.extractLsb' 0 32
    (q.state = .free → exec (.notifyWrite offset v) s = .next (s.count keyNotifyDrop)) ∧
    (q.state = .mapped → value = q.tail ∨ 2 ^ 31 ≤ (value - q.tail).toNat → exec (.notifyWrite offset v) s = .next s) ∧
    (q.state = .mapped → value ≠ q.tail → (value - q.tail).toNat < 2 ^ 31 → (value - q.head).toNat ≤ 2 ^ q.logn →
      exec (.notifyWrite offset v) s = .next (s.setQueue slot { q with tail := value })) ∧
    (q.state = .mapped → value ≠ q.tail → (value - q.tail).toNat < 2 ^ 31 → 2 ^ q.logn < (value - q.head).toNat →
      exec (.notifyWrite offset v) s = .next ((s.setQueue slot { q with err := 0x01 }).homeWrite (q.mappedAt + 40) 1 0x01)) ∧
    (q.state = .unmapping → exec (.notifyWrite offset v) s = .next (s.pendNotify q.mappedAt value)) ∧
    (q.state = .free → s.offered a 64 = true → s.homeRead (a + 24) 1 / 2 % 2 = 0 → exec (.mapQueue slot v) s = .next ((s.mapSlot slot a).adoptReady slot)) ∧
    (q.state ≠ .free ∨ s.offered a 64 = false ∨ s.homeRead (a + 24) 1 / 2 % 2 = 1 → exec (.mapQueue slot v) s = .next (s.setQueue slot { q with merr := true })) ∧
    (q.state = .mapped →
      exec (.unmapQueue slot) s = .next ((s.setQueue slot { q with merr := false, state := .unmapping, boost := 0 }).writeBack slot)) ∧
    (q.state ≠ .mapped → exec (.unmapQueue slot) s = .next (s.setQueue slot { q with merr := true })) ∧
    (q.state = .unmapping → s.notifyUnderWay slot = false →
      let flags := s.homeRead (q.mappedAt + 24) 1
      exec (.unmapComplete slot) s =
        .next (((s.writeBack slot).homeWrite (q.mappedAt + 24) 1 (flags / 4 * 4 + flags % 2)).setQueue slot { q with state := .free })) ∧
    (q.state = .mapped → (∃ r ∈ s.ready, r.ctx = q.ctx ∧ r.cr.qnum = q.qnum) → q.intervalStart + q.ageus * 1000 ≤ s.dcc →
      exec (.ageingInterval slot) s =
        .next (s.setQueue slot { q with boost := min 31 (q.boost + 1), intervalStart := q.intervalStart + q.ageus * 1000 }))

/-- The launch events (R39, R45, R66, R71, R85, R87): a mapped slot with an entry accepts its next record; a launch with tasks left expands one
task, or a whole gang, where the ready area has room; a launch that is over writes its completion record; a completion record that has waited 10 ms
for its unit is given up with ERR 3. -/
def Obligations.LaunchEventsComplete : Prop :=
  ∀ (s : State) (slot launch k : Nat) (l : Launch) (a : Nat),
    let q := s.queue slot
    (q.state = .mapped → q.err = 0 → q.head ≠ q.tail → s.ringEntry q = .ok a →
      exec (.launchAccept slot) s = .next (s.acceptRecord slot (BitVec.ofNat 1024 (s.homeRead a 128)))) ∧
    (s.launch launch = some l →
      (l.over = true → exec (.launchComplete launch) s = .next (s.writeCompletion launch l)) ∧
      (∀ t, l.heldSince = some t → t + 10000000 ≤ s.dcc →
        exec (.completionRecordTimeout launch) s = .next ((s.queueFails l.ctx l.qnum 0x03).forgetLaunch launch)) ∧
      (s.slotOf l.ctx l.qnum = some k → (s.queue k).state = .mapped → l.status = 0 → l.expanded.length < l.total →
        (s.ready.filter fun r => r.ctx = l.ctx && r.cr.qnum = l.qnum && r.fromExpansion).length < 64 →
        let y := l.nextTask (Config.pick (8 * s.steps + 4) % l.total)
        (l.gangLevel = none → s.liveOf l.ctx l.qnum < (s.queue k).readyn →
          exec (.launchExpansion launch) s = .next (s.expandTask launch (s.queue k).basep none y)) ∧
        (∀ g, l.gangLevel = some g → s.liveOf l.ctx l.qnum + l.inner g ≤ (s.queue k).readyn →
          let first := y / l.inner g * l.inner g
          exec (.launchExpansion launch) s =
            .next ((List.range (l.inner g)).foldl (fun t i =>
              t.expandTask launch (s.queue k).basep (some (launch * 2 ^ 32 + l.linearOf first / l.inner g, l.inner g)) (first + i)) s))))

/-- The scheduler's events (R34, R43, R74 to R79, R260): where no reservation is in the way, the best candidate starts on the best core, or, where it is a
gang's, takes a reservation for its gang; a reservation in the way of a better candidate is released; a gang starts on all its cores together; the first fetch starts a task whose code pointer passes; a quad's rate halves with deflected or
aged flits, down to 1, and else rises by one, up to 16. Which of the two dies' schedulers starts a record of the device and how members get their cores are
the model's choices (logs 61 and 59). -/
def Obligations.SchedulerEventsComplete : Prop :=
  ∀ (s : State) (die n g core quad : Nat) (r : ReadyCr) (v : Reservation) (pairs : List (ReadyCr × Nat)),
    let t := s.refill
    (die < 2 →
      let cores := dieCores die
      let rs := t.ready.filter fun x => x.team.isNone && (t.mappedSlot x).isSome
      ((rs.map (t.inTheWay cores)).flatten = [] →
        t.choose (t.ready.filter fun x => if x.team.isNone then (t.mappedSlot x).isSome && !(t.placesFor cores x).isEmpty
          else t.mayReserve die x) = some r →
        (r.team = none → t.bestCore (t.placesFor cores r) = some n → exec (.taskPop die) s = .next (t.startTask n r)) ∧
        (r.team = some g → exec (.taskPop die) s = .next (t.reserve die r g))) ∧
      (t.choose (rs.filter fun x => !(t.inTheWay cores x).isEmpty) = some r →
        exec (.taskPop die) s = .next (t.release (t.inTheWay cores r))) ∧
      (t.choose (t.ready.filter (t.mayReserve die)) = some r → r.team = some g →
        exec (.gangReservation die) s = .next (t.reserve die r g))) ∧
    ((t.reservations.find? fun w => w.gang = g) = some v → t.assign v.cores (t.members g) = some pairs →
      exec (.gangStart g) s = .next (pairs.foldl (fun u e => u.startTask e.2 e.1) (t.release [v]))) ∧
    (let c := s.coreAt core
     c.busy = true → c.started = false → c.stop = none → c.save = none → s.codeCheck core = .ok () →
      exec (.firstFetch core) s = .next (s.setCoreAt core { c with started := true })) ∧
    (quad < 16 →
      let h := s.throttle quad
      (∃ i < 4, s.cfence.getLsbD (4 * quad + i) = false) →
      let new := if h.delivered < 4 * h.deflected ∨ h.aged then max 1 (h.rate / 2) else min 16 (h.rate + 1)
      exec (.throttleUpdate quad (decide (h.delivered < 4 * h.deflected)) h.aged) s =
        .next { s with throttles := s.throttles.put quad { h with rate := new, sampled := new, delivered := 0, deflected := 0, aged := false } })

/-- The events of a task's own units (R92, R105, R187, R211, R495): a producer's result is written full; a row step runs when its queues allow; an
unchecked access performs the next of its local lines once the ordering rules allow it and nothing holds that line; an access whose metadata
has been waited for 10 ms goes on unchecked; a commit performs a line at its home and is complete after the last. -/
def Obligations.TaskEventsComplete : Prop :=
  ∀ (s : State) (core id : Nat) (d : BitVec 5) (k : Cluster) (divider : Bool) (v : DWord) (op : VecOp) (x : Access) (key : Nat × Nat) (version : Tab VByte),
    let c := s.coreAt core
    ((c.reg d).pending = some ⟨k, divider, some v⟩ →
      let written := c.change s.dcc k d v true
      exec (.producerResultWritten core d) s =
        .next (s.setCoreAt core { written with scal := written.scal.put d.toNat { written.reg d with pending := none } })) ∧
    (c.vop = some op → c.rowReady op = true →
      exec (.vectorRowStep core) s = .next (({ s with core := core, cluster := .V } : State).vectorStep op)) ∧
    (c.findAccess id = some x →
      (x.mayPerform (c.accessesBefore x.cluster id) = true → x.phase = .issued → x.checked = false →
        (∀ slot w, x.op ≠ .notify slot w) → (∀ a b r l n, x.op ≠ .arrive a b r l n) → (∀ f h i e, x.op ≠ .command f h i e) →
        x.unplaced s.node.toNat = false →
        x.nextKey (Config.pick (8 * s.steps + 1)) = some key → key.1 < 2 →
        s.homeHoldsFor (some (core, x.id)) key x.op.isStore = false →
        (key.1 = 0 → s.cutOff core (64 * key.2) = false) →
        exec (.accessAtHome core id) s = .next (s.performLine core x key)) ∧
      (x.phase = .waiting → x.checked = true → x.since + 10000000 ≤ s.dcc →
        exec (.metadataWaitTimeout core id) s = .next (s.goUnchecked core x))) ∧
    (c.committing = some version → versionLines version ≠ [] →
      let line := (versionLines version).getD (Config.pick (8 * s.steps + 2) % (versionLines version).length) 0
      s.homeHolds (0, line) true = false →
      let t := s.writeVersion c.versionRu (lineCells version line)
      let rest := withoutLine version line
      let u := t.setCoreAt core { t.coreAt core with committing := some rest }
      exec (.versionCommitComplete core) s = .next (if rest.cells = [] then u.endCommit core else u))

/-- The events that end waits (R61, R94, R475, R476): a block-mode wait that has lasted LIMIT cycles raises the restartable fault FEMPTY; a cluster
that has waited LIMIT cycles for its lockstep group raises the trap SYNCTO; a WAITD
whose target is reached writes DCC, and a WAITCT that has waited its limit 0x200. -/
def Obligations.WaitEventsComplete : Prop :=
  ∀ (s : State) (core t : Nat) (k : Cluster) (d a b : BitVec 5) (m n : Bool) (v limit : DWord),
    let x := (s.coreAt core).cl k
    let c := s.coreAt core
    let at_ : State := { s with core := core, cluster := k }
    (c.stop = none → x.running = true → x.blocked = true → x.limit ≠ 0 → x.since = some t → x.waitFrom + x.limit ≤ s.dcc →
      exec (.femodeLimitExpiry core k) s = .next (at_.stopPrecise .fault false ⟨0x02, 0, 0, [], 0⟩)) ∧
    (c.stop = none → c.busy = true → (c.syncto.extractLsb' 0 32).toNat ≠ 0 →
      ([Cluster.C, .A, .V, .M].find? fun j =>
        (c.cl j).running && decide ((c.syncto.extractLsb' 0 32).toNat ≤ (c.cl j).syncWaited s.dcc)) = some k →
      exec (.synctoExpiry core) s = .next (at_.stopPrecise .trap false ⟨0x03, 0, 0, [], 0⟩)) ∧
    (s.waitingWord core k = some (.waitd d a m) → (s.at core k).src a m = .ok v → (s.at core k).aluDest d = .ok () → v.toNat ≤ s.dcc →
      exec (.waitdTargetReached core k) s = .next (((s.at core k).putScal d (BitVec.ofNat 64 s.dcc)).retire)) ∧
    (s.waitingWord core .A = some (.waitct d a b m n) →
      let u := s.at core .A
      u.src a m = .ok v → u.src b n = .ok limit → limit ≠ 0 → u.aluDest d = .ok () → u.cur.waitCommand (v.extractLsb' 0 16) = .ok none →
      u.waitedFor limit.toNat = true → exec (.waitctTimeout core) s = .next ((u.putScal d 0x200).retire))

/-- The events of the arrays (R82, R157, R230 to R232, R234, R236): a checked MMUL issues once the one before has entered its rows, 128 cycles after the
array's last issue, with B preloaded and row 0 of A at hand, a stamped one at DCC = MS alone, else it misses its stamp; till then a step of B or a row of A
is read; a staged row of A enters in its turn; a drain's row is converted and written in its turn, while no read of an array waits, and a drain that waits at a unit that is not present may
be ended by a trap of its array. -/
def Obligations.ArrayEventsComplete : Prop :=
  ∀ (s t : State) (core : Nat) (y : ArrayId) (p : PendingOp) (o : ArrayOp) (xs sa : List Nat) (rest : List (List Nat × List Nat)) (r : ObjRec)
    (ps : List Part) (info : TrapInfo),
    let c := s.coreAt core
    let array := c.array (isArrayY y)
    let e := MatEntry.ofBits p.entry
    let read : PendingOp := { p with steps := p.steps ++ [(xs, sa)], waiting := false }
    (array.pend = some p → p.checked = true → c.stop = none → c.save = none →
      (p.stamp = 0 ∨ p.stamp.toNat = s.dcc → s.mayIssue core (isArrayY y) p = true →
        exec (.mmulArrayIssue core y) s = .next (s.arrayIssue core (isArrayY y) p)) ∧
      (p.stamp ≠ 0 → p.stamp.toNat ≤ s.dcc → (p.stamp.toNat < s.dcc ∨ s.mayIssue core (isArrayY y) p = false) →
        exec (.mmulArrayIssue core y) s = .next (s.missStamp core (isArrayY y) p)) ∧
      (p.stamp = 0 ∨ s.dcc < p.stamp.toNat → p.steps.length < 128 → array.mayStage p = false →
        s.fetchStep (p.reader core (isArrayY y) s.dcc) p.regs e p.steps.length = .ok t xs sa →
        exec (.mmulArrayIssue core y) s = .next (t.setPend core (isArrayY y) read))) ∧
    (array.entering = some o → c.save = none → o.latched = true → array.rowBlocked o o.row = false → o.regs.queueA = false →
      o.staged = (xs, sa) :: rest →
      (16 ≤ o.staged.length ∨ 128 ≤ o.row + o.staged.length ∨ Config.pick (8 * s.steps + 2) % 2 = 1) →
      exec (.mmulRowEntry core y) s = .next (s.enterRow core (isArrayY y) { o with staged := rest } xs sa)) ∧
    (array.draining = some o →
      (array.rowBlocked o o.row = false → c.arrayWaits = false → s.drainPlaces core o = .ok (r, ps) →
        exec (.drainRow core y) s = .next (s.drainOne core (isArrayY y) o r (drainCoords o.regs.mc o.row) ps)) ∧
      (o.waiting = true → s.drainPlaces core o = .error (.fault info) →
        exec (.drainResidTrap core y) s = .next (s.takeStop core .trap (4 + (isArrayY y).toNat) 0 true false info 0)))

/-- The events of the copy engine (R157, R192, R249, R253, R256, R220, R341): a command that does not wait does a part of its transfer; one that is
over writes its completion record of 32 bytes to its ring slot and is no longer in flight; one that has waited 10 ms at a residency unit fails;
a unit that has become present lets what waited go on; a trap or a watch that an engine access met is taken when it may be. -/
def Obligations.EngineEventsComplete : Prop :=
  ∀ (s : State) (core id : Nat) (cmd : BitVec 16) (k : Command) (st : Stop) (debug : Bool),
    let c := s.coreAt core
    (c.findCommand cmd = some k →
      (k.waits = false → exec (.engineChunkWrite core cmd) s = .next (s.stepCommand core k)) ∧
      (k.over = true →
        exec (.engineCompletion core cmd) s =
          .next (s.setCoreAt core { c with
            scratch := c.scratch.write (ringSlot k.id) 32 (k.record s.dcc), commands := c.commands.filter fun y => y.id ≠ k.id,
            remoteReads := c.remoteReads.filter fun x => x.who ≠ askCommand k.id })) ∧
      (k.waits = true → k.since + 10000000 ≤ s.dcc →
        let members := if k.members = [] then [s.node.toNat] else k.members
        exec (.residencyWaitTimeout core cmd) s =
          .next (s.putCommand core (({ k with members := members } : Command).fail (k.waiting.getD (0, 0, 0)).1 k.waiting
            (failureOf k.waitHandle .notReady)))) ∧
      (k.waiting ≠ none → exec (.residencyWaitResume core (.command cmd)) s = .next (s.stepCommand core k))) ∧
    exec (.residencyWaitResume core (.access id)) s = exec (.accessAtHome core id) s ∧
    exec (.residencyWaitResume core (.drain .X)) s =
      .next (s.setCoreAt core { c with arrayX := { c.arrayX with ops := c.arrayX.ops.map fun o =>
        if o.isDrain && o.waiting then { o with waiting := false } else o } }) ∧
    (c.pendingTrap = some st → st.debug = debug → c.canStop = true → c.defersStop st.kind true = false →
      (({ c with pendingTrap := none } : Core).ignoresStop st.kind = false) → c.ignoresStop st.kind = false →
      let t := (s.setCoreAt core { c with pendingTrap := none }).stopWith core st
      (debug = false → exec (.engineRaceTrap core) s = .next t) ∧ (debug = true → exec (.engineWatchStop core) s = .next t))

/-- Packets that place data (R264 to R269, R283) complete on a port that is up: one not answered before, of a job the node runs, is placed or reduced in
its context; one answered before, by an answer other than not ready and a NACK, gets the same answer (the model's reading of R265 for retransmissions,
log 32); one of an unknown job is answered so; any packet on a port that is down is lost (R283). -/
def Obligations.PlacementPacketsComplete : Prop :=
  ∀ (s : State) (p : Packet) (shd : Bool) (ctx : BitVec 16) (a : Answer) (opc : BitVec 4) (word : Packet → Bool → Instr),
    (word, opc) ∈ [((fun p b => Instr.place p b), (0 : BitVec 4)), ((fun p b => .redu p b), 1), ((fun p b => .redo p b), 2)] → p.opc = opc →
    ((s.port p.port).down = true → exec (word p shd) s = .next s) ∧
    ((s.port p.port).down = false →
      (s.answered p = none → s.jobs.find p.job.toNat = some ctx → exec (word p shd) s = .next (s.placePacket p shd ctx)) ∧
      (s.answered p = some a → exec (word p shd) s = .next (s.answer p a)) ∧
      (s.answered p = none → s.jobs.find p.job.toNat = none → exec (word p shd) s = .next (s.answer p .noJob)))

/-- Forwarded accesses and arrivals (R270, R382) complete on a port that is up, for a load request, which is served
again when it is repeated, or a packet not answered before, where the handle resolves, the bytes lie
in the object, no lock or flip holds them and the check allows it: a load sends the bytes back, a store writes them, an atomic writes the new value and
sends the old one back; a release steps the port group's clock. A remote arrival reaches its barrier. -/
def Obligations.ForwardedAccessesComplete : Prop :=
  ∀ (s t : State) (p : Packet) (ctx : BitVec 16) (r : ObjRec) (ps : List Part) (len : Nat) (op : AtomOp) (wide : Bool) (v cmp : DWord),
    (s.port p.port).down = false → (p.opc = 3 ∨ s.answered p = none) → s.jobs.find p.job.toNat = some ctx →
    let w := s.schedViewer ctx
    let party := s.portParty p ctx
    let ready := fun (acc code n : Nat) =>
      s.forwardedRecord party.viewer p.handle acc = .ok r ∧ s.forwardedParts party.viewer r p.handle acc (packetOffset p) n = .ok ps ∧
        s.runHeld (decide (code ≠ 12)) ps = false ∧
        (∃ race, s.checkRun party r p.handle code (decide (code ≠ 12)) (p.acq || p.rel || decide (code = 14)) (s.heldLong p)
          (r.linear ((packetOffset p) * 8 / r.eb)) ps = .ok t race)
    let begun := fun (write : Bool) =>
      let u := (t.cacheUse party.viewer p.handle ps).watchRun party.who.report write ps
      if p.acq && ps.any (u.readsMap 0) then u.joinMap portGroup else u
    let settled := fun (u : State) => (Host.Outcome.next ((if p.rel then u.tick portGroup else u).settleWith p .done) :
      Host.Outcome State Fault Refusal)
    (p.opc = 3 → ready 0 12 (min len 512) →
      let u := begun false
      exec (.loadRequest p len) s = settled (u.sendBack p 4 (ps.map fun q => BitVec.ofNat 8 (u.elementAt (u.schedViewer ctx) q)))) ∧
    (p.opc = 5 → r.kind ≠ 2 → s.forwardedRecord w p.handle 1 = .ok r → ready 1 13 (min (storeBytes p r) 512) →
      let u := begun true
      exec (.store p) s = settled (u.putRun w false (nibbleParts p (u.record w (handleIndex p.handle)) ps))) ∧
    (p.opc = 6 → ready 2 14 (if wide then 8 else 4) →
      let u := begun true
      let n := if wide then 8 else 4
      let old := natOfBytes (ps.map fun q => BitVec.ofNat 8 (u.elementAt (u.schedViewer ctx) q))
      let new := atomicNew op wide old (v.toNat % 2 ^ (8 * n)) (cmp.toNat % 2 ^ (8 * n))
      exec (.atomic p op wide v cmp) s =
        settled ((u.putRun (u.schedViewer ctx) false (ps.zip ((bytesOfNat n new).map BitVec.toNat))).sendBack p 7 (bytesOfNat n old))) ∧
    (p.opc = 8 → exec (.rarrive p) s =
      .next ((s.remoteArrival p.port (p.uoff.toNat % 64) (p.aux.extractLsb' 0 4) (p.coord.extractLsb' 32 32) (p.coord.extractLsb' 0 32)).answer
        p .done))

/-- The answers to a core's remote accesses (R261, R270, R379): load data fills the elements asked for, its flits going their way to the core; an atomic's
reply ends it with the old value in its destination; a flit delivered at the core enters the slot that waits for it; an arrival of another node, of a core or of a Sage core reaches its barrier. -/
def Obligations.RemoteAnswersComplete : Prop :=
  ∀ (s : State) (core id : Nat) (x : Access) (g : Nat × Nat) (data : List Byte) (old : DWord) (op : AtomOp) (wide signed : Bool) (v cmp : DWord)
    (d : BitVec 5) (bar : BitVec 4) (round l : BitVec 32) (port n k : Nat) (flit : BitVec 3) (f : Flit) (slot : Slot32) (a b : BitVec 4),
    let c := s.coreAt core
    (c.findAccess id = some x → x.phase = .sent →
      (∀ w, x.op = .load d w signed → x.remoteGroup = some g →
        let t := s.requestAnswered core id
        let y := { x with parts := answerParts g (remoteSpan g x.parts).1 data x.parts, phase := .issued }
        let u := (t.setCoreAt core ((t.coreAt core).putAccess y)).sendFlits core (sagePos (Config.choice t.steps 1026 % 8)) x y
        exec (.loadData core id data) s =
          .next (if y.keys.isEmpty && ((u.coreAt core).slotOf x.id).isNone then u.finishAccess core y else u)) ∧
      (x.op = .atomic op wide v cmp (some d) signed →
        let t := s.requestAnswered core id
        let u := t.setCoreAt core (((t.coreAt core).freeSlot id).dropAccess id)
        let w := if x.rel then u.released (agentId core x.cluster) else u
        exec (.atomicReply core id old) s = .next (w.setCoreAt core ((w.coreAt core).deliver d (atomicOld wide signed old.toNat))))) ∧
    (c.slots.cells.find? (fun e => e.2.msg = f.msg) = some (k, slot) → c.findAccess f.msg = some x → s.deliveredFlit core f.msg flit.toNat = some f →
      slot.mask ||| (1 <<< f.index) ≠ 0xFF →
      exec (.flitDelivery core f.msg flit f.data) s =
        (let sl := { slot with mask := slot.mask ||| (1 <<< f.index), data := slot.data.put f.index f.data }
         let t : State := { s with flits := s.flits.erase f }
         .next (t.setCoreAt core { c with slots := c.slots.put k sl }))) ∧
    (exec (.barrierArrival core bar round (some l) (.remote port)) s =
      .next (s.remoteArrival (Config.pick (8 * s.steps + 5) % 48) core bar round l)) ∧
    ((s.coreAt n).findAccess id = some x → x.op = .arrive core bar round l none →
      x.mayPerform ((s.coreAt n).accessesBefore x.cluster id) = true →
      exec (.barrierArrival core bar round (some l) (.local n id)) s = .next (s.localArrival n x core bar round l)) ∧
    (s.notifying n core bar round = some (a, b) →
      exec (.barrierArrival core bar round none (.sage n)) s = exec (.gntfy a b) { s with sage := n })

/-- The transport's events (R256, R264, R265, R277) complete for a packet that is out: an acknowledgement settles it; a NACK resends it; a timeout resends
it and doubles its time, up to 1,024 µs; a failure, a stale reply and 10 ms of not ready end it; a not ready reply keeps a command's, to be sent again after
50 µs, and ends an access's; a trimmed packet is answered with a NACK; a DEBUG packet of a job the node runs is put into a debug buffer, one of
another is answered as a failure (R266). -/
def Obligations.TransportEventsComplete : Prop :=
  ∀ (s : State) (pdc : Nat) (psn : BitVec 32) (o : OutPacket) (port : Nat) (node : BitVec 11) (t : Nat) (delay : BitVec 32) (p : Packet) (b : Nat),
    (s.outPacket pdc psn = some o →
      let settled := (s.dropPacket pdc o).packetEnded o
      exec (.acknowledgement pdc psn [] false delay) s = .next (settled .done) ∧
      exec (.nack pdc psn) s =
        .next (((s.resend pdc [psn]).1.raiseResent pdc (s.resend pdc [psn]).2).raiseFor pdc o 4 1) ∧
      (o.due = false → o.notReady = none → o.sentAt + 1000 * o.timeout ≤ s.dcc →
        let o' := { o with timeout := min (2 * o.timeout) 1024 }
        exec (.retransmissionTimeout pdc psn) s = .next ((s.retransmit pdc o').raiseFor pdc o 3 o'.timeout)) ∧
      (o.notReady = none → o.firstSent + 4000000 ≤ s.dcc → o.counted = true → exec (.packetFail pdc psn .timeout) s = .next (settled .timeout)) ∧
      exec (.packetFail pdc psn .noJob) s = .next (settled .noJob) ∧
      (o.isCommand = true →
        exec (.notReadyReply pdc psn) s = .next (s.putPacket pdc { o with notReady := some (o.notReady.getD s.dcc), sentAt := s.dcc })) ∧
      (o.isCommand = false → exec (.notReadyReply pdc psn) s = .next (settled .notReady)) ∧
      (o.notReady = some t → t + 10000000 ≤ s.dcc → exec (.notReadyRetransmit pdc psn) s = .next (settled .notReady)) ∧
      (o.notReady = some t → s.dcc < t + 10000000 → o.sentAt + 50000 ≤ s.dcc →
        exec (.notReadyRetransmit pdc psn) s = .next (s.retransmit pdc { o with firstSent := s.dcc })) ∧
      exec (.staleReply pdc psn) s = .next ((settled .stale).raiseFor pdc o 7 o.packet.handle.toNat)) ∧
    ((s.port port).down = false →
      exec (.trimmedPacket port pdc node psn) s =
        .next ((s.answer
          { port := port, pdc := pdc, psn := psn, ent := 0, via := 0x7FF, srcn := node, aux := 0, rank := 0, nc := 0, nelem := 0, uoff := 0, coord := 0, handle := 0,
            job := 0, acq := false, rel := false, opc := 0, payload := [], ecn := false } .nack).raise (sageOfPort port)
          ⟨4, port, pdc % 16384, node.toNat, psn.toNat, 0⟩)) ∧
    ((s.port p.port).down = false → p.opc = 9 → s.answered p = none → s.jobs.find p.job.toNat = none →
      exec (.debugForwarding p) s = .next (s.answer p .noJob)) ∧
    ((s.port p.port).down = false → p.opc = 9 → s.answered p = none → s.jobs.find p.job.toNat ≠ none →
      let g := sageOfPort p.port
      let x := s.sageAt g
      x.freeBuffers[Config.pick (8 * s.steps + 6) % x.freeBuffers.length]? = some b → x.evOcc + 25 ≤ 1024 →
      exec (.debugForwarding p) s =
        .next ((((s.setSageAt g { x with
          dmem := x.dmem.setBytes (0x8000 + 1024 * b) (p.payload.take 1024), dbgAlloc := x.dbgAlloc.put b true }).raise g
            ⟨8, p.port, p.pdc % 16384, p.srcn.toNat, p.psn.toNat, b⟩)).answer p .done))

/-- The ports' events (R263, R274, R277, R278, R283): a packet in transit, of age below 16, leaves by its path's next port where that is free, else by
any free one; one of age 16 or more by its minimal port, or, where an older packet has that port's slot, waits in its escape store. The table
a transit goes by, that of the Sage core of the port it came in by, is the model's choice (log 74). A lane that fails is erased and reported, the port staying up with
the first in lane-erasure mode; a port goes down; a retrain that succeeds brings the port and its lanes back, one that fails reports LDOWN with INFO 1. -/
def Obligations.PortEventsComplete : Prop :=
  ∀ (s : State) (port : Nat) (t : Transit) (lane info : BitVec 2) (m : Nat),
    let p := s.port port
    let x := s.sageAt (sageOfPort port)
    (t.dest ≠ s.node → p.down = false → isFabricPort port = true →
      (t.age.toNat < 16 →
        let via : BitVec 11 := if t.via = s.node then 0x7FF else t.via
        let next := x.minimalPort (if via = 0x7FF then t.dest else via).toNat
        (∀ q, next = some q → s.slotFree q = true → exec (.transitPacket port t) s = .next (s.departs q t via)) ∧
        ((∀ q, next = some q → s.slotFree q = false) →
          let free := (List.range 48).filter s.slotFree
          ∀ q, free[Config.pick (8 * s.steps + 7) % free.length]? = some q → exec (.transitPacket port t) s = .next (s.departs q t 0x7FF))) ∧
      (16 ≤ t.age.toNat → x.minimalPort t.dest.toNat = some m →
        (s.slotFree m = true → exec (.transitPacket port t) s = .next (s.departs m t 0x7FF)) ∧
        (s.slotFree m = false → (s.port m).down = false → s.slotOld m = true → (s.port m).escape.contains t = false → (s.port m).escape.length < 35 →
          exec (.transitPacket port t) s = .next (s.setPort m { s.port m with escape := (s.port m).escape ++ [t] })))) ∧
    (port < 48 →
      (p.down = false → p.failed = 0 → erases port = true →
        exec (.laneFailure port lane) s =
          .next ((s.setPort port { p with failed := p.failed ||| (1 <<< lane.toNat) }).raise (sageOfPort port) ⟨5, port, 0, 0, 0, lane.toNat⟩)) ∧
      (p.down = false → exec (.portDown port info) s = .next (s.downPort port info.toNat)) ∧
      (p.retraining = true →
        (let u := s.setPort port { p with down := false, failed := 0, retraining := false }
         exec (.portRetrainComplete port true) s =
          .next (u.setSageAt (sageOfPort port) { x with pdown := x.pdown &&& ~~~((1 : BitVec 6) <<< (port % 6)) })) ∧
        (let u := s.setPort port { p with retraining := false }
         exec (.portRetrainComplete port false) s = .next (if p.down then u.raiseDown port 1 else u.downPort port 1))))

/-- The events of stops and of preemption (R287, R292 to R294, R297, R301, R302): a stop's record is written to a ring that is not full; the kernel
resumes a recorded fault, or turns it into a trap of the same cause; a request of a running task waits for a PHINT until the deadline of its launch, of a
suspended one begins a forced save, as the deadline does; the drain begins when the core is quiet, and after DL squashes commands; the image is
written when all is drained. -/
def Obligations.StopEventsComplete : Prop :=
  ∀ (s : State) (core a : Nat) (st : Stop) (v : Save) (p : Preempt) (d : BitVec 16) (buf : BitVec 43),
    let c := s.coreAt core
    (c.stop = some st → st.recorded = false → st.kind = .fault → s.stopRing core st = some a → s.ringFull a = false →
      exec (.stopRecordWrite core) s = .next (s.putRecord core st a)) ∧
    (c.mayResume = true → exec (.serviceResume core) s = .next (s.resumeTask core)) ∧
    (c.stop = some st → st.kind = .fault → st.recorded = true → c.save = none →
      exec (.convertToTrap core) s = .next (s.stopWith core { st with kind := .trap, debug := false, recorded := false, waitingRing := false })) ∧
    (c.busy = true → s.together core = [core] → c.save = none → c.finishing = false → c.trapOwed = false →
      (c.stop = none → c.preempt = none → d ≠ 0 → 0 < s.saveDeadline core →
        exec (.preemptionRequest core d) s =
          .next (s.setCoreAt core { c with preempt := some ⟨s.dcc + s.saveDeadline core * 1000, s.dcc⟩ })) ∧
      (c.stop = some st → st.kind = .fault → c.started = true →
        exec (.preemptionRequest core d) s = .next (s.beginSave core (forcedSave false)))) ∧
    (c.preempt = some p → c.mayForce = true → p.deadline ≤ s.dcc →
      exec (.forcedSaveDeadline core) s = .next (s.beginSave core (forcedSave false))) ∧
    (c.save = some v →
      (v.drained = false → c.quiet = true →
        exec (.drainLimitExpiry core) s = .next (s.setCoreAt core { c with save := some { v with drained := true, drainStart := s.dcc } })) ∧
      (v.drained = true → v.drainStart + c.ctx.dl * 1000 ≤ s.dcc →
        exec (.drainLimitExpiry core) s = .next (s.setCoreAt core { c with commands := c.commands.map Command.squashed })) ∧
      (c.stop = none → (s.together core).all s.drainedAt = true → buf.toNat % 64 = 0 →
        exec (.saveImageWrite core buf) s = .next (s.finishSave core v buf.toNat)))

/-- The device's failures and services (R14, R27 to R29, R81, R205, R280, R286, R288, R313, R319 to R321, R326). An era change that is due raises the era, sets every
clock to 1, the port group's too, and every vector, DCLK and the commit vector to 0, counts itself in ERAS of every race ring and signals each service
kernel instance. A core is fenced, and its task stops, with a UNIT that no rule gives (log 62). An uncorrectable error of a code of R326 is counted, stops what
met it, at the row that met it where it was an array's, and has what follows it: a host link's timeout ends the access that met it, a port's error is only counted, an HBM
frame is retired, a second error of one scratchpad fences the core, and a die bridge's fails the bridge. A failed die bridge cuts the launches on both dies.
A late Sage core is declared failed and its ports go down, as is one that stopped, at any time (the model's choice, log 27). The clock is set, in whole MHz, and steered by at most 10 ppm,
what needs more being counted (the model's reading, log 26). A service call is answered from its mailbox. -/
def Obligations.DeviceEventsComplete : Prop :=
  ∀ (s t : State) (core g mhz j : Nat) (e : StorageError) (ppm : Int) (msg : SyncMsg) (w : SvcWait) (answer r : DWord),
    (s.eraDue = true →
      ∃ u, exec .eraChange s = .next u ∧ u.eraNow = s.eraNow + 1 ∧ (∀ i, i < 256 ∨ i = portGroup → u.clocks.get 0 i = 1) ∧
        (∀ c ∈ u.clocks.cells, c.2 = 1) ∧ u.vclocks = .empty ∧ u.dclk = .empty ∧ u.commitVector = .empty ∧
        (∀ i, i < 16 → (u.slice i).interrupts = (s.slice i).interrupts ++ [0]) ∧
        ((∀ b, s.lockOn b = none) →
          let rings := s.partitions.values.map ringOf
          ∀ x ∈ rings, (∀ y ∈ rings, y ≠ x → x.toNat + 4 ≤ y.toNat ∨ y.toNat + 4 ≤ x.toNat) →
            u.homeRead (x.toNat + 24) 4 = (s.homeRead (x.toNat + 24) 4 + 1) % 2 ^ 32)) ∧
    (core < 64 →
      exec (.fenceCore core) s =
        (let u : State :=
           { s with
             cfence := s.cfence ||| (1#64 <<< core)
             reservations := s.reservations.map fun v => { v with unit := v.unit.filter (· ≠ core), cores := v.cores.filter (· ≠ core) } }
         .next (u.uncorrectable core (Config.free u.steps).toNat).refill)) ∧
    (1 ≤ e.unit.toNat → e.unit.toNat ≤ 10 →
      let u := s.count (keyUncorrectable e.unit.toNat)
      let met := (if e.unit = 8 then u.dropHostAccess core else u).errorAt core e.unit.toNat e.site
      exec (.uncorrectableError core e) s =
        .next (if e.unit = 9 then u
          else if e.unit = 1 then { met with retired := met.retired ++ [e.addr.toNat / 65536] }
          else if e.unit = 3 ∧ core < 64 then
            if met.scratchErrors.get false core then (met.fence core).refill else { met with scratchErrors := met.scratchErrors.put core true }
          else if e.unit = 6 then met.failBridge
          else met)) ∧
    (s.bridgeFailed = false →
      exec .dieBridgeFailure s =
        .next (((s.launches.cells.filter fun e => e.2.dieMask = 3 && decide (e.2.status = 0)).map Prod.fst).foldl State.cutLaunch
          { s with bridgeFailed := true })) ∧
    (g < 8 → (s.sageAt g).failed = false →
      (s.sageAt g).stopped = true ∨ ((s.sageAt g).running = true ∧ 0 < (s.sageAt g).evOcc ∧ (s.sageAt g).lastPop + 10000000 ≤ s.dcc) →
      exec (.sageWatchdog g) s =
        .next (((s.setSageAt g { s.sageAt g with failed := true, running := false }).count keySageFail).downSage g)) ∧
    (1 ≤ mhz → mhz ≤ 1000 → exec (.clockThrottle mhz) s = .next { s with clockMHz := mhz }) ∧
    (msg = .followUp ∨ msg = .delayResp →
      (-10 ≤ ppm → ppm ≤ 10 → exec (.timeSyncMessage msg ppm) s = .next { s with servo := ppm }) ∧
      (ppm < -10 → exec (.timeSyncMessage msg ppm) s = .next { s.count keyUnsync with servo := -10 }) ∧
      (10 < ppm → exec (.timeSyncMessage msg ppm) s = .next { s.count keyUnsync with servo := 10 })) ∧
    (msg ≠ .followUp → msg ≠ .delayResp → exec (.timeSyncMessage msg ppm) s = .next s) ∧
    (s.callOf core = some (j, w) → s.answerCall j core w answer = (t, none) → exec (.svcReply core answer) s = .next t) ∧
    (s.callOf core = some (j, w) → s.answerCall j core w answer = (t, some r) → (t.slice j).mailbox.contains (core, w) = true →
      ((t.slice j).mailbox.erase (core, w)).contains (core, w) = false →
      let u := t.setSlice j { t.slice j with mailbox := (t.slice j).mailbox.erase (core, w) }
      let c := u.coreAt core
      let answered := u.setCoreAt core { c with svc := some { w with answer := some r } }
      c.svc = some w → (c.cl .C).stage = 3 →
      (answered.waitingWord core .C = none → exec (.svcReply core answer) s = .next answered) ∧
      (∀ d a b m n k, answered.waitingWord core .C = some (.svc d a b m n k) →
        exec (.svcReply core answer) s = exec (.svc d a b m n k) (answered.at core .C)))

/-- The events of the host, of bias, of translation invalidation and of frame locks (R165, R168, R196, R197, R314, R315, R322): a host reads and writes the
lines of host-visible frames, and gets poison from any other, where its writes are dropped and counted; it reads control registers, by their names (R314
gives no offsets, log 64); a flip of a host-visible frame's bias begins at its home
slice, and completes, its home performing what it held of the host's; an invalidation begins, and completes when nothing it names is under way; a frame lock is installed, turned into a redirection
that performs the held writes, and removed. -/
def Obligations.MemorySystemEventsComplete : Prop :=
  ∀ (s : State) (addr : BitVec 43) (n slice frames : Nat) (bs : List Byte) (frame old new : BitVec 27) (toHost : Bool) (ctx : BitVec 16)
    (index : BitVec 20) (ru : BitVec 24) (l : FrameLock),
    let a := addr.toNat
    let x := s.slice slice
    (a < 2 ^ 39 → s.inRecovery = false → (s.bridgeFailed = true → homeOf a < 8) → (s.slice (homeOf (a / 65536 * 65536))).flipping = none →
      (0 < n → a / 64 = (a + n - 1) / 64 →
        exec (.hostCxlMemAccess addr (.read n)) s =
          .next (if s.hostVisible (a / 65536) then s.respond (.data (s.homeBytes a n)) else (s.count keyHostRej).respond .poison)) ∧
      (0 < bs.length → a / 64 = (a + bs.length - 1) / 64 →
        exec (.hostCxlMemAccess addr (.write bs)) s =
          .next (if s.hostVisible (a / 65536) then s.setHomeBytes a bs else s.count keyHostRej))) ∧
    (s.inRecovery = false →
      exec (.hostCxlMemAccess addr (.control .devcmd)) s = .next (s.respond (.data (bytesOfNat 8 s.devcmd.toNat))) ∧
      exec (.hostCxlMemAccess addr (.control (.tinv slice))) s = .next (s.respond (.data (bytesOfNat 8 x.tinv.toNat))) ∧
      exec (.hostCxlMemAccess addr (.control (.hbias slice))) s = .next (s.respond (.data (bytesOfNat 8 x.hbias.toNat)))) ∧
    (slice < 16 →
      (let reg := fun (cmd : BitVec 2) =>
        ((frame ++ 0#31 ++ cmd ++ 0#4) &&& 0xFFFFFFE000000000) ||| (x.hbias &&& 0x86 &&& ~~~((frame ++ 0#31 ++ cmd ++ 0#4) &&& 0x84))
       x.hbias.getLsbD 0 = false → homeOf (frame.toNat * 65536) = slice → s.hostVisible frame.toNat = true →
        exec (.flipToHostBias slice frame) s =
          .next (s.setSlice slice { x with hbias := reg 1 ||| 1, flipping := some (frame.toNat, true) }) ∧
        exec (.flipToDeviceBias slice frame) s =
          .next (s.setSlice slice { x with hbias := reg 2 ||| 1, flipping := some (frame.toNat, false) }) ∧
        exec (.readBias slice frame) s =
          .next (s.setSlice slice { x with hbias := (reg 3 &&& ~~~2) ||| (if s.hostBias.get false frame.toNat then 0 else 2) })) ∧
      (x.tinv.getLsbD 0 = false →
        let start := fun (v : DWord) => (Host.Outcome.next (s.setSlice slice { x with tinv := (v &&& ~~~3) ||| (x.tinv &&& 2 &&& ~~~v) ||| 1 }) :
          Host.Outcome State Fault Refusal)
        exec (.tinvRecord slice ctx index) s = start (0#2 ++ ctx ++ index ++ 0#26) ∧
        exec (.tinvRuEntry slice ctx index ru) s = start (1#2 ++ ctx ++ index ++ ru ++ 0#2) ∧
        exec (.tinvContext slice ctx) s = start (2#2 ++ ctx ++ 0#46) ∧
        exec (.tinvDevice slice) s = start (3#2 ++ 0#62)) ∧
      (0 < frames → x.locks.length < 16 →
        (∀ k ∈ x.locks, ¬(k.old < old.toNat + frames ∧ old.toNat < k.old + k.frames)) →
        exec (.frameLockInstall slice old new frames) s =
          .next (s.setSlice slice { x with locks := x.locks ++ [⟨old.toNat, new.toNat, frames, false, [], []⟩] }))) ∧
    (x.flipping = some (frame.toNat, toHost) →
      let t := s.setSlice slice { x with flipping := none, hbias := (x.hbias &&& ~~~3) ||| (if toHost then 0 else 2), hostHeld := [] }
      exec (.biasFlipComplete slice) s =
        .next (x.hostHeld.foldl (fun u e => u.hostPerform e.1 e.2) { t with hostBias := t.hostBias.set false frame.toNat toHost })) ∧
    (x.tinv.getLsbD 0 = true →
      (∀ c ∈ s.cores.values, s.through (s.named x.tinv) c = false) →
      exec (.invalidationComplete slice) s = .next ((s.setSlice slice { x with tinv := x.tinv &&& ~~~1 }).invalidate (s.named x.tinv))) ∧
    ((x.locks.find? fun k => k.old = old.toNat && !k.released) = some l →
      exec (.frameLockRelease slice old) s =
        .next ((s.setSlice slice { x with locks := x.locks.map (FrameLock.release old.toNat) }).performWrites l.held)) ∧
    (x.tinv.getLsbD 0 = false → exec (.redirectionRemove slice old) s =
      .next (s.setSlice slice { x with locks := x.locks.filter fun k => !(k.old = old.toNat && k.released) }))

/-- The events of boot, of the summary and of debug (R5, R322 to R325, R329 to R335): DEVSUM writes a summary into a buffer with room for it and completes;
BOOT runs the steps of a die that has not booted; signed requests are answered; DXW takes a word for a suspended core; a debug halt, its timeout, the
view, a sample, and the requests of Huazu have their effects, at the debug master those of its own host too. The model's choices among these: the layout of
the summary's fields (log 15), the stop that a halt is (log 20), that HALT of Huazu is answered as soon as it is accepted and RESUME resumes debug stops
alone (log 21), and what a signed response holds (log 25, presumed). -/
def Obligations.DebugEventsComplete : Prop :=
  ∀ (s t : State) (core die offset len k : Nat) (addr : BitVec 37) (request bs : List Byte) (w : Word) (cl : Cluster) (h : Huazu) (seq : BitVec 16)
    (at_ : Nat) (v : BitVec 256),
    let c := s.coreAt core
    (s.devcmd.getLsbD 0 = false → s.offered (64 * addr.toNat) s.summary.length = true → s.summary.length ≤ s.homeRead (64 * addr.toNat) 8 →
      exec (.devsum addr) s =
        .next { s.setHomeBytes (64 * addr.toNat) s.summary with
          devcmd := ((0#21 ++ addr ++ 2#6) &&& 0x000007FFFFFFFFC0) ||| (s.devcmd &&& 0xC &&& ~~~(0#21 ++ addr ++ 2#6)) ||| 1 }) ∧
    exec .devsumComplete s = .next { s with devcmd := s.devcmd &&& ~~~1 } ∧
    (die < 2 → s.booted.get false die = false →
      exec (.boot die) s =
        .next (s.bootSteps die ((List.range 9).map fun i => (List.range (bootUnits (i + 1))).map fun u => (i + 1, u)).flatten)) ∧
    exec (.getMeasurements request) s = .next (s.signed false request) ∧
    exec (.challenge request) s = .next (s.signed true request) ∧
    (c.suspended = true → c.dxw = 0 →
      exec (.executeWord core cl w) s =
        .next (s.setCoreAt core { c with
          dxw := 0#26 ++ BitVec.ofNat 2 (clusterIndex cl) ++ 0#1 ++ 1#1 ++ 0#2 ++ w, dxwWord := w, dxwCluster := BitVec.ofNat 2 (clusterIndex cl) })) ∧
    (c.halted = true → exec (.debugHalt core) s = .next s) ∧
    (c.halted = false → exec (.debugHalt core) s = .next (if c.mayHalt then s.startHalt core else s.respond .refused)) ∧
    (c.halting = true → (c.cl cl).haltDue = true → c.haltAsked + 65536 ≤ s.dcc →
      exec (.haltBoundaryTimeout core cl) s =
        .next ((s.setCoreAt core (({ c with haltLate := c.haltLate ||| (1 <<< clusterIndex cl) } : Core).setCl cl
          { c.cl cl with haltDue := false })).landHalt core)) ∧
    (s.readView core offset len = some bs → exec (.debugViewAccess core offset none len) s = .next (s.respond (.view bs))) ∧
    (s.writeView core offset bs = some t → exec (.debugViewAccess core offset (some bs) len) s = .next t) ∧
    (c.dctl.getLsbD 1 = true → c.sampledAt + 2 ^ (8 + (c.dctl.extractLsb' 4 4).toNat) ≤ s.dcc →
      exec (.sample core) s = .next ((s.setCoreAt core { c with sampledAt := s.dcc }).logSample core)) ∧
    exec (.controlRegisterWrite (.dctl core) v) s =
      .next (s.setCoreAt core { c with dctl := (v.extractLsb' 0 64 &&& 0xFFFFFFFF000000FE) ||| (c.dctl &&& ~~~0xFFFFFFFF000000FE) }) ∧
    (h.node = s.node → (h.orig = s.node → Config.debugMaster = true) →
      let n := h.core.toNat
      (h.op = 1 → (s.coreAt n).suspended = false → (s.coreAt n).mayHalt = true →
        exec (.huazuHalt h) s = .next ((s.startHalt n).replyHuazu h 0 [])) ∧
      (h.op = 2 → (∃ st, (s.coreAt n).stop = some st ∧ st.debug = true) → (s.coreAt n).mayResume = true →
        exec (.huazuResume h) s = .next ((s.resumeTask n).replyHuazu h 0 [])) ∧
      (h.op = 3 → h.space ≠ 0 → h.len.toNat ≤ 960 → s.huazuRange h h.len.toNat = some at_ →
        exec (.huazuRead h) s = .next (s.replyHuazu h 0 (s.homeBytes at_ h.len.toNat))) ∧
      (h.op = 4 → h.space ≠ 0 → h.len.toNat ≤ 960 → h.len.toNat ≤ h.data.length → s.huazuRange h h.len.toNat = some at_ →
        exec (.huazuWrite h) s = .next ((s.setHomeBytes at_ (h.data.take h.len.toNat)).replyHuazu h 0 [])) ∧
      (h.op = 5 → s.devcmd.getLsbD 0 = false →
        let u := s.writeDevcmd ((s.devcmd &&& 0x000007FFFFFFFFC0) ||| 2)
        u.devcmd.getLsbD 0 = true → exec (.huazuDevsum h) s = .next (u.replyHuazu h 0 []))) ∧
    (h.op = 8 → h.orig = s.node → (s.huazu.any fun e => e.1.seq = h.seq) = true →
      exec (.huazuReply h) s = .next (({ s with huazu := s.huazu.filter fun e => e.1.seq ≠ h.seq } : State).respond (.huazu h))) ∧
    ((s.huazu.find? fun e => e.1.seq = seq && decide (e.2 + 2000000 ≤ s.dcc)) = some (h, k) →
      exec (.huazuResend seq) s =
        .next { s.sendHuazu h with huazu := s.huazu.map fun e => if e.1.seq = seq then (e.1, s.dcc) else e })

/-- Decoding what an encoding gives returns the instruction, its S bit and every operand at every value the encoding admits (R59, R352 to R359,
R365, R366); every well-formed core word has an encoding. -/
def Obligations.DecodeUndoesEncode : Prop :=
  (∀ (i : Instr) (sync : Bool), wordOk i = true →
    (0 < opOf i → (encodeCore sync i).isSome = true) ∧ (∀ w, encodeCore sync i = some w → decode w = .ok ⟨sync, i⟩)) ∧
  (∀ (i : Instr) (w : Word), encodeSage i = some w → WellFormed i = true → decodeSage w = .ok i)

/-- Words of the reference entries decode to the instructions they stand for: of the register, immediate, predicate, branch, loop, system,
access, atomic, vector, matrix and Sage families (R353 to R359, R365, R366). -/
def Obligations.SpecWordsDecode : Prop :=
  decode 0x018C8501 = .ok ⟨false, .sub 3 4 5 false false true⟩ ∧ decode 0x0518E801 = .ok ⟨false, .remu 6 7 8 false false true⟩ ∧
  decode 0x068C8500 = .ok ⟨false, .or 3 4 5 false false⟩ ∧ decode 0x0B0C8080 = .ok ⟨false, .mov 3 4 true⟩ ∧
  decode 0x0D14BFFD = .ok ⟨false, .addi 5 5 (-3)⟩ ∧ decode 0x0B8C850A = .ok ⟨false, .sel 3 4 5 false false true 2⟩ ∧
  decode 0x0C044312 = .ok ⟨false, .cmp 1 2 3 false false true 2⟩ ∧ decode 0x1608A064 = .ok ⟨false, .cmpiLtu 2 5 100⟩ ∧
  decode 0x0C900006 = .ok ⟨false, .pset 4 0 0 6⟩ ∧ decode 0x192FFFF8 = .ok ⟨false, .b 2 true (-8)⟩ ∧
  decode 0x1A80C000 = .ok ⟨false, .jmp 6 false⟩ ∧ decode 0x1C9CE005 = .ok ⟨false, .loop 3 true 7 5⟩ ∧
  decode 0x1D000803 = .ok ⟨false, .loopi 0 false 8 3⟩ ∧ decode 0x80800000 = .ok ⟨true, .nop⟩ ∧ decode 0xFF800005 = .ok ⟨true, .brk 5⟩ ∧
  decode 0x1F0000C4 = .ok ⟨false, .fence 0x18 4⟩ ∧ decode 0x23190924 = .ok ⟨false, .ldAcq 2 6 8 9 false false 4 true⟩ ∧
  decode 0x2B2CA000 = .ok ⟨false, .ldoS 2 11 5 0⟩ ∧ decode 0x278C8520 = .ok ⟨false, .stRel 3 3 4 5 false false 4⟩ ∧
  decode 0x2C948000 = .ok ⟨false, .stoW 5 4 0⟩ ∧ decode 0x39088523 = .ok ⟨false, .qrd 2 2 4 5 false false 4 3⟩ ∧
  decode 0x3C1C8002 = .ok ⟨false, .hinfo 7 4 0 false false 2⟩ ∧ decode 0x3D248580 = .ok ⟨false, .copy 9 4 5 true⟩ ∧
  decode 0x3D808528 = .ok ⟨false, .brarv 4 5 false false 5⟩ ∧ decode 0x3E988500 = .ok ⟨false, .waita 6 4 5 false false⟩ ∧
  decode 0x3F8C8500 = .ok ⟨false, .waitct 3 4 5 false false⟩ ∧ decode 0x4D082000 = .ok ⟨false, .vexp 2 1 0⟩ ∧
  decode 0x52942240 = .ok ⟨false, .vcmp 5 1 2 2 0⟩ ∧ decode 0x5D8C4405 = .ok ⟨false, .vget 3 2 4 false 5⟩ ∧
  decode 0x66980029 = .ok ⟨false, .msetc true 6 true false 9⟩ ∧ decode 0x6B800000 = .ok ⟨false, .mmul true⟩ ∧
  decode 0x71188502 = .ok ⟨false, .spawn 6 4 5 false false 2⟩ ∧ decode 0x761C2002 = .ok ⟨false, .bstat 7 true 2⟩ ∧
  decode 0x778C8000 = .ok ⟨false, .waitd 3 4 false⟩ ∧ decodeSage 0x04D20011 = .ok (.gaddI 3 4 17) ∧
  decodeSage 0x25581234 = .ok (.gli 5 1 0x1234) ∧ decodeSage 0x2C43FFFE = .ok (.gbne 1 0 (-2)) ∧
  decodeSage 0x3C8FC008 = .ok (.gst 2 3 true true 3 8) ∧ decodeSage 0x5419C003 = .ok (.gwgt 6 7 3) ∧
  decodeSage 0x5C114000 = .ok (.gntfy 4 5) ∧ decode 0x2D8C8523 = .ok ⟨false, .aaddW 3 4 5 false false 4 1 true⟩ ∧
  decode 0x37988721 = .ok ⟨false, .acas 6 4 7 false false 4 0 true⟩

/-- A step of a cluster that issues alone runs the instruction its word decodes to, on the state with that cluster focused and the word cached, and then
time goes on (R34, R55, R59); a word read from another node is not kept once it has issued. A word behind an access that may still stop its task waits, a plain
access apart (R290; how, is the model's choice, log 83). A step of a Sage core runs the instruction of its next word (R275); a step of an event runs it. -/
def Obligations.StepRunsTheDecodedInstruction : Prop :=
  ∀ (s : State) (n g a : Nat) (k : Cluster) (w : Word) (d : Decoded) (i : Instr) (e : Event) (f : Host.Outcome State Fault Refusal),
    let passed := fun (r : Host.Outcome State Fault Refusal) => match r with
      | .next t => Host.Outcome.next t.pass
      | .fault x => .fault x
      | .refused x => .refused x
    let c := s.coreAt n
    let forgets := fun (r : Host.Outcome State Fault Refusal) => match r with
      | .next t => Host.Outcome.next (if a = farWord ∧ ((t.coreAt n).cl k).since.isNone then t.dropAsks n (askFetch k) else t)
      | .fault x => .fault x
      | .refused x => .refused x
    (s.mover = .word n k → c.executes k = false → c.issues k = true → ¬(k = .M ∧ c.stampHeld = true) → c.owedLate s.dcc = false →
      decode w = .ok d →
      ((c.cl k).lock = false → s.fetch n k (c.cl k).pc = .ok (a, w) → w.getLsbD 31 = false →
        (s.behindFault n k w = false → step s = passed (forgets (exec d.instr ((s.focus n k).cached n k (some a) w)))) ∧
        (s.behindFault n k w = true → step s = .next ((s.focus n k).waited 0 0).pass)) ∧
      (let u := s.setCoreAt n (c.setCl k { c.cl k with syncWait := false })
       s.syncNext n k = true → (c.cl k).satisfied = true → u.fetch n k ((u.coreAt n).cl k).pc = .ok (a, w) → u.behindFault n k w = false →
        (u.coreAt n).executes k = false → ¬(k = .M ∧ (u.coreAt n).stampHeld = true) →
        ∀ t, forgets (exec d.instr ((u.focus n k).cached n k (some a) w)) = .next t → (t.didIssue n k || t.didStop n) = true →
          step s = .next t.pass)) ∧
    (s.mover = .sage g → (s.sageAt g).running = true → 0 ≤ (s.sageAt g).pc → (s.sageAt g).pc < 65536 →
      decodeSage (BitVec.ofNat 32 ((s.sageAt g).imem.read (s.sageAt g).pc.toNat 4)) = .ok i → step s = passed (exec i { s with sage := g })) ∧
    (s.mover = .event e → runEvent e s = f → step s = passed f)

/-- Every step ends in a next state (R10, R286, R361): no state stops the device, and no word, event or input is refused. -/
def Obligations.EveryStepGoesOn : Prop := ∀ s : State, Goes s

/-- The memory keeps its canonical form in every step of every agent: addresses strictly rising, and no byte listed that reads as an
unlisted one (R3, R174; log 4). -/
def Obligations.MemoryStaysCanonical : Prop := KeptBySteps fun s => s.mem.wf = true

/-- What reset leaves (R5, R15, R66, R80, R114, R275, R324): no core has a task, no Sage core runs, no queue slot is mapped, no launch is accepted, DCC is 0,
no die has booted; every scalar reads 0 and full, p0 is 1 and FEMODE.LIMIT 0x0010_0000 in each cluster; and memory, which the model lets
read as 0 (log 4), is in its canonical form. -/
def Obligations.ResetLeaves : Prop :=
  let s := State.reset
  s.mem.wf = true ∧ s.dcc = 0 ∧ s.cfence = 0 ∧ s.launches = .empty ∧ s.ready = [] ∧ s.booted = .empty ∧
  (∀ n, (s.coreAt n).busy = false ∧ (s.coreAt n).stop = none) ∧
  (∀ g, (s.sageAt g).running = false) ∧
  (∀ q, (s.queue q).state = .free) ∧
  (∀ n k r now, (s.coreAt n).view now k r = (0, true)) ∧
  (∀ n k, ((s.coreAt n).cl k).pred = 1 ∧ ((s.coreAt n).cl k).femode = 0x0010000000000000 ∧ ((s.coreAt n).cl k).loop0.act = false ∧
    ((s.coreAt n).cl k).loop1.act = false) ∧
  (∀ n, (s.coreAt n).shp = 0x1000 ∧ (s.coreAt n).ageus = 0x03E8 ∧ (s.coreAt n).syncto = 0x10000)

/-- A core word that fails a check of R361 on the word alone traps ILLEGAL with the subcause of the first check that fails, and has no effect before it: a
word in a cluster where its OP is not valid with OPCL, else by its fields. -/
def Obligations.FailedWordChecksTrap : Prop :=
  ∀ (s : State) (i : Instr), 0 < opOf i →
    (opAllowed (opOf i) s.cluster = false → exec i s = .next (s.stopPrecise .trap false ⟨0x01, 0x02, 0, [], 0⟩)) ∧
    (∀ sub, opAllowed (opOf i) s.cluster = true → fieldCheck i = some sub →
      exec i s = .next (s.stopPrecise .trap false ⟨0x01, sub, 0, [], 0⟩))

/-- s0 (R90): it reads 0 and is full in every cluster and cycle, whatever has been done to it; a write to it changes nothing, and a long-latency producer
that names it empties nothing. -/
def Obligations.ScalarZero : Prop :=
  ∀ (s : State) (c : Core) (now : Nat) (k : Cluster) (m g divider : Bool) (v : DWord) (r : Option DWord),
    c.view now k 0 = (0, true) ∧ s.src 0 m = .ok 0 ∧ c.change now k 0 v g = c ∧ c.produce now k 0 divider r = c ∧
    s.putScal 0 v = s.setCur s.cur ∧
    (∀ d : BitVec 5, s.src d m = .ok v → exec (.mov 0 d m) s = .next (s.putScal 0 v).retire)

/-- When a change of a scalar is seen (R91): one that takes effect in cycle n is seen by words of its own cluster from n + 1 on, by words of another from n + 2
on, and not by those of another in n + 1; a take or put of WAITF sees it from n + 1 on, whichever cluster made it. -/
def Obligations.ScalarChangesSeen : Prop :=
  ∀ (s t : State) (d : BitVec 5) (i : BitVec 18) (k : Cluster) (now : Nat) (also : Option Bool),
    d ≠ 0 → (∀ e ∈ (s.cur.reg d).hist, e.cycle < s.dcc) → s.aluDest d = .ok () → s.cur.halting = false → s.cl.since = none →
    exec (.li d i) s = .next t → k ≠ s.cluster →
    (s.dcc < now → t.cur.view now s.cluster d = (i.signExtend 64, true)) ∧
    (s.dcc + 2 ≤ now → t.cur.view now k d = (i.signExtend 64, true)) ∧
    t.cur.view (s.dcc + 1) k d = s.cur.view (s.dcc + 1) k d ∧
    (s.dcc < now → t.cur.viewNow now k also d = (i.signExtend 64, true) ∧ t.cur.viewNow now s.cluster also d = (i.signExtend 64, true))

/-- The loop end action (R100): after the word at END of an active loop ITER is one more and COUNT one less, the stage predicates rotate, p1 telling
whether a trip starts, and the cluster goes on at START while COUNT is above 0, or else the loop ends and it goes on after END; of two
loops with one END that with INNER is tested first, the other only where the first ends. Words that branch, loop, fork or end may not stand there. -/
def Obligations.LoopEndAction : Prop :=
  ∀ (s t : State) (n : Bool),
    let acts := fun (x y : ClusterState) (n : Bool) =>
      let l := x.loop n
      let m := y.loop n
      m.iter = l.iter + 1 ∧ m.count = l.count - 1 ∧ m.trip = l.trip ∧ m.stg = l.stg ∧ m.lps = l.lps ∧ m.inner = l.inner ∧
      m.act = decide (l.count ≠ 1) ∧ y.loop (!n) = x.loop (!n) ∧
      (∀ j, 0 < j → j < 8 →
        y.pred.getLsbD j =
          if l.stg < j then x.pred.getLsbD j else if j = 1 then decide ((l.iter + 1).toNat < l.trip) else x.pred.getLsbD (j - 1))
    (s.cur.halting = false → s.cl.since = none → exec .nop s = .next t →
      (s.cl.atEnd n = true → s.cl.atEnd (!n) = false →
        acts s.cl t.cl n ∧ t.cl.pc = if (s.cl.loop n).count = 1 then ((s.cl.loop n).last : Int) + 4 else (s.cl.loop n).first) ∧
      (s.cl.atEnd n = true → s.cl.atEnd (!n) = true → (s.cl.loop n).inner = true → (s.cl.loop !n).inner = false →
        ((s.cl.loop n).count ≠ 1 → acts s.cl t.cl n ∧ t.cl.pc = (s.cl.loop n).first) ∧
        ((s.cl.loop n).count = 1 →
          ∃ x : ClusterState, acts s.cl x n ∧ acts x t.cl !n ∧
            t.cl.pc = if (s.cl.loop !n).count = 1 then ((s.cl.loop !n).last : Int) + 4 else (s.cl.loop !n).first)) ∧
      (s.cl.atEnd n = false → s.cl.atEnd (!n) = false → t.cl.pc = s.cl.pc + 4 ∧ t.cl.pred = s.cl.pred ∧ t.cl.loop0 = s.cl.loop0 ∧
        t.cl.loop1 = s.cl.loop1)) ∧
    (∀ (p j : BitVec 3) (a d : BitVec 5) (g m : Bool) (o : BitVec 19) (i : BitVec 13) (u : BitVec 18) (q : BitVec 10) (e : Byte) (f : BitVec 2),
      s.cl.atEnd n = true →
      ∀ w ∈ [Instr.b p g o, .bz a i, .bnz a i, .jmp a m, .ret a m, .call d u, .callr d a m, .loop j g a i, .loopi j g q e, .fork f u, .rdv,
          .done],
        checkWord s.cluster w = none → exec w s = .next (s.stopPrecise .trap false ⟨0x01, 0x07, 0, [], 0⟩))

/-- What a stop does (R289 to R293): TRAPC tells the word's offset, the cluster, whether the stop is imprecise, subcause and cause, and
TRAPV its value. A trap ends the task: the version, the held spawns, the queues, the accumulators, the arrays' operations, the engine commands
and the reassembly slots are discarded, and scalars, tiles, predicates and program counters kept; of the version only what an atomic already issued has to
commit stays (R185). A result that was known is written first, as a pending division lands before the discard (R395). A debug stop, like a fault, suspends the
task and keeps them all. -/
def Obligations.StopEntry : Prop :=
  ∀ (s t : State) (v : BitVec 4) (c : BitVec 23) (i : BitVec 16) (e : StorageError),
    let scalars := fun (u : State) =>
      (∀ r, (∀ p, (s.cur.reg r).pending = some p → p.result = none) → u.cur.reg r = s.cur.reg r) ∧
      (∀ r k b x q, r ≠ 0 → (s.cur.reg r).pending = some ⟨k, b, some x⟩ → (∀ h ∈ (s.cur.reg r).hist, h.cycle < s.dcc) →
        u.cur.view (s.dcc + 2) q r = (x, true))
    s.undisturbed = true →
    (exec (.trap v c) s = .next t →
      t.cur.trapc.toNat = (BitVec.ofInt 32 s.cl.pc).toNat * 2 ^ 32 + clusterIndex s.cluster * 2 ^ 20 + 0x0B ∧
      t.cur.trapv = (v ++ c).setWidth 64 ∧ t.cur.cr.state = .ended ∧ (∀ k, t.cur.issues k = false) ∧
      (s.cur.accesses.all (fun x => !x.op.isAtomic) = true → t.cur.version = .empty) ∧ t.cur.spawn = [] ∧ t.cur.loadq = .empty ∧ t.cur.storeq = .empty ∧ t.cur.acc = .empty ∧ t.cur.commands = [] ∧
      t.cur.slots = .empty ∧ t.cur.committing = none ∧ t.cur.arrayX.pend = none ∧ t.cur.arrayX.ops = [] ∧ t.cur.arrayY.pend = none ∧
      t.cur.arrayY.ops = [] ∧ scalars t ∧ t.cur.tiles = s.cur.tiles ∧ t.cur.scratch = s.cur.scratch ∧
      (∀ k, (t.cur.cl k).pc = (s.cur.cl k).pc ∧ (t.cur.cl k).pred = (s.cur.cl k).pred ∧ (t.cur.cl k).loop0 = (s.cur.cl k).loop0 ∧
        (t.cur.cl k).loop1 = (s.cur.cl k).loop1) ∧
      (s.cur.committing = none → s.cur.dctl = 0 → ∀ a, t.homeByte a = s.homeByte a)) ∧
    (s.cur.ctx.dbg = true → s.cur.dxw.getLsbD 34 = false → s.cur.trapOwed = false → exec (.brk i) s = .next t →
      t.cur.trapc.toNat = (BitVec.ofInt 32 s.cl.pc).toNat * 2 ^ 32 + clusterIndex s.cluster * 2 ^ 20 + 0x0C ∧
      t.cur.trapv = i.setWidth 64 ∧ t.cur.cr.state = .suspended ∧ (∀ k, t.cur.issues k = false) ∧
      t.cur.version = s.cur.version ∧ t.cur.spawn = s.cur.spawn ∧ t.cur.loadq = s.cur.loadq ∧ t.cur.storeq = s.cur.storeq ∧
      t.cur.acc = s.cur.acc ∧ t.cur.commands = s.cur.commands ∧ t.cur.slots = s.cur.slots ∧ t.cur.committing = s.cur.committing ∧
      t.cur.arrayX = s.cur.arrayX ∧ t.cur.arrayY = s.cur.arrayY ∧ scalars t ∧ t.cur.tiles = s.cur.tiles ∧
      t.cur.scratch = s.cur.scratch ∧ (∀ k, (t.cur.cl k).pc = (s.cur.cl k).pc ∧ (t.cur.cl k).pred = (s.cur.cl k).pred)) ∧
    (1 ≤ e.unit.toNat → e.unit.toNat ≤ 8 → (e.unit = 3 → s.scratchErrors.get false s.core = false) → e.unit ≠ 6 → e.site = .task → s.cur.gang = none →
      s.cur.finishing = false → exec (.uncorrectableError s.core e) s = .next t →
      t.cur.trapc.toNat = 7 * 2 ^ 20 + 2 ^ 19 + 0x1A ∧ t.cur.trapv = e.unit.setWidth 64 ∧ t.cur.cr.state = .ended)

/-- What a register word leaves (the words of R375 to R377, R385, R386, R392, R395, R411, R418, R420, R422, R429, R435, R438, R439, R441, R450, R451, R456,
R461 and R478): beside its destination, its own cluster and the busy bit of DXW, nothing in the device; where it names no predicate and
stands at no loop end, its cluster's predicates too. -/
def Obligations.RegisterWordsFrame : Prop :=
  ∀ (s t : State) (i : Instr) (d : BitVec 5),
    registerDest i = some d → s.undisturbed = true → exec i s = .next t → t.cur.stop = none →
    t = { s with cores := t.cores } ∧ (∀ n, n ≠ s.core → t.coreAt n = s.coreAt n) ∧
    t.cur = { s.cur with scal := t.cur.scal, clusters := t.cur.clusters, dxw := t.cur.dxw } ∧
    (∀ k, k ≠ s.cluster → t.cur.cl k = s.cur.cl k) ∧ (∀ r, r ≠ d ∨ r = 0 → t.cur.reg r = s.cur.reg r) ∧
    t.cl.femode = s.cl.femode ∧ t.cl.running = s.cl.running ∧ (∀ a, t.homeByte a = s.homeByte a) ∧
    (d ≠ 0 → s.atLoopEnd = false → t.cl.pred = s.cl.pred)

/-- What the issue of an access, engine or wait word of cluster A leaves (R176, R181, R184, R390, R398, R408, R414 to R416, R421, R445, R447, R453, R458,
R459, R474, R475): every byte of memory, the scratchpad, every other core and cluster, and every scalar but the destination of a load, of an atomic or engine
command that returns something, of HINFO, WAITC and WAITCT; QWR takes rows of its own store queue alone. The access or command is queued, and performed later. WATCH records are off,
a release that commits is in its first part, and an engine command reads its descriptor unchecked by Sorrel. PUB leaves all of these too, but
for the record it names and its residency entries, and the translation caches' copies of them (R160, R442). -/
def Obligations.AccessWordsFrame : Prop :=
  ∀ (s t : State) (i : Instr) (d a : BitVec 5) (m : Bool) (h : DWord),
    let others :=
      (∀ k, k ≠ s.cluster → t.cur.cl k = s.cur.cl k) ∧ (∀ r, r ≠ d ∨ r = 0 → t.cur.reg r = s.cur.reg r) ∧
      t.cur.scratch = s.cur.scratch ∧ t.cur.tiles = s.cur.tiles ∧ t.cur.loadq = s.cur.loadq ∧
      t.cur.acc = s.cur.acc ∧ t.cur.mstat = s.cur.mstat ∧ t.cur.spawn = s.cur.spawn ∧ t.cur.barriers = s.cur.barriers ∧
      t.cur.trapc = s.cur.trapc ∧ t.cur.trapv = s.cur.trapv ∧ t.cl.femode = s.cl.femode ∧ (s.atLoopEnd = false → t.cl.pred = s.cl.pred)
    s.undisturbed = true → s.cl.stage ≠ 1 → exec i s = .next t → t.cur.stop = none →
    (accessDest i = some d → s.cur.dctl.getLsbD 3 = false → (isEngineWord i = true → s.raceMode = 0) →
      (∀ b, t.homeByte b = s.homeByte b) ∧ t.mem = s.mem ∧ (∀ n, n ≠ s.core → t.coreAt n = s.coreAt n) ∧ others ∧
      (storeQueue i = none → t.cur.storeq = s.cur.storeq) ∧
      (∀ q p, storeQueue i = some q → p ≠ q.toNat → t.cur.storeq.get [] p = s.cur.storeq.get [] p)) ∧
    (i = .pub d a m → s.src a m = .ok h →
      let table := recordAddr s.here.root (handleIndex (h.extractLsb' 32 32))
      let record := ObjRec.ofBits (BitVec.ofNat 512 (s.homeRead table 64))
      others ∧ t.cur.storeq = s.cur.storeq ∧
      (∀ n, n ≠ s.core → t.coreAt n = { s.coreAt n with recCache := (t.coreAt n).recCache, ruCache := (t.coreAt n).ruCache }) ∧
      ((∀ b, s.lockOn b = none) →
        ∀ b, ¬(table ≤ b ∧ b < table + 64) →
          (record.mode = true → ∀ n, n < s.ruCount s.here record → ¬(ruAddr record n ≤ b ∧ b < ruAddr record n + 8)) → t.homeByte b = s.homeByte b))

/-- What a word of clusters V and M leaves at its issue (R359, R423, R464): every byte of memory, the scratchpad, the version, every other core and
cluster, the queued accesses, and every scalar but the destination of VGET and MPROG; and, where it reads no format table entry, as MMUL and MDRAIN do,
everything else outside its core. WATCH records are off. -/
def Obligations.ArrayWordsFrame : Prop :=
  ∀ (s t : State) (i : Instr) (d : BitVec 5),
    arrayDest i = some d → s.undisturbed = true → s.cur.dctl.getLsbD 3 = false → exec i s = .next t → t.cur.stop = none →
    ((∀ y, i ≠ .mmul y ∧ i ≠ .mdrain y) → t = { s with cores := t.cores }) ∧ t.mem = s.mem ∧ (∀ a, t.homeByte a = s.homeByte a) ∧ (∀ n, n ≠ s.core → t.coreAt n = s.coreAt n) ∧
    (∀ k, k ≠ s.cluster → t.cur.cl k = s.cur.cl k) ∧ (∀ r, r ≠ d ∨ r = 0 → t.cur.reg r = s.cur.reg r) ∧
    t.cur.scratch = s.cur.scratch ∧ t.cur.version = s.cur.version ∧ t.cur.accesses = s.cur.accesses ∧ t.cur.spawn = s.cur.spawn ∧
    t.cur.commands = s.cur.commands ∧ t.cur.barriers = s.cur.barriers ∧ t.cur.trapc = s.cur.trapc ∧ t.cur.trapv = s.cur.trapv ∧
    t.cl.femode = s.cl.femode ∧ (s.atLoopEnd = false → t.cl.pred = s.cl.pred)

/-- What a register, load or branch word of a Sage core leaves (R400 to R403): everything outside that core, its memories, its event queue, its routes, and
every register but its destination; g0 reads 0. -/
def Obligations.SageWordsFrame : Prop :=
  ∀ (s t : State) (i : Instr) (d : BitVec 4),
    sageRegisterDest i = some d → exec i s = .next t →
    t = { s with sages := t.sages } ∧ (∀ g, g ≠ s.sage → t.sageAt g = s.sageAt g) ∧
    t.curSage = { s.curSage with regs := t.curSage.regs, pc := t.curSage.pc, running := t.curSage.running, stopped := t.curSage.stopped } ∧
    (∀ r, r ≠ d → t.g r = s.g r) ∧ t.g 0 = 0 ∧ (∀ a, t.homeByte a = s.homeByte a)

/-- What an access does when it is performed (R92, R150, R174, R176, R186, R187): a store outside the version writes its bytes at their home and no other; a store into
the version changes no byte of memory and is seen by the task's loads; a load changes no byte, and its result is the bytes the task sees,
extended as its word says. The access leaves its queue; every register keeps its value. -/
def Obligations.AccessesPerformed : Prop :=
  ∀ (s : State) (core id a off n v bits : Nat) (x : Access) (d : BitVec 5) (signed : Bool) (p : Producer),
    let c := s.coreAt core
    c.findAccess id = some x → (∀ y ∈ c.accesses, y.id = id → y = x) → x.phase = .issued → x.checked = false → x.acq = false →
    x.mayPerform (c.accessesBefore x.cluster id) = true → x.parts = [⟨.device a, off, 0, 8 * n, none⟩] → 0 < n → a / 64 = (a + n - 1) / 64 →
    s.homeHoldsFor (some (core, x.id)) (0, a / 64) x.op.isStore = false → (∀ b, s.lockOn b = none) → s.cutOff core (64 * (a / 64)) = false →
    (x.op = .store v → x.versioned = false →
      ∃ t, exec (.accessAtHome core id) s = .next t ∧ (∀ i, i < n → t.homeByte (a + i) = BitVec.ofNat 8 (v / 256 ^ i)) ∧
        (∀ b, ¬(a ≤ b ∧ b < a + n) → t.homeByte b = s.homeByte b) ∧ (t.coreAt core).scal = c.scal ∧ (t.coreAt core).findAccess id = none) ∧
    (x.op = .store v → x.versioned = true → c.vresLines ≠ 0 → c.overflows (0, a / 64) = false →
      ∃ t, exec (.accessAtHome core id) s = .next t ∧ (∀ b, t.homeByte b = s.homeByte b) ∧
        (∀ i, i < n → t.taskByte (t.coreAt core) (a + i) = BitVec.ofNat 8 (v / 256 ^ i)) ∧
        (∀ b, ¬(a ≤ b ∧ b < a + n) → t.taskByte (t.coreAt core) b = s.taskByte c b) ∧ (t.coreAt core).scal = c.scal ∧
        (t.coreAt core).findAccess id = none) ∧
    (x.op = .load d bits signed → (c.reg d).pending = some p →
      ∃ t, exec (.accessAtHome core id) s = .next t ∧ t.mem = s.mem ∧
        ((t.coreAt core).reg d).pending = some { p with result := some (loadResult bits signed (natOfBytes (s.taskBytes c a n))) } ∧
        (∀ r, r ≠ d → (t.coreAt core).reg r = c.reg r) ∧ (t.coreAt core).findAccess id = none)
end

