-- ==== Sys2Proof/Laws/Dispatch.lean ====
section
/-!
SUPPORT. Which meaning each instruction has, one equation per arm of `exec`.
-/

namespace Sys2Proof.Machine

theorem exec_illegal (c : BitVec 23) (s : State) : exec (.illegal c) s = execIllegal c s := rfl
theorem exec_nop (s : State) : exec (.nop) s = execNop s := rfl
theorem exec_add (d a b : BitVec 5) (m n w : Bool) (s : State) : exec (.add d a b m n w) s = execAdd d a b m n w s := rfl
theorem exec_sub (d a b : BitVec 5) (m n w : Bool) (s : State) : exec (.sub d a b m n w) s = execSub d a b m n w s := rfl
theorem exec_mul (d a b : BitVec 5) (m n w : Bool) (s : State) : exec (.mul d a b m n w) s = execMul d a b m n w s := rfl
theorem exec_mulh (d a b : BitVec 5) (m n w : Bool) (s : State) : exec (.mulh d a b m n w) s = execMulh d a b m n w s := rfl
theorem exec_mulhu (d a b : BitVec 5) (m n w : Bool) (s : State) : exec (.mulhu d a b m n w) s = execMulhu d a b m n w s := rfl
theorem exec_div (d a b : BitVec 5) (m n w : Bool) (s : State) : exec (.div d a b m n w) s = execDiv d a b m n w s := rfl
theorem exec_divu (d a b : BitVec 5) (m n w : Bool) (s : State) : exec (.divu d a b m n w) s = execDivu d a b m n w s := rfl
theorem exec_rem (d a b : BitVec 5) (m n w : Bool) (s : State) : exec (.rem d a b m n w) s = execRem d a b m n w s := rfl
theorem exec_remu (d a b : BitVec 5) (m n w : Bool) (s : State) : exec (.remu d a b m n w) s = execRemu d a b m n w s := rfl
theorem exec_and (d a b : BitVec 5) (m n : Bool) (s : State) : exec (.and d a b m n) s = execAnd d a b m n s := rfl
theorem exec_andn (d a b : BitVec 5) (m n : Bool) (s : State) : exec (.andn d a b m n) s = execAndn d a b m n s := rfl
theorem exec_or (d a b : BitVec 5) (m n : Bool) (s : State) : exec (.or d a b m n) s = execOr d a b m n s := rfl
theorem exec_xor (d a b : BitVec 5) (m n : Bool) (s : State) : exec (.xor d a b m n) s = execXor d a b m n s := rfl
theorem exec_sll (d a b : BitVec 5) (m n w : Bool) (s : State) : exec (.sll d a b m n w) s = execSll d a b m n w s := rfl
theorem exec_srl (d a b : BitVec 5) (m n w : Bool) (s : State) : exec (.srl d a b m n w) s = execSrl d a b m n w s := rfl
theorem exec_sra (d a b : BitVec 5) (m n w : Bool) (s : State) : exec (.sra d a b m n w) s = execSra d a b m n w s := rfl
theorem exec_min (d a b : BitVec 5) (m n w : Bool) (s : State) : exec (.min d a b m n w) s = execMin d a b m n w s := rfl
theorem exec_max (d a b : BitVec 5) (m n w : Bool) (s : State) : exec (.max d a b m n w) s = execMax d a b m n w s := rfl
theorem exec_minu (d a b : BitVec 5) (m n w : Bool) (s : State) : exec (.minu d a b m n w) s = execMinu d a b m n w s := rfl
theorem exec_maxu (d a b : BitVec 5) (m n w : Bool) (s : State) : exec (.maxu d a b m n w) s = execMaxu d a b m n w s := rfl
theorem exec_mov (d a : BitVec 5) (m : Bool) (s : State) : exec (.mov d a m) s = execMov d a m s := rfl
theorem exec_sel (d a b : BitVec 5) (m n g : Bool) (p : BitVec 3) (s : State) : exec (.sel d a b m n g p) s = execSel d a b m n g p s := rfl
theorem exec_cmp (p : BitVec 3) (a b : BitVec 5) (m n w : Bool) (c : BitVec 4) (s : State) : exec (.cmp p a b m n w c) s = execCmp p a b m n w c s := rfl
theorem exec_pset (d a b o : BitVec 3) (s : State) : exec (.pset d a b o) s = execPset d a b o s := rfl
theorem exec_addi (d a : BitVec 5) (im : BitVec 13) (s : State) : exec (.addi d a im) s = execAddi d a im s := rfl
theorem exec_muli (d a : BitVec 5) (im : BitVec 13) (s : State) : exec (.muli d a im) s = execMuli d a im s := rfl
theorem exec_andi (d a : BitVec 5) (im : BitVec 13) (s : State) : exec (.andi d a im) s = execAndi d a im s := rfl
theorem exec_ori (d a : BitVec 5) (im : BitVec 13) (s : State) : exec (.ori d a im) s = execOri d a im s := rfl
theorem exec_xori (d a : BitVec 5) (im : BitVec 13) (s : State) : exec (.xori d a im) s = execXori d a im s := rfl
theorem exec_slli (d a : BitVec 5) (im : BitVec 6) (s : State) : exec (.slli d a im) s = execSlli d a im s := rfl
theorem exec_srli (d a : BitVec 5) (im : BitVec 6) (s : State) : exec (.srli d a im) s = execSrli d a im s := rfl
theorem exec_srai (d a : BitVec 5) (im : BitVec 6) (s : State) : exec (.srai d a im) s = execSrai d a im s := rfl
theorem exec_mini (d a : BitVec 5) (im : BitVec 13) (s : State) : exec (.mini d a im) s = execMini d a im s := rfl
theorem exec_maxi (d a : BitVec 5) (im : BitVec 13) (s : State) : exec (.maxi d a im) s = execMaxi d a im s := rfl
theorem exec_minui (d a : BitVec 5) (im : BitVec 13) (s : State) : exec (.minui d a im) s = execMinui d a im s := rfl
theorem exec_maxui (d a : BitVec 5) (im : BitVec 13) (s : State) : exec (.maxui d a im) s = execMaxui d a im s := rfl
theorem exec_cmpiEq (p : BitVec 3) (a : BitVec 5) (im : BitVec 13) (s : State) : exec (.cmpiEq p a im) s = execCmpiEq p a im s := rfl
theorem exec_cmpiNe (p : BitVec 3) (a : BitVec 5) (im : BitVec 13) (s : State) : exec (.cmpiNe p a im) s = execCmpiNe p a im s := rfl
theorem exec_cmpiLt (p : BitVec 3) (a : BitVec 5) (im : BitVec 13) (s : State) : exec (.cmpiLt p a im) s = execCmpiLt p a im s := rfl
theorem exec_cmpiGe (p : BitVec 3) (a : BitVec 5) (im : BitVec 13) (s : State) : exec (.cmpiGe p a im) s = execCmpiGe p a im s := rfl
theorem exec_cmpiLe (p : BitVec 3) (a : BitVec 5) (im : BitVec 13) (s : State) : exec (.cmpiLe p a im) s = execCmpiLe p a im s := rfl
theorem exec_cmpiGt (p : BitVec 3) (a : BitVec 5) (im : BitVec 13) (s : State) : exec (.cmpiGt p a im) s = execCmpiGt p a im s := rfl
theorem exec_cmpiLtu (p : BitVec 3) (a : BitVec 5) (im : BitVec 13) (s : State) : exec (.cmpiLtu p a im) s = execCmpiLtu p a im s := rfl
theorem exec_cmpiGeu (p : BitVec 3) (a : BitVec 5) (im : BitVec 13) (s : State) : exec (.cmpiGeu p a im) s = execCmpiGeu p a im s := rfl
theorem exec_cmpiLeu (p : BitVec 3) (a : BitVec 5) (im : BitVec 13) (s : State) : exec (.cmpiLeu p a im) s = execCmpiLeu p a im s := rfl
theorem exec_cmpiGtu (p : BitVec 3) (a : BitVec 5) (im : BitVec 13) (s : State) : exec (.cmpiGtu p a im) s = execCmpiGtu p a im s := rfl
theorem exec_li (d : BitVec 5) (im : BitVec 18) (s : State) : exec (.li d im) s = execLi d im s := rfl
theorem exec_lih (d : BitVec 5) (im : BitVec 18) (s : State) : exec (.lih d im) s = execLih d im s := rfl
theorem exec_b (p : BitVec 3) (g : Bool) (o : BitVec 19) (s : State) : exec (.b p g o) s = execB p g o s := rfl
theorem exec_bz (a : BitVec 5) (im : BitVec 13) (s : State) : exec (.bz a im) s = execBz a im s := rfl
theorem exec_bnz (a : BitVec 5) (im : BitVec 13) (s : State) : exec (.bnz a im) s = execBnz a im s := rfl
theorem exec_jmp (a : BitVec 5) (m : Bool) (s : State) : exec (.jmp a m) s = execJmp a m s := rfl
theorem exec_call (d : BitVec 5) (im : BitVec 18) (s : State) : exec (.call d im) s = execCall d im s := rfl
theorem exec_callr (d a : BitVec 5) (m : Bool) (s : State) : exec (.callr d a m) s = execCallr d a m s := rfl
theorem exec_ret (a : BitVec 5) (m : Bool) (s : State) : exec (.ret a m) s = execRet a m s := rfl
theorem exec_loop (k : BitVec 3) (l : Bool) (a : BitVec 5) (im : BitVec 13) (s : State) : exec (.loop k l a im) s = execLoop k l a im s := rfl
theorem exec_loopi (k : BitVec 3) (l : Bool) (n : BitVec 10) (e : BitVec 8) (s : State) : exec (.loopi k l n e) s = execLoopi k l n e s := rfl
theorem exec_csrr (d : BitVec 5) (c : BitVec 12) (s : State) : exec (.csrr d c) s = execCsrr d c s := rfl
theorem exec_csrw (a : BitVec 5) (c : BitVec 12) (s : State) : exec (.csrw a c) s = execCsrw a c s := rfl
theorem exec_waitfRead (d a : BitVec 5) (s : State) : exec (.waitfRead d a) s = execWaitfRead d a s := rfl
theorem exec_waitfTake (d a : BitVec 5) (s : State) : exec (.waitfTake d a) s = execWaitfTake d a s := rfl
theorem exec_waitfPut (d a : BitVec 5) (s : State) : exec (.waitfPut d a) s = execWaitfPut d a s := rfl
theorem exec_waitfEmpty (a : BitVec 5) (s : State) : exec (.waitfEmpty a) s = execWaitfEmpty a s := rfl
theorem exec_fence (e : BitVec 5) (c : BitVec 3) (s : State) : exec (.fence e c) s = execFence e c s := rfl
theorem exec_rdv (s : State) : exec (.rdv) s = execRdv s := rfl
theorem exec_ld (w : BitVec 2) (d a b : BitVec 5) (m n : Bool) (c : BitVec 3) (x : Bool) (s : State) : exec (.ld w d a b m n c x) s = execLd w d a b m n c x s := rfl
theorem exec_ldAcq (w : BitVec 2) (d a b : BitVec 5) (m n : Bool) (c : BitVec 3) (x : Bool) (s : State) : exec (.ldAcq w d a b m n c x) s = execLdAcq w d a b m n c x s := rfl
theorem exec_st (w : BitVec 2) (d a b : BitVec 5) (m n : Bool) (c : BitVec 3) (s : State) : exec (.st w d a b m n c) s = execSt w d a b m n c s := rfl
theorem exec_stRel (w : BitVec 2) (d a b : BitVec 5) (m n : Bool) (c : BitVec 3) (s : State) : exec (.stRel w d a b m n c) s = execStRel w d a b m n c s := rfl
theorem exec_ldo (w : BitVec 2) (d a : BitVec 5) (im : BitVec 13) (s : State) : exec (.ldo w d a im) s = execLdo w d a im s := rfl
theorem exec_ldoS (w : BitVec 2) (d a : BitVec 5) (im : BitVec 13) (s : State) : exec (.ldoS w d a im) s = execLdoS w d a im s := rfl
theorem exec_stoB (d a : BitVec 5) (im : BitVec 13) (s : State) : exec (.stoB d a im) s = execStoB d a im s := rfl
theorem exec_stoH (d a : BitVec 5) (im : BitVec 13) (s : State) : exec (.stoH d a im) s = execStoH d a im s := rfl
theorem exec_stoW (d a : BitVec 5) (im : BitVec 13) (s : State) : exec (.stoW d a im) s = execStoW d a im s := rfl
theorem exec_sto (d a : BitVec 5) (im : BitVec 13) (s : State) : exec (.sto d a im) s = execSto d a im s := rfl
theorem exec_aaddW (d a b : BitVec 5) (m n : Bool) (c : BitVec 3) (q : BitVec 2) (r : Bool) (s : State) : exec (.aaddW d a b m n c q r) s = execAaddW d a b m n c q r s := rfl
theorem exec_aadd (d a b : BitVec 5) (m n : Bool) (c : BitVec 3) (q : BitVec 2) (r : Bool) (s : State) : exec (.aadd d a b m n c q r) s = execAadd d a b m n c q r s := rfl
theorem exec_afadd (d a b : BitVec 5) (m n : Bool) (c : BitVec 3) (q : BitVec 2) (r : Bool) (s : State) : exec (.afadd d a b m n c q r) s = execAfadd d a b m n c q r s := rfl
theorem exec_aandW (d a b : BitVec 5) (m n : Bool) (c : BitVec 3) (q : BitVec 2) (r : Bool) (s : State) : exec (.aandW d a b m n c q r) s = execAandW d a b m n c q r s := rfl
theorem exec_aand (d a b : BitVec 5) (m n : Bool) (c : BitVec 3) (q : BitVec 2) (r : Bool) (s : State) : exec (.aand d a b m n c q r) s = execAand d a b m n c q r s := rfl
theorem exec_aorW (d a b : BitVec 5) (m n : Bool) (c : BitVec 3) (q : BitVec 2) (r : Bool) (s : State) : exec (.aorW d a b m n c q r) s = execAorW d a b m n c q r s := rfl
theorem exec_aor (d a b : BitVec 5) (m n : Bool) (c : BitVec 3) (q : BitVec 2) (r : Bool) (s : State) : exec (.aor d a b m n c q r) s = execAor d a b m n c q r s := rfl
theorem exec_axorW (d a b : BitVec 5) (m n : Bool) (c : BitVec 3) (q : BitVec 2) (r : Bool) (s : State) : exec (.axorW d a b m n c q r) s = execAxorW d a b m n c q r s := rfl
theorem exec_axor (d a b : BitVec 5) (m n : Bool) (c : BitVec 3) (q : BitVec 2) (r : Bool) (s : State) : exec (.axor d a b m n c q r) s = execAxor d a b m n c q r s := rfl
theorem exec_aminW (d a b : BitVec 5) (m n : Bool) (c : BitVec 3) (q : BitVec 2) (r : Bool) (s : State) : exec (.aminW d a b m n c q r) s = execAminW d a b m n c q r s := rfl
theorem exec_amin (d a b : BitVec 5) (m n : Bool) (c : BitVec 3) (q : BitVec 2) (r : Bool) (s : State) : exec (.amin d a b m n c q r) s = execAmin d a b m n c q r s := rfl
theorem exec_aminuW (d a b : BitVec 5) (m n : Bool) (c : BitVec 3) (q : BitVec 2) (r : Bool) (s : State) : exec (.aminuW d a b m n c q r) s = execAminuW d a b m n c q r s := rfl
theorem exec_aminu (d a b : BitVec 5) (m n : Bool) (c : BitVec 3) (q : BitVec 2) (r : Bool) (s : State) : exec (.aminu d a b m n c q r) s = execAminu d a b m n c q r s := rfl
theorem exec_amaxW (d a b : BitVec 5) (m n : Bool) (c : BitVec 3) (q : BitVec 2) (r : Bool) (s : State) : exec (.amaxW d a b m n c q r) s = execAmaxW d a b m n c q r s := rfl
theorem exec_amax (d a b : BitVec 5) (m n : Bool) (c : BitVec 3) (q : BitVec 2) (r : Bool) (s : State) : exec (.amax d a b m n c q r) s = execAmax d a b m n c q r s := rfl
theorem exec_amaxuW (d a b : BitVec 5) (m n : Bool) (c : BitVec 3) (q : BitVec 2) (r : Bool) (s : State) : exec (.amaxuW d a b m n c q r) s = execAmaxuW d a b m n c q r s := rfl
theorem exec_amaxu (d a b : BitVec 5) (m n : Bool) (c : BitVec 3) (q : BitVec 2) (r : Bool) (s : State) : exec (.amaxu d a b m n c q r) s = execAmaxu d a b m n c q r s := rfl
theorem exec_axchgW (d a b : BitVec 5) (m n : Bool) (c : BitVec 3) (q : BitVec 2) (r : Bool) (s : State) : exec (.axchgW d a b m n c q r) s = execAxchgW d a b m n c q r s := rfl
theorem exec_axchg (d a b : BitVec 5) (m n : Bool) (c : BitVec 3) (q : BitVec 2) (r : Bool) (s : State) : exec (.axchg d a b m n c q r) s = execAxchg d a b m n c q r s := rfl
theorem exec_acasW (d a b : BitVec 5) (m n : Bool) (c : BitVec 3) (q : BitVec 2) (r : Bool) (s : State) : exec (.acasW d a b m n c q r) s = execAcasW d a b m n c q r s := rfl
theorem exec_acas (d a b : BitVec 5) (m n : Bool) (c : BitVec 3) (q : BitVec 2) (r : Bool) (s : State) : exec (.acas d a b m n c q r) s = execAcas d a b m n c q r s := rfl
theorem exec_qrd (w : BitVec 2) (q : BitVec 3) (a b : BitVec 5) (m n : Bool) (c k : BitVec 3) (s : State) : exec (.qrd w q a b m n c k) s = execQrd w q a b m n c k s := rfl
theorem exec_qwr (w q : BitVec 2) (a b : BitVec 5) (m n : Bool) (c k : BitVec 3) (s : State) : exec (.qwr w q a b m n c k) s = execQwr w q a b m n c k s := rfl
theorem exec_hinfo (d a b : BitVec 5) (m n : Bool) (im : BitVec 6) (s : State) : exec (.hinfo d a b m n im) s = execHinfo d a b m n im s := rfl
theorem exec_pub (d a : BitVec 5) (m : Bool) (s : State) : exec (.pub d a m) s = execPub d a m s := rfl
theorem exec_copy (d a b : BitVec 5) (r : Bool) (s : State) : exec (.copy d a b r) s = execCopy d a b r s := rfl
theorem exec_send (d a b : BitVec 5) (r : Bool) (s : State) : exec (.send d a b r) s = execSend d a b r s := rfl
theorem exec_mcast (d a b : BitVec 5) (r : Bool) (s : State) : exec (.mcast d a b r) s = execMcast d a b r s := rfl
theorem exec_redw (d a b : BitVec 5) (r : Bool) (s : State) : exec (.redw d a b r) s = execRedw d a b r s := rfl
theorem exec_brarv (a b : BitVec 5) (m n : Bool) (c : BitVec 3) (s : State) : exec (.brarv a b m n c) s = execBrarv a b m n c s := rfl
theorem exec_mark (s : State) : exec (.mark) s = execMark s := rfl
theorem exec_waita (d a b : BitVec 5) (m n : Bool) (s : State) : exec (.waita d a b m n) s = execWaita d a b m n s := rfl
theorem exec_waitc (d a : BitVec 5) (m : Bool) (s : State) : exec (.waitc d a m) s = execWaitc d a m s := rfl
theorem exec_waitct (d a b : BitVec 5) (m n : Bool) (s : State) : exec (.waitct d a b m n) s = execWaitct d a b m n s := rfl
theorem exec_vadd (d a b : BitVec 5) (r : Bool) (x : BitVec 5) (s : State) : exec (.vadd d a b r x) s = execVadd d a b r x s := rfl
theorem exec_vsub (d a b : BitVec 5) (r : Bool) (x : BitVec 5) (s : State) : exec (.vsub d a b r x) s = execVsub d a b r x s := rfl
theorem exec_vmul (d a b : BitVec 5) (r : Bool) (x : BitVec 5) (s : State) : exec (.vmul d a b r x) s = execVmul d a b r x s := rfl
theorem exec_vfma (d a b : BitVec 5) (r : Bool) (x : BitVec 5) (s : State) : exec (.vfma d a b r x) s = execVfma d a b r x s := rfl
theorem exec_vfms (d a b : BitVec 5) (r : Bool) (x : BitVec 5) (s : State) : exec (.vfms d a b r x) s = execVfms d a b r x s := rfl
theorem exec_vfnma (d a b : BitVec 5) (r : Bool) (x : BitVec 5) (s : State) : exec (.vfnma d a b r x) s = execVfnma d a b r x s := rfl
theorem exec_vadds (d a b : BitVec 5) (r : Bool) (x : BitVec 5) (s : State) : exec (.vadds d a b r x) s = execVadds d a b r x s := rfl
theorem exec_vsubs (d a b : BitVec 5) (r : Bool) (x : BitVec 5) (s : State) : exec (.vsubs d a b r x) s = execVsubs d a b r x s := rfl
theorem exec_vmuls (d a b : BitVec 5) (r : Bool) (x : BitVec 5) (s : State) : exec (.vmuls d a b r x) s = execVmuls d a b r x s := rfl
theorem exec_vdiv (d a b : BitVec 5) (r : Bool) (x : BitVec 5) (s : State) : exec (.vdiv d a b r x) s = execVdiv d a b r x s := rfl
theorem exec_vabs (d a : BitVec 5) (r : Bool) (x : BitVec 5) (s : State) : exec (.vabs d a r x) s = execVabs d a r x s := rfl
theorem exec_vneg (d a : BitVec 5) (r : Bool) (x : BitVec 5) (s : State) : exec (.vneg d a r x) s = execVneg d a r x s := rfl
theorem exec_vmin (d a b : BitVec 5) (r : Bool) (x : BitVec 5) (s : State) : exec (.vmin d a b r x) s = execVmin d a b r x s := rfl
theorem exec_vmax (d a b : BitVec 5) (r : Bool) (x : BitVec 5) (s : State) : exec (.vmax d a b r x) s = execVmax d a b r x s := rfl
theorem exec_vclamp (d a b : BitVec 5) (r : Bool) (x : BitVec 5) (s : State) : exec (.vclamp d a b r x) s = execVclamp d a b r x s := rfl
theorem exec_vrint (d a : BitVec 5) (r : Bool) (x : BitVec 5) (s : State) : exec (.vrint d a r x) s = execVrint d a r x s := rfl
theorem exec_vcvt (f : BitVec 4) (d a : BitVec 5) (t r : Bool) (p : BitVec 3) (x : BitVec 5) (s : State) : exec (.vcvt f d a t r p x) s = execVcvt f d a t r p x s := rfl
theorem exec_vcvtN (d a : BitVec 5) (t r : Bool) (p : BitVec 3) (x : BitVec 5) (s : State) : exec (.vcvtN d a t r p x) s = execVcvtN d a t r p x s := rfl
theorem exec_vexp (d a x : BitVec 5) (s : State) : exec (.vexp d a x) s = execVexp d a x s := rfl
theorem exec_vexp2 (d a x : BitVec 5) (s : State) : exec (.vexp2 d a x) s = execVexp2 d a x s := rfl
theorem exec_vlog (d a x : BitVec 5) (s : State) : exec (.vlog d a x) s = execVlog d a x s := rfl
theorem exec_vlog2 (d a x : BitVec 5) (s : State) : exec (.vlog2 d a x) s = execVlog2 d a x s := rfl
theorem exec_vrcp (d a x : BitVec 5) (s : State) : exec (.vrcp d a x) s = execVrcp d a x s := rfl
theorem exec_vrsqrt (d a x : BitVec 5) (s : State) : exec (.vrsqrt d a x) s = execVrsqrt d a x s := rfl
theorem exec_vsqrt (d a x : BitVec 5) (s : State) : exec (.vsqrt d a x) s = execVsqrt d a x s := rfl
theorem exec_vtanh (d a x : BitVec 5) (s : State) : exec (.vtanh d a x) s = execVtanh d a x s := rfl
theorem exec_vsigm (d a x : BitVec 5) (s : State) : exec (.vsigm d a x) s = execVsigm d a x s := rfl
theorem exec_vsin (d a x : BitVec 5) (s : State) : exec (.vsin d a x) s = execVsin d a x s := rfl
theorem exec_vcos (d a x : BitVec 5) (s : State) : exec (.vcos d a x) s = execVcos d a x s := rfl
theorem exec_vcmp (d a b : BitVec 5) (c : BitVec 3) (x : BitVec 5) (s : State) : exec (.vcmp d a b c x) s = execVcmp d a b c x s := rfl
theorem exec_vsel (d a b x : BitVec 5) (s : State) : exec (.vsel d a b x) s = execVsel d a b x s := rfl
theorem exec_vand (d a b x : BitVec 5) (s : State) : exec (.vand d a b x) s = execVand d a b x s := rfl
theorem exec_vor (d a b x : BitVec 5) (s : State) : exec (.vor d a b x) s = execVor d a b x s := rfl
theorem exec_vxor (d a b x : BitVec 5) (s : State) : exec (.vxor d a b x) s = execVxor d a b x s := rfl
theorem exec_vandn (d a b x : BitVec 5) (s : State) : exec (.vandn d a b x) s = execVandn d a b x s := rfl
theorem exec_vnot (d a x : BitVec 5) (s : State) : exec (.vnot d a x) s = execVnot d a x s := rfl
theorem exec_vsll (d a b x : BitVec 5) (s : State) : exec (.vsll d a b x) s = execVsll d a b x s := rfl
theorem exec_vsrl (d a b x : BitVec 5) (s : State) : exec (.vsrl d a b x) s = execVsrl d a b x s := rfl
theorem exec_vsra (d a b x : BitVec 5) (s : State) : exec (.vsra d a b x) s = execVsra d a b x s := rfl
theorem exec_vrsum (d a x : BitVec 5) (s : State) : exec (.vrsum d a x) s = execVrsum d a x s := rfl
theorem exec_vrsumsq (d a x : BitVec 5) (s : State) : exec (.vrsumsq d a x) s = execVrsumsq d a x s := rfl
theorem exec_vrmax (d a x : BitVec 5) (s : State) : exec (.vrmax d a x) s = execVrmax d a x s := rfl
theorem exec_vrmin (d a x : BitVec 5) (s : State) : exec (.vrmin d a x) s = execVrmin d a x s := rfl
theorem exec_vramax (d a x : BitVec 5) (s : State) : exec (.vramax d a x) s = execVramax d a x s := rfl
theorem exec_vscan (d a x : BitVec 5) (s : State) : exec (.vscan d a x) s = execVscan d a x s := rfl
theorem exec_vscanmax (d a x : BitVec 5) (s : State) : exec (.vscanmax d a x) s = execVscanmax d a x s := rfl
theorem exec_vscanseg (d a b x : BitVec 5) (s : State) : exec (.vscanseg d a b x) s = execVscanseg d a b x s := rfl
theorem exec_vperm (d a b x : BitVec 5) (s : State) : exec (.vperm d a b x) s = execVperm d a b x s := rfl
theorem exec_vrote (d a b x : BitVec 5) (s : State) : exec (.vrote d a b x) s = execVrote d a b x s := rfl
theorem exec_vbcast (d a b x : BitVec 5) (s : State) : exec (.vbcast d a b x) s = execVbcast d a b x s := rfl
theorem exec_vmov (d a x : BitVec 5) (s : State) : exec (.vmov d a x) s = execVmov d a x s := rfl
theorem exec_vget (d a b : BitVec 5) (n : Bool) (r : BitVec 4) (s : State) : exec (.vget d a b n r) s = execVget d a b n r s := rfl
theorem exec_vput (d a b : BitVec 5) (n : Bool) (r : BitVec 4) (s : State) : exec (.vput d a b n r) s = execVput d a b n r s := rfl
theorem exec_vshp (f : BitVec 4) (c : BitVec 5) (b : BitVec 4) (s : State) : exec (.vshp f c b) s = execVshp f c b s := rfl
theorem exec_vshpr (a : BitVec 5) (m : Bool) (s : State) : exec (.vshpr a m) s = execVshpr a m s := rfl
theorem exec_vpopc (d a x : BitVec 5) (s : State) : exec (.vpopc d a x) s = execVpopc d a x s := rfl
theorem exec_mseta (y : Bool) (a b : BitVec 5) (n : BitVec 3) (q w t : Bool) (s : State) : exec (.mseta y a b n q w t) s = execMseta y a b n q w t s := rfl
theorem exec_msetac (y : Bool) (a b : BitVec 5) (s : State) : exec (.msetac y a b) s = execMsetac y a b s := rfl
theorem exec_minca (y : Bool) (a b : BitVec 5) (s : State) : exec (.minca y a b) s = execMinca y a b s := rfl
theorem exec_msetb (y : Bool) (a b : BitVec 5) (n : BitVec 3) (q w t : Bool) (s : State) : exec (.msetb y a b n q w t) s = execMsetb y a b n q w t s := rfl
theorem exec_msetbc (y : Bool) (a b : BitVec 5) (s : State) : exec (.msetbc y a b) s = execMsetbc y a b s := rfl
theorem exec_mincb (y : Bool) (a b : BitVec 5) (s : State) : exec (.mincb y a b) s = execMincb y a b s := rfl
theorem exec_msetc (y : Bool) (a : BitVec 5) (l r : Bool) (c : BitVec 4) (s : State) : exec (.msetc y a l r c) s = execMsetc y a l r c s := rfl
theorem exec_msetcc (y : Bool) (a b : BitVec 5) (s : State) : exec (.msetcc y a b) s = execMsetcc y a b s := rfl
theorem exec_mincc (y : Bool) (a b : BitVec 5) (s : State) : exec (.mincc y a b) s = execMincc y a b s := rfl
theorem exec_mfmt (y : Bool) (a : BitVec 5) (im : BitVec 13) (s : State) : exec (.mfmt y a im) s = execMfmt y a im s := rfl
theorem exec_mstamp (y : Bool) (a : BitVec 5) (s : State) : exec (.mstamp y a) s = execMstamp y a s := rfl
theorem exec_mmul (y : Bool) (s : State) : exec (.mmul y) s = execMmul y s := rfl
theorem exec_mzero (y : Bool) (c : BitVec 4) (s : State) : exec (.mzero y c) s = execMzero y c s := rfl
theorem exec_mdrain (y : Bool) (s : State) : exec (.mdrain y) s = execMdrain y s := rfl
theorem exec_mwait (y b : Bool) (s : State) : exec (.mwait y b) s = execMwait y b s := rfl
theorem exec_mprog (y : Bool) (a : BitVec 5) (s : State) : exec (.mprog y a) s = execMprog y a s := rfl
theorem exec_fork (c : BitVec 2) (im : BitVec 18) (s : State) : exec (.fork c im) s = execFork c im s := rfl
theorem exec_done (s : State) : exec (.done) s = execDone s := rfl
theorem exec_spawn (d a b : BitVec 5) (m n : Bool) (o : BitVec 3) (s : State) : exec (.spawn d a b m n o) s = execSpawn d a b m n o s := rfl
theorem exec_join (d a b : BitVec 5) (m n : Bool) (o : BitVec 3) (s : State) : exec (.join d a b m n o) s = execJoin d a b m n o s := rfl
theorem exec_phint (a b : BitVec 5) (m n : Bool) (s : State) : exec (.phint a b m n) s = execPhint a b m n s := rfl
theorem exec_svc (d a b : BitVec 5) (m n : Bool) (im : BitVec 6) (s : State) : exec (.svc d a b m n im) s = execSvc d a b m n im s := rfl
theorem exec_iinv (a : BitVec 5) (m : Bool) (s : State) : exec (.iinv a m) s = execIinv a m s := rfl
theorem exec_commit (s : State) : exec (.commit) s = execCommit s := rfl
theorem exec_bset (c : BitVec 3) (a : BitVec 5) (im : BitVec 4) (s : State) : exec (.bset c a im) s = execBset c a im s := rfl
theorem exec_barv (a : BitVec 5) (im : BitVec 4) (s : State) : exec (.barv a im) s = execBarv a im s := rfl
theorem exec_bwait (a : BitVec 5) (im : BitVec 4) (s : State) : exec (.bwait a im) s = execBwait a im s := rfl
theorem exec_bsync (a : BitVec 5) (im : BitVec 4) (s : State) : exec (.bsync a im) s = execBsync a im s := rfl
theorem exec_bstat (d : BitVec 5) (w : Bool) (im : BitVec 4) (s : State) : exec (.bstat d w im) s = execBstat d w im s := rfl
theorem exec_csrs (d a : BitVec 5) (c : BitVec 12) (s : State) : exec (.csrs d a c) s = execCsrs d a c s := rfl
theorem exec_csrc (d a : BitVec 5) (c : BitVec 12) (s : State) : exec (.csrc d a c) s = execCsrc d a c s := rfl
theorem exec_waitd (d a : BitVec 5) (m : Bool) (s : State) : exec (.waitd d a m) s = execWaitd d a m s := rfl
theorem exec_trap (v : BitVec 4) (c : BitVec 23) (s : State) : exec (.trap v c) s = execTrap v c s := rfl
theorem exec_brk (im : BitVec 16) (s : State) : exec (.brk im) s = execBrk im s := rfl
theorem exec_gadd (d a b : BitVec 4) (s : State) : exec (.gadd d a b) s = execGadd d a b s := rfl
theorem exec_gaddI (d a : BitVec 4) (im : BitVec 17) (s : State) : exec (.gaddI d a im) s = execGaddI d a im s := rfl
theorem exec_gsub (d a b : BitVec 4) (s : State) : exec (.gsub d a b) s = execGsub d a b s := rfl
theorem exec_gsubI (d a : BitVec 4) (im : BitVec 17) (s : State) : exec (.gsubI d a im) s = execGsubI d a im s := rfl
theorem exec_gmul (d a b : BitVec 4) (s : State) : exec (.gmul d a b) s = execGmul d a b s := rfl
theorem exec_gmulI (d a : BitVec 4) (im : BitVec 17) (s : State) : exec (.gmulI d a im) s = execGmulI d a im s := rfl
theorem exec_gand (d a b : BitVec 4) (s : State) : exec (.gand d a b) s = execGand d a b s := rfl
theorem exec_gandI (d a : BitVec 4) (im : BitVec 17) (s : State) : exec (.gandI d a im) s = execGandI d a im s := rfl
theorem exec_gor (d a b : BitVec 4) (s : State) : exec (.gor d a b) s = execGor d a b s := rfl
theorem exec_gorI (d a : BitVec 4) (im : BitVec 17) (s : State) : exec (.gorI d a im) s = execGorI d a im s := rfl
theorem exec_gxor (d a b : BitVec 4) (s : State) : exec (.gxor d a b) s = execGxor d a b s := rfl
theorem exec_gxorI (d a : BitVec 4) (im : BitVec 17) (s : State) : exec (.gxorI d a im) s = execGxorI d a im s := rfl
theorem exec_gsll (d a b : BitVec 4) (s : State) : exec (.gsll d a b) s = execGsll d a b s := rfl
theorem exec_gsllI (d a : BitVec 4) (im : BitVec 17) (s : State) : exec (.gsllI d a im) s = execGsllI d a im s := rfl
theorem exec_gsrl (d a b : BitVec 4) (s : State) : exec (.gsrl d a b) s = execGsrl d a b s := rfl
theorem exec_gsrlI (d a : BitVec 4) (im : BitVec 17) (s : State) : exec (.gsrlI d a im) s = execGsrlI d a im s := rfl
theorem exec_gli (d : BitVec 4) (h : BitVec 2) (im : BitVec 16) (s : State) : exec (.gli d h im) s = execGli d h im s := rfl
theorem exec_gliK (d : BitVec 4) (h : BitVec 2) (im : BitVec 16) (s : State) : exec (.gliK d h im) s = execGliK d h im s := rfl
theorem exec_gbeq (a b : BitVec 4) (o : BitVec 18) (s : State) : exec (.gbeq a b o) s = execGbeq a b o s := rfl
theorem exec_gbne (a b : BitVec 4) (o : BitVec 18) (s : State) : exec (.gbne a b o) s = execGbne a b o s := rfl
theorem exec_gblt (a b : BitVec 4) (o : BitVec 18) (s : State) : exec (.gblt a b o) s = execGblt a b o s := rfl
theorem exec_gjmp (d a : BitVec 4) (o : BitVec 18) (s : State) : exec (.gjmp d a o) s = execGjmp d a o s := rfl
theorem exec_gld (d a : BitVec 4) (p : Bool) (w : BitVec 2) (o : BitVec 14) (s : State) : exec (.gld d a p w o) s = execGld d a p w o s := rfl
theorem exec_gst (d a : BitVec 4) (p r : Bool) (w : BitVec 2) (o : BitVec 14) (s : State) : exec (.gst d a p r w o) s = execGst d a p r w o s := rfl
theorem exec_gcsr (d a : BitVec 4) (w : Bool) (c : BitVec 12) (s : State) : exec (.gcsr d a w c) s = execGcsr d a w c s := rfl
theorem exec_gwait (s : State) : exec (.gwait) s = execGwait s := rfl
theorem exec_gev (s : State) : exec (.gev) s = execGev s := rfl
theorem exec_gsetw (a b : BitVec 4) (s : State) : exec (.gsetw a b) s = execGsetw a b s := rfl
theorem exec_gsetr (a b : BitVec 4) (s : State) : exec (.gsetr a b) s = execGsetr a b s := rfl
theorem exec_gwgt (a b : BitVec 4) (j : BitVec 3) (s : State) : exec (.gwgt a b j) s = execGwgt a b j s := rfl
theorem exec_gportDown (a : BitVec 4) (s : State) : exec (.gportDown a) s = execGportDown a s := rfl
theorem exec_gportRetrain (a : BitVec 4) (s : State) : exec (.gportRetrain a) s = execGportRetrain a s := rfl
theorem exec_gntfy (a b : BitVec 4) (s : State) : exec (.gntfy a b) s = execGntfy a b s := rfl
theorem exec_gsvc (a b : BitVec 4) (s : State) : exec (.gsvc a b) s = execGsvc a b s := rfl
theorem exec_gsend (a b : BitVec 4) (l : BitVec 14) (s : State) : exec (.gsend a b l) s = execGsend a b l s := rfl
theorem exec_gfree (b : BitVec 4) (s : State) : exec (.gfree b) s = execGfree b s := rfl
theorem exec_notifyWrite (slot : Nat) (v : BitVec 64) (s : State) : exec (.notifyWrite slot v) s = execNotifyWrite slot v s := rfl
theorem exec_mapQueue (slot : Nat) (v : BitVec 64) (s : State) : exec (.mapQueue slot v) s = execMapQueue slot v s := rfl
theorem exec_unmapQueue (slot : Nat) (s : State) : exec (.unmapQueue slot) s = execUnmapQueue slot s := rfl
theorem exec_unmapComplete (slot : Nat) (s : State) : exec (.unmapComplete slot) s = execUnmapComplete slot s := rfl
theorem exec_launchAccept (slot : Nat) (s : State) : exec (.launchAccept slot) s = execLaunchAccept slot s := rfl
theorem exec_launchExpansion (launch : Nat) (s : State) : exec (.launchExpansion launch) s = execLaunchExpansion launch s := rfl
theorem exec_taskPop (die : Nat) (s : State) : exec (.taskPop die) s = execTaskPop die s := rfl
theorem exec_gangReservation (die : Nat) (s : State) : exec (.gangReservation die) s = execGangReservation die s := rfl
theorem exec_gangStart (gang : Nat) (s : State) : exec (.gangStart gang) s = execGangStart gang s := rfl
theorem exec_ageingInterval (slot : Nat) (s : State) : exec (.ageingInterval slot) s = execAgeingInterval slot s := rfl
theorem exec_firstFetch (core : Nat) (s : State) : exec (.firstFetch core) s = execFirstFetch core s := rfl
theorem exec_launchComplete (launch : Nat) (s : State) : exec (.launchComplete launch) s = execLaunchComplete launch s := rfl
theorem exec_completionRecordTimeout (launch : Nat) (s : State) : exec (.completionRecordTimeout launch) s = execCompletionRecordTimeout launch s := rfl
theorem exec_throttleUpdate (quad : Nat) (deflected aged : Bool) (s : State) : exec (.throttleUpdate quad deflected aged) s = execThrottleUpdate quad deflected aged s := rfl
theorem exec_synctoExpiry (core : Nat) (s : State) : exec (.synctoExpiry core) s = execSynctoExpiry core s := rfl
theorem exec_femodeLimitExpiry (core : Nat) (c : Cluster) (s : State) : exec (.femodeLimitExpiry core c) s = execFemodeLimitExpiry core c s := rfl
theorem exec_producerResultWritten (core : Nat) (d : BitVec 5) (s : State) : exec (.producerResultWritten core d) s = execProducerResultWritten core d s := rfl
theorem exec_vectorRowStep (core : Nat) (s : State) : exec (.vectorRowStep core) s = execVectorRowStep core s := rfl
theorem exec_mmulArrayIssue (core : Nat) (y : ArrayId) (s : State) : exec (.mmulArrayIssue core y) s = execMmulArrayIssue core y s := rfl
theorem exec_mmulRowEntry (core : Nat) (y : ArrayId) (s : State) : exec (.mmulRowEntry core y) s = execMmulRowEntry core y s := rfl
theorem exec_drainRow (core : Nat) (y : ArrayId) (s : State) : exec (.drainRow core y) s = execDrainRow core y s := rfl
theorem exec_accessAtHome (core id : Nat) (s : State) : exec (.accessAtHome core id) s = execAccessAtHome core id s := rfl
theorem exec_engineRaceTrap (core : Nat) (s : State) : exec (.engineRaceTrap core) s = execEngineRaceTrap core s := rfl
theorem exec_eraChange (s : State) : exec (.eraChange) s = execEraChange s := rfl
theorem exec_metadataWaitTimeout (core id : Nat) (s : State) : exec (.metadataWaitTimeout core id) s = execMetadataWaitTimeout core id s := rfl
theorem exec_versionCommitComplete (core : Nat) (s : State) : exec (.versionCommitComplete core) s = execVersionCommitComplete core s := rfl
theorem exec_engineChunkWrite (core : Nat) (cmd : BitVec 16) (s : State) : exec (.engineChunkWrite core cmd) s = execEngineChunkWrite core cmd s := rfl
theorem exec_engineCompletion (core : Nat) (cmd : BitVec 16) (s : State) : exec (.engineCompletion core cmd) s = execEngineCompletion core cmd s := rfl
theorem exec_residencyWaitTimeout (core : Nat) (cmd : BitVec 16) (s : State) : exec (.residencyWaitTimeout core cmd) s = execResidencyWaitTimeout core cmd s := rfl
theorem exec_residencyWaitResume (core : Nat) (w : WaitId) (s : State) : exec (.residencyWaitResume core w) s = execResidencyWaitResume core w s := rfl
theorem exec_place (p : Packet) (shd : Bool) (s : State) : exec (.place p shd) s = execPlace p shd s := rfl
theorem exec_redu (p : Packet) (shd : Bool) (s : State) : exec (.redu p shd) s = execRedu p shd s := rfl
theorem exec_redo (p : Packet) (shd : Bool) (s : State) : exec (.redo p shd) s = execRedo p shd s := rfl
theorem exec_loadRequest (p : Packet) (len : Nat) (s : State) : exec (.loadRequest p len) s = execLoadRequest p len s := rfl
theorem exec_loadData (core id : Nat) (data : List (BitVec 8)) (s : State) : exec (.loadData core id data) s = execLoadData core id data s := rfl
theorem exec_store (p : Packet) (s : State) : exec (.store p) s = execStore p s := rfl
theorem exec_atomic (p : Packet) (op : AtomOp) (wide : Bool) (v cmp : BitVec 64) (s : State) : exec (.atomic p op wide v cmp) s = execAtomic p op wide v cmp s := rfl
theorem exec_atomicReply (core id : Nat) (old : BitVec 64) (s : State) : exec (.atomicReply core id old) s = execAtomicReply core id old s := rfl
theorem exec_rarrive (p : Packet) (s : State) : exec (.rarrive p) s = execRarrive p s := rfl
theorem exec_debugForwarding (p : Packet) (s : State) : exec (.debugForwarding p) s = execDebugForwarding p s := rfl
theorem exec_barrierArrival (core : Nat) (bar : BitVec 4) (round : BitVec 32) (launch : Option (BitVec 32)) (src : ArrivalSrc) (s : State) : exec (.barrierArrival core bar round launch src) s = execBarrierArrival core bar round launch src s := rfl
theorem exec_acknowledgement (pdc : Nat) (psn : BitVec 32) (gap : List (BitVec 32)) (ecn : Bool) (delay : BitVec 32) (s : State) : exec (.acknowledgement pdc psn gap ecn delay) s = execAcknowledgement pdc psn gap ecn delay s := rfl
theorem exec_trimmedPacket (port pdc : Nat) (node : BitVec 11) (psn : BitVec 32) (s : State) : exec (.trimmedPacket port pdc node psn) s = execTrimmedPacket port pdc node psn s := rfl
theorem exec_nack (pdc : Nat) (psn : BitVec 32) (s : State) : exec (.nack pdc psn) s = execNack pdc psn s := rfl
theorem exec_retransmissionTimeout (pdc : Nat) (psn : BitVec 32) (s : State) : exec (.retransmissionTimeout pdc psn) s = execRetransmissionTimeout pdc psn s := rfl
theorem exec_packetFail (pdc : Nat) (psn : BitVec 32) (why : Answer) (s : State) : exec (.packetFail pdc psn why) s = execPacketFail pdc psn why s := rfl
theorem exec_notReadyReply (pdc : Nat) (psn : BitVec 32) (s : State) : exec (.notReadyReply pdc psn) s = execNotReadyReply pdc psn s := rfl
theorem exec_notReadyRetransmit (pdc : Nat) (psn : BitVec 32) (s : State) : exec (.notReadyRetransmit pdc psn) s = execNotReadyRetransmit pdc psn s := rfl
theorem exec_staleReply (pdc : Nat) (psn : BitVec 32) (s : State) : exec (.staleReply pdc psn) s = execStaleReply pdc psn s := rfl
theorem exec_transitPacket (port : Nat) (t : Transit) (s : State) : exec (.transitPacket port t) s = execTransitPacket port t s := rfl
theorem exec_laneFailure (port : Nat) (lane : BitVec 2) (s : State) : exec (.laneFailure port lane) s = execLaneFailure port lane s := rfl
theorem exec_portDown (port : Nat) (info : BitVec 2) (s : State) : exec (.portDown port info) s = execPortDown port info s := rfl
theorem exec_portRetrainComplete (port : Nat) (ok : Bool) (s : State) : exec (.portRetrainComplete port ok) s = execPortRetrainComplete port ok s := rfl
theorem exec_flitDelivery (core msg : Nat) (flit : BitVec 3) (data : BitVec 512) (s : State) : exec (.flitDelivery core msg flit data) s = execFlitDelivery core msg flit data s := rfl
theorem exec_dieBridgeFailure (s : State) : exec (.dieBridgeFailure) s = execDieBridgeFailure s := rfl
theorem exec_uncorrectableError (core : Nat) (e : StorageError) (s : State) : exec (.uncorrectableError core e) s = execUncorrectableError core e s := rfl
theorem exec_fenceCore (core : Nat) (s : State) : exec (.fenceCore core) s = execFenceCore core s := rfl
theorem exec_timeSyncMessage (msg : SyncMsg) (ppm : Int) (s : State) : exec (.timeSyncMessage msg ppm) s = execTimeSyncMessage msg ppm s := rfl
theorem exec_sageWatchdog (g : Nat) (s : State) : exec (.sageWatchdog g) s = execSageWatchdog g s := rfl
theorem exec_stopRecordWrite (core : Nat) (s : State) : exec (.stopRecordWrite core) s = execStopRecordWrite core s := rfl
theorem exec_serviceResume (core : Nat) (s : State) : exec (.serviceResume core) s = execServiceResume core s := rfl
theorem exec_convertToTrap (core : Nat) (s : State) : exec (.convertToTrap core) s = execConvertToTrap core s := rfl
theorem exec_preemptionRequest (core : Nat) (d : BitVec 16) (s : State) : exec (.preemptionRequest core d) s = execPreemptionRequest core d s := rfl
theorem exec_forcedSaveDeadline (core : Nat) (s : State) : exec (.forcedSaveDeadline core) s = execForcedSaveDeadline core s := rfl
theorem exec_drainLimitExpiry (core : Nat) (s : State) : exec (.drainLimitExpiry core) s = execDrainLimitExpiry core s := rfl
theorem exec_saveImageWrite (core : Nat) (buf : BitVec 43) (s : State) : exec (.saveImageWrite core buf) s = execSaveImageWrite core buf s := rfl
theorem exec_svcReply (core : Nat) (answer : BitVec 64) (s : State) : exec (.svcReply core answer) s = execSvcReply core answer s := rfl
theorem exec_hostCxlMemAccess (addr : BitVec 43) (req : HostReq) (s : State) : exec (.hostCxlMemAccess addr req) s = execHostCxlMemAccess addr req s := rfl
theorem exec_flipToHostBias (slice : Nat) (frame : BitVec 27) (s : State) : exec (.flipToHostBias slice frame) s = execFlipToHostBias slice frame s := rfl
theorem exec_flipToDeviceBias (slice : Nat) (frame : BitVec 27) (s : State) : exec (.flipToDeviceBias slice frame) s = execFlipToDeviceBias slice frame s := rfl
theorem exec_readBias (slice : Nat) (frame : BitVec 27) (s : State) : exec (.readBias slice frame) s = execReadBias slice frame s := rfl
theorem exec_biasFlipComplete (slice : Nat) (s : State) : exec (.biasFlipComplete slice) s = execBiasFlipComplete slice s := rfl
theorem exec_tinvRecord (slice : Nat) (ctx : BitVec 16) (index : BitVec 20) (s : State) : exec (.tinvRecord slice ctx index) s = execTinvRecord slice ctx index s := rfl
theorem exec_tinvRuEntry (slice : Nat) (ctx : BitVec 16) (index : BitVec 20) (ru : BitVec 24) (s : State) : exec (.tinvRuEntry slice ctx index ru) s = execTinvRuEntry slice ctx index ru s := rfl
theorem exec_tinvContext (slice : Nat) (ctx : BitVec 16) (s : State) : exec (.tinvContext slice ctx) s = execTinvContext slice ctx s := rfl
theorem exec_tinvDevice (slice : Nat) (s : State) : exec (.tinvDevice slice) s = execTinvDevice slice s := rfl
theorem exec_invalidationComplete (slice : Nat) (s : State) : exec (.invalidationComplete slice) s = execInvalidationComplete slice s := rfl
theorem exec_devsum (addr : BitVec 37) (s : State) : exec (.devsum addr) s = execDevsum addr s := rfl
theorem exec_devsumComplete (s : State) : exec (.devsumComplete) s = execDevsumComplete s := rfl
theorem exec_boot (die : Nat) (s : State) : exec (.boot die) s = execBoot die s := rfl
theorem exec_getMeasurements (request : List (BitVec 8)) (s : State) : exec (.getMeasurements request) s = execGetMeasurements request s := rfl
theorem exec_challenge (request : List (BitVec 8)) (s : State) : exec (.challenge request) s = execChallenge request s := rfl
theorem exec_executeWord (core : Nat) (c : Cluster) (w : BitVec 32) (s : State) : exec (.executeWord core c w) s = execExecuteWord core c w s := rfl
theorem exec_debugHalt (core : Nat) (s : State) : exec (.debugHalt core) s = execDebugHalt core s := rfl
theorem exec_haltBoundaryTimeout (core : Nat) (c : Cluster) (s : State) : exec (.haltBoundaryTimeout core c) s = execHaltBoundaryTimeout core c s := rfl
theorem exec_huazuHalt (h : Huazu) (s : State) : exec (.huazuHalt h) s = execHuazuHalt h s := rfl
theorem exec_huazuResume (h : Huazu) (s : State) : exec (.huazuResume h) s = execHuazuResume h s := rfl
theorem exec_huazuRead (h : Huazu) (s : State) : exec (.huazuRead h) s = execHuazuRead h s := rfl
theorem exec_huazuWrite (h : Huazu) (s : State) : exec (.huazuWrite h) s = execHuazuWrite h s := rfl
theorem exec_huazuDevsum (h : Huazu) (s : State) : exec (.huazuDevsum h) s = execHuazuDevsum h s := rfl
theorem exec_huazuReply (h : Huazu) (s : State) : exec (.huazuReply h) s = execHuazuReply h s := rfl
theorem exec_huazuResend (seq : BitVec 16) (s : State) : exec (.huazuResend seq) s = execHuazuResend seq s := rfl
theorem exec_sample (core : Nat) (s : State) : exec (.sample core) s = execSample core s := rfl
theorem exec_controlRegisterWrite (r : CtlReg) (v : BitVec 256) (s : State) : exec (.controlRegisterWrite r v) s = execControlRegisterWrite r v s := rfl
theorem exec_waitctTimeout (core : Nat) (s : State) : exec (.waitctTimeout core) s = execWaitctTimeout core s := rfl
theorem exec_clockThrottle (mhz : Nat) (s : State) : exec (.clockThrottle mhz) s = execClockThrottle mhz s := rfl
theorem exec_frameLockInstall (slice : Nat) (old new : BitVec 27) (frames : Nat) (s : State) : exec (.frameLockInstall slice old new frames) s = execFrameLockInstall slice old new frames s := rfl
theorem exec_frameLockRelease (slice : Nat) (old : BitVec 27) (s : State) : exec (.frameLockRelease slice old) s = execFrameLockRelease slice old s := rfl
theorem exec_redirectionRemove (slice : Nat) (old : BitVec 27) (s : State) : exec (.redirectionRemove slice old) s = execRedirectionRemove slice old s := rfl
theorem exec_drainResidTrap (core : Nat) (y : ArrayId) (s : State) : exec (.drainResidTrap core y) s = execDrainResidTrap core y s := rfl
theorem exec_debugViewAccess (core offset : Nat) (write : Option (List (BitVec 8))) (len : Nat) (s : State) : exec (.debugViewAccess core offset write len) s = execDebugViewAccess core offset write len s := rfl
theorem exec_waitdTargetReached (core : Nat) (c : Cluster) (s : State) : exec (.waitdTargetReached core c) s = execWaitdTargetReached core c s := rfl
theorem exec_engineWatchStop (core : Nat) (s : State) : exec (.engineWatchStop core) s = execEngineWatchStop core s := rfl
theorem exec_illegalRsvd (w : BitVec 32) (s : State) : exec (.illegalRsvd w) s = execIllegalRsvd w s := rfl
theorem exec_notAGInstruction (w : BitVec 32) (s : State) : exec (.notAGInstruction w) s = execNotAGInstruction w s := rfl

end Sys2Proof.Machine
end

