-- ==== Sys2Proof/Laws/Tab.lean ====
section
/-!
SUPPORT. The laws of tables: what a key reads as after each change, and that the changes keep the canonical form.
-/

namespace Sys2Proof.Machine

variable {α : Type}

theorem findCell_dropCell (k : Nat) (l : List (Nat × α)) : findCell k (dropCell k l) = none := by
  induction l with
  | nil => rfl
  | cons e r ih =>
    obtain ⟨j, v⟩ := e
    by_cases h : j = k <;> simp [dropCell, findCell, h, ih]

theorem findCell_dropCell_ne {j k : Nat} (h : j ≠ k) (l : List (Nat × α)) : findCell j (dropCell k l) = findCell j l := by
  induction l with
  | nil => rfl
  | cons e r ih =>
    obtain ⟨i, v⟩ := e
    by_cases hk : i = k
    · subst hk
      simp [dropCell, findCell, ih, Ne.symm h]
    · simp only [dropCell, hk, if_false, findCell, ih]

theorem findCell_insertCell (k : Nat) (v : α) (l : List (Nat × α)) (h : findCell k l = none) :
    findCell k (insertCell k v l) = some v := by
  induction l with
  | nil => simp [insertCell, findCell]
  | cons e r ih =>
    obtain ⟨i, w⟩ := e
    by_cases hi : i = k
    · simp [findCell, hi] at h
    · simp only [findCell, hi, if_false] at h
      by_cases hk : i < k <;> simp [insertCell, findCell, hk, hi, ih h]

theorem findCell_insertCell_ne {j k : Nat} (h : j ≠ k) (v : α) (l : List (Nat × α)) :
    findCell j (insertCell k v l) = findCell j l := by
  induction l with
  | nil => simp [insertCell, findCell, Ne.symm h]
  | cons e r ih =>
    obtain ⟨i, w⟩ := e
    by_cases hk : i < k
    · simp only [insertCell, hk, if_true, findCell, ih]
    · simp [insertCell, findCell, hk, Ne.symm h]

theorem dropCell_dropCell (k : Nat) (l : List (Nat × α)) : dropCell k (dropCell k l) = dropCell k l := by
  induction l with
  | nil => rfl
  | cons e r ih =>
    obtain ⟨j, v⟩ := e
    by_cases h : j = k <;> simp [dropCell, h, ih]

theorem dropCell_insertCell (k : Nat) (v : α) (l : List (Nat × α)) : dropCell k (insertCell k v l) = dropCell k l := by
  induction l with
  | nil => simp [insertCell, dropCell]
  | cons e r ih =>
    obtain ⟨i, w⟩ := e
    by_cases hk : i < k
    · by_cases hi : i = k <;> simp [insertCell, dropCell, hk, hi, ih]
    · simp [insertCell, dropCell, hk]

/-- A key put reads as what was put. -/
@[simp] theorem Tab.get_put (t : Tab α) (d : α) (k : Nat) (v : α) : (t.put k v).get d k = v := by
  simp [Tab.get, Tab.put, findCell_insertCell _ _ _ (findCell_dropCell k t.cells)]

/-- A put changes no other key. -/
theorem Tab.get_put_ne (t : Tab α) (d : α) {j k : Nat} (h : j ≠ k) (v : α) : (t.put k v).get d j = t.get d j := by
  simp [Tab.get, Tab.put, findCell_insertCell_ne h, findCell_dropCell_ne h]

@[simp] theorem Tab.find_put (t : Tab α) (k : Nat) (v : α) : (t.put k v).find k = some v := by
  simp [Tab.find, Tab.put, findCell_insertCell _ _ _ (findCell_dropCell k t.cells)]

theorem Tab.find_put_ne (t : Tab α) {j k : Nat} (h : j ≠ k) (v : α) : (t.put k v).find j = t.find j := by
  simp [Tab.find, Tab.put, findCell_insertCell_ne h, findCell_dropCell_ne h]

/-- Of two puts at one key the second counts. -/
@[simp] theorem Tab.put_put (t : Tab α) (k : Nat) (v w : α) : (t.put k v).put k w = t.put k w := by
  simp [Tab.put, dropCell_insertCell, dropCell_dropCell]

@[simp] theorem Tab.get_erase (t : Tab α) (d : α) (k : Nat) : (t.erase k).get d k = d := by
  simp [Tab.get, Tab.erase, findCell_dropCell]

theorem Tab.get_erase_ne (t : Tab α) (d : α) {j k : Nat} (h : j ≠ k) : (t.erase k).get d j = t.get d j := by
  simp [Tab.get, Tab.erase, findCell_dropCell_ne h]

@[simp] theorem Tab.find_erase (t : Tab α) (k : Nat) : (t.erase k).find k = none := by simp [Tab.find, Tab.erase, findCell_dropCell]

theorem Tab.find_erase_ne (t : Tab α) {j k : Nat} (h : j ≠ k) : (t.erase k).find j = t.find j := by
  simp [Tab.find, Tab.erase, findCell_dropCell_ne h]

/-- A key set reads as what was set. -/
@[simp] theorem Tab.get_set [DecidableEq α] (t : Tab α) (d : α) (k : Nat) (v : α) : (t.set d k v).get d k = v := by
  by_cases h : v = d <;> simp [Tab.set, h]

/-- A set changes no other key. -/
theorem Tab.get_set_ne [DecidableEq α] (t : Tab α) (d : α) {j k : Nat} (h : j ≠ k) (v : α) :
    (t.set d k v).get d j = t.get d j := by
  by_cases hv : v = d
  · simp [Tab.set, hv, Tab.get_erase_ne t d h]
  · simp [Tab.set, hv, Tab.get_put_ne t d h]

@[simp] theorem Tab.get_empty (d : α) (k : Nat) : (Tab.empty : Tab α).get d k = d := rfl

@[simp] theorem Tab.find_empty (k : Nat) : (Tab.empty : Tab α).find k = none := rfl

/-- Are all keys of the cells above `k`? -/
def keysAbove (k : Nat) : List (Nat × α) → Prop
  | [] => True
  | (j, _) :: r => k < j ∧ keysAbove k r

theorem keysAbove_mono {i k : Nat} (h : i ≤ k) : {l : List (Nat × α)} → keysAbove k l → keysAbove i l
  | [], _ => trivial
  | (_, _) :: _, hl => ⟨Nat.lt_of_le_of_lt h hl.1, keysAbove_mono h hl.2⟩

theorem risingKeys_cons {j : Nat} {v : α} {l : List (Nat × α)} :
    risingKeys ((j, v) :: l) = true ↔ keysAbove j l ∧ risingKeys l = true := by
  induction l generalizing j v with
  | nil => simp [risingKeys, keysAbove]
  | cons e r ih =>
    obtain ⟨k, w⟩ := e
    simp only [risingKeys, keysAbove, Bool.and_eq_true, decide_eq_true_eq]
    constructor
    · intro ⟨h, hr⟩
      exact ⟨⟨h, keysAbove_mono (Nat.le_of_lt h) (ih.mp hr).1⟩, hr⟩
    · intro ⟨h, hr⟩
      exact ⟨h.1, hr⟩

theorem keysAbove_dropCell {i : Nat} (k : Nat) : {l : List (Nat × α)} → keysAbove i l → keysAbove i (dropCell k l)
  | [], _ => trivial
  | (j, v) :: r, h => by
    by_cases hj : j = k
    · simpa [dropCell, hj] using keysAbove_dropCell k h.2
    · simpa [dropCell, hj, keysAbove] using ⟨h.1, keysAbove_dropCell k h.2⟩

theorem risingKeys_dropCell (k : Nat) {l : List (Nat × α)} (h : risingKeys l = true) : risingKeys (dropCell k l) = true := by
  induction l with
  | nil => rfl
  | cons e r ih =>
    obtain ⟨j, v⟩ := e
    have hr := risingKeys_cons.mp h
    by_cases hj : j = k
    · simpa [dropCell, hj] using ih hr.2
    · simpa [dropCell, hj] using risingKeys_cons.mpr ⟨keysAbove_dropCell k hr.1, ih hr.2⟩

theorem keysAbove_insertCell {i k : Nat} (hk : i < k) (v : α) : {l : List (Nat × α)} → keysAbove i l → keysAbove i (insertCell k v l)
  | [], _ => ⟨hk, trivial⟩
  | (j, w) :: r, h => by
    by_cases hj : j < k
    · simpa [insertCell, hj, keysAbove] using ⟨h.1, keysAbove_insertCell hk v h.2⟩
    · simpa [insertCell, hj, keysAbove] using ⟨hk, h⟩

theorem risingKeys_insertCell (k : Nat) (v : α) {l : List (Nat × α)} (h : risingKeys l = true) (hk : findCell k l = none) :
    risingKeys (insertCell k v l) = true := by
  induction l with
  | nil => rfl
  | cons e r ih =>
    obtain ⟨j, w⟩ := e
    have hr := risingKeys_cons.mp h
    have hj : j ≠ k := by
      intro e
      simp [findCell, e] at hk
    have hk' : findCell k r = none := by simpa [findCell, hj] using hk
    by_cases hlt : j < k
    · simpa [insertCell, hlt] using risingKeys_cons.mpr ⟨keysAbove_insertCell hlt v hr.1, ih hr.2 hk'⟩
    · have hgt : k < j := by omega
      have ha : keysAbove k ((j, w) :: r) := ⟨hgt, keysAbove_mono (Nat.le_of_lt hgt) hr.1⟩
      simpa [insertCell, hlt] using risingKeys_cons.mpr ⟨ha, h⟩

theorem noDefault_dropCell [DecidableEq α] (d : α) (k : Nat) {l : List (Nat × α)} (h : noDefault d l = true) :
    noDefault d (dropCell k l) = true := by
  induction l with
  | nil => rfl
  | cons e r ih =>
    obtain ⟨j, v⟩ := e
    simp only [noDefault, Bool.and_eq_true, decide_eq_true_eq] at h
    by_cases hj : j = k <;> simp [dropCell, noDefault, hj, h.1, ih h.2]

theorem noDefault_insertCell [DecidableEq α] (d : α) (k : Nat) {v : α} (hv : v ≠ d) {l : List (Nat × α)} (h : noDefault d l = true) :
    noDefault d (insertCell k v l) = true := by
  induction l with
  | nil => simp [insertCell, noDefault, hv]
  | cons e r ih =>
    obtain ⟨j, w⟩ := e
    simp only [noDefault, Bool.and_eq_true, decide_eq_true_eq] at h
    by_cases hj : j < k <;> simp [insertCell, noDefault, hj, hv, h.1, h.2, ih h.2]

/-- A set keeps the canonical form. -/
theorem Tab.wf_set [DecidableEq α] (t : Tab α) (d : α) (k : Nat) (v : α) (h : t.wf d = true) : (t.set d k v).wf d = true := by
  simp only [Tab.wf, Bool.and_eq_true] at h ⊢
  by_cases hv : v = d
  · simpa [Tab.set, hv, Tab.erase] using ⟨risingKeys_dropCell k h.1, noDefault_dropCell d k h.2⟩
  · simpa [Tab.set, hv, Tab.put] using
      ⟨risingKeys_insertCell k v (risingKeys_dropCell k h.1) (findCell_dropCell k t.cells), noDefault_insertCell d k hv (noDefault_dropCell d k h.2)⟩

/-- The table that lists nothing is in the canonical form. -/
theorem Tab.wf_empty [DecidableEq α] (d : α) : (Tab.empty : Tab α).wf d = true := rfl

/-- A byte written reads back. -/
@[simp] theorem Memory.byte_setByte (m : Memory) (a : Nat) (b : Byte) : (m.setByte a b).byte a = b := Tab.get_set m 0 a b

/-- A byte written changes no other. -/
theorem Memory.byte_setByte_ne (m : Memory) {a c : Nat} (h : c ≠ a) (b : Byte) : (m.setByte a b).byte c = m.byte c :=
  Tab.get_set_ne m 0 h b

/-- A byte written keeps the memory's canonical form. -/
theorem Memory.wf_setByte (m : Memory) (a : Nat) (b : Byte) (h : m.wf = true) : (m.setByte a b).wf = true := Tab.wf_set m 0 a b h

/-- Bytes written keep the memory's canonical form. -/
theorem Memory.wf_setBytes (m : Memory) (a : Nat) (bs : List Byte) (h : m.wf = true) : (m.setBytes a bs).wf = true := by
  induction bs generalizing m a with
  | nil => exact h
  | cons b r ih => exact ih (m.setByte a b) (a + 1) (m.wf_setByte a b h)

/-- A value written keeps the memory's canonical form. -/
theorem Memory.wf_write (m : Memory) (a n v : Nat) (h : m.wf = true) : (m.write a n v).wf = true := m.wf_setBytes a (bytesOfNat n v) h

/-- Bytes written change no byte outside them. -/
theorem Memory.byte_setBytes_ne (m : Memory) (a : Nat) (bs : List Byte) {c : Nat} (h : c < a ∨ a + bs.length ≤ c) :
    (m.setBytes a bs).byte c = m.byte c := by
  induction bs generalizing m a with
  | nil => rfl
  | cons b r ih =>
    simp only [List.length_cons] at h
    rw [Memory.setBytes, ih (m.setByte a b) (a + 1) (by omega), Memory.byte_setByte_ne m (by omega)]

/-- Bytes written read back. -/
theorem Memory.byte_setBytes (m : Memory) (a : Nat) (bs : List Byte) (i : Nat) (h : i < bs.length) :
    (m.setBytes a bs).byte (a + i) = bs[i] := by
  induction bs generalizing m a i with
  | nil => simp at h
  | cons b r ih =>
    cases i with
    | zero =>
      rw [Memory.setBytes, Memory.byte_setBytes_ne _ _ _ (by omega)]
      simp
    | succ j =>
      have := ih (m.setByte a b) (a + 1) j (by simpa using h)
      rw [Memory.setBytes, show a + (j + 1) = a + 1 + j by omega, this]
      rfl

end Sys2Proof.Machine
end

