-- ==== Sys2Proof/Laws/State.lean ====
section
/-!
SUPPORT. One lemma per field per update of the state, and what the named parts of the state are after each update.
-/

namespace Sys2Proof.Machine

@[simp] theorem State.setCoreAt_steps (s : State) (n : Nat) (c : Core) : (s.setCoreAt n c).steps = s.steps := rfl
@[simp] theorem State.setCoreAt_mover (s : State) (n : Nat) (c : Core) : (s.setCoreAt n c).mover = s.mover := rfl
@[simp] theorem State.setCoreAt_core (s : State) (n : Nat) (c : Core) : (s.setCoreAt n c).core = s.core := rfl
@[simp] theorem State.setCoreAt_cluster (s : State) (n : Nat) (c : Core) : (s.setCoreAt n c).cluster = s.cluster := rfl
@[simp] theorem State.setCoreAt_sage (s : State) (n : Nat) (c : Core) : (s.setCoreAt n c).sage = s.sage := rfl
@[simp] theorem State.setCoreAt_dcc (s : State) (n : Nat) (c : Core) : (s.setCoreAt n c).dcc = s.dcc := rfl
@[simp] theorem State.setCoreAt_node (s : State) (n : Nat) (c : Core) : (s.setCoreAt n c).node = s.node := rfl
@[simp] theorem State.setCoreAt_cfence (s : State) (n : Nat) (c : Core) : (s.setCoreAt n c).cfence = s.cfence := rfl
@[simp] theorem State.setCoreAt_mem (s : State) (n : Nat) (c : Core) : (s.setCoreAt n c).mem = s.mem := rfl
@[simp] theorem State.setCoreAt_sages (s : State) (n : Nat) (c : Core) : (s.setCoreAt n c).sages = s.sages := rfl
@[simp] theorem State.setCoreAt_slices (s : State) (n : Nat) (c : Core) : (s.setCoreAt n c).slices = s.slices := rfl
@[simp] theorem State.setCoreAt_throttles (s : State) (n : Nat) (c : Core) : (s.setCoreAt n c).throttles = s.throttles := rfl
@[simp] theorem State.setCoreAt_flits (s : State) (n : Nat) (c : Core) : (s.setCoreAt n c).flits = s.flits := rfl
@[simp] theorem State.setCoreAt_planeTurns (s : State) (n : Nat) (c : Core) : (s.setCoreAt n c).planeTurns = s.planeTurns := rfl
@[simp] theorem State.setCoreAt_queues (s : State) (n : Nat) (c : Core) : (s.setCoreAt n c).queues = s.queues := rfl
@[simp] theorem State.setCoreAt_queueDescs (s : State) (n : Nat) (c : Core) : (s.setCoreAt n c).queueDescs = s.queueDescs := rfl
@[simp] theorem State.setCoreAt_live (s : State) (n : Nat) (c : Core) : (s.setCoreAt n c).live = s.live := rfl
@[simp] theorem State.setCoreAt_launches (s : State) (n : Nat) (c : Core) : (s.setCoreAt n c).launches = s.launches := rfl
@[simp] theorem State.setCoreAt_nextLaunch (s : State) (n : Nat) (c : Core) : (s.setCoreAt n c).nextLaunch = s.nextLaunch := rfl
@[simp] theorem State.setCoreAt_ready (s : State) (n : Nat) (c : Core) : (s.setCoreAt n c).ready = s.ready := rfl
@[simp] theorem State.setCoreAt_nextKey (s : State) (n : Nat) (c : Core) : (s.setCoreAt n c).nextKey = s.nextKey := rfl
@[simp] theorem State.setCoreAt_reservations (s : State) (n : Nat) (c : Core) : (s.setCoreAt n c).reservations = s.reservations := rfl
@[simp] theorem State.setCoreAt_bindings (s : State) (n : Nat) (c : Core) : (s.setCoreAt n c).bindings = s.bindings := rfl
@[simp] theorem State.setCoreAt_doorbells (s : State) (n : Nat) (c : Core) : (s.setCoreAt n c).doorbells = s.doorbells := rfl
@[simp] theorem State.setCoreAt_contexts (s : State) (n : Nat) (c : Core) : (s.setCoreAt n c).contexts = s.contexts := rfl
@[simp] theorem State.setCoreAt_partitions (s : State) (n : Nat) (c : Core) : (s.setCoreAt n c).partitions = s.partitions := rfl
@[simp] theorem State.setCoreAt_jobs (s : State) (n : Nat) (c : Core) : (s.setCoreAt n c).jobs = s.jobs := rfl
@[simp] theorem State.setCoreAt_vresLimit (s : State) (n : Nat) (c : Core) : (s.setCoreAt n c).vresLimit = s.vresLimit := rfl
@[simp] theorem State.setCoreAt_shadowSlots (s : State) (n : Nat) (c : Core) : (s.setCoreAt n c).shadowSlots = s.shadowSlots := rfl
@[simp] theorem State.setCoreAt_eraNow (s : State) (n : Nat) (c : Core) : (s.setCoreAt n c).eraNow = s.eraNow := rfl
@[simp] theorem State.setCoreAt_clocks (s : State) (n : Nat) (c : Core) : (s.setCoreAt n c).clocks = s.clocks := rfl
@[simp] theorem State.setCoreAt_vclocks (s : State) (n : Nat) (c : Core) : (s.setCoreAt n c).vclocks = s.vclocks := rfl
@[simp] theorem State.setCoreAt_commitVector (s : State) (n : Nat) (c : Core) : (s.setCoreAt n c).commitVector = s.commitVector := rfl
@[simp] theorem State.setCoreAt_dclk (s : State) (n : Nat) (c : Core) : (s.setCoreAt n c).dclk = s.dclk := rfl
@[simp] theorem State.setCoreAt_ports (s : State) (n : Nat) (c : Core) : (s.setCoreAt n c).ports = s.ports := rfl
@[simp] theorem State.setCoreAt_pdcs (s : State) (n : Nat) (c : Core) : (s.setCoreAt n c).pdcs = s.pdcs := rfl
@[simp] theorem State.setCoreAt_outbox (s : State) (n : Nat) (c : Core) : (s.setCoreAt n c).outbox = s.outbox := rfl
@[simp] theorem State.setCoreAt_replies (s : State) (n : Nat) (c : Core) : (s.setCoreAt n c).replies = s.replies := rfl
@[simp] theorem State.setCoreAt_held (s : State) (n : Nat) (c : Core) : (s.setCoreAt n c).held = s.held := rfl
@[simp] theorem State.setCoreAt_forwarded (s : State) (n : Nat) (c : Core) : (s.setCoreAt n c).forwarded = s.forwarded := rfl
@[simp] theorem State.setCoreAt_hostBias (s : State) (n : Nat) (c : Core) : (s.setCoreAt n c).hostBias = s.hostBias := rfl
@[simp] theorem State.setCoreAt_devcmd (s : State) (n : Nat) (c : Core) : (s.setCoreAt n c).devcmd = s.devcmd := rfl
@[simp] theorem State.setCoreAt_counters (s : State) (n : Nat) (c : Core) : (s.setCoreAt n c).counters = s.counters := rfl
@[simp] theorem State.setCoreAt_dwp (s : State) (n : Nat) (c : Core) : (s.setCoreAt n c).dwp = s.dwp := rfl
@[simp] theorem State.setCoreAt_huazu (s : State) (n : Nat) (c : Core) : (s.setCoreAt n c).huazu = s.huazu := rfl
@[simp] theorem State.setCoreAt_responses (s : State) (n : Nat) (c : Core) : (s.setCoreAt n c).responses = s.responses := rfl
@[simp] theorem State.setCoreAt_bootLog (s : State) (n : Nat) (c : Core) : (s.setCoreAt n c).bootLog = s.bootLog := rfl
@[simp] theorem State.setCoreAt_booted (s : State) (n : Nat) (c : Core) : (s.setCoreAt n c).booted = s.booted := rfl
@[simp] theorem State.setCoreAt_rollback (s : State) (n : Nat) (c : Core) : (s.setCoreAt n c).rollback = s.rollback := rfl
@[simp] theorem State.setCoreAt_bridgeFailed (s : State) (n : Nat) (c : Core) : (s.setCoreAt n c).bridgeFailed = s.bridgeFailed := rfl
@[simp] theorem State.setCoreAt_retired (s : State) (n : Nat) (c : Core) : (s.setCoreAt n c).retired = s.retired := rfl
@[simp] theorem State.setCoreAt_scratchErrors (s : State) (n : Nat) (c : Core) : (s.setCoreAt n c).scratchErrors = s.scratchErrors := rfl
@[simp] theorem State.setCoreAt_servo (s : State) (n : Nat) (c : Core) : (s.setCoreAt n c).servo = s.servo := rfl
@[simp] theorem State.setCoreAt_clockMHz (s : State) (n : Nat) (c : Core) : (s.setCoreAt n c).clockMHz = s.clockMHz := rfl
@[simp] theorem State.setCoreAt_bitAgents (s : State) (n : Nat) (c : Core) : (s.setCoreAt n c).bitAgents = s.bitAgents := rfl
@[simp] theorem State.setCoreAt_mapBytes (s : State) (n : Nat) (c : Core) : (s.setCoreAt n c).mapBytes = s.mapBytes := rfl

@[simp] theorem State.setCur_steps (s : State) (c : Core) : (s.setCur c).steps = s.steps := rfl
@[simp] theorem State.setCur_mover (s : State) (c : Core) : (s.setCur c).mover = s.mover := rfl
@[simp] theorem State.setCur_core (s : State) (c : Core) : (s.setCur c).core = s.core := rfl
@[simp] theorem State.setCur_cluster (s : State) (c : Core) : (s.setCur c).cluster = s.cluster := rfl
@[simp] theorem State.setCur_sage (s : State) (c : Core) : (s.setCur c).sage = s.sage := rfl
@[simp] theorem State.setCur_dcc (s : State) (c : Core) : (s.setCur c).dcc = s.dcc := rfl
@[simp] theorem State.setCur_node (s : State) (c : Core) : (s.setCur c).node = s.node := rfl
@[simp] theorem State.setCur_cfence (s : State) (c : Core) : (s.setCur c).cfence = s.cfence := rfl
@[simp] theorem State.setCur_mem (s : State) (c : Core) : (s.setCur c).mem = s.mem := rfl
@[simp] theorem State.setCur_sages (s : State) (c : Core) : (s.setCur c).sages = s.sages := rfl
@[simp] theorem State.setCur_slices (s : State) (c : Core) : (s.setCur c).slices = s.slices := rfl
@[simp] theorem State.setCur_throttles (s : State) (c : Core) : (s.setCur c).throttles = s.throttles := rfl
@[simp] theorem State.setCur_flits (s : State) (c : Core) : (s.setCur c).flits = s.flits := rfl
@[simp] theorem State.setCur_planeTurns (s : State) (c : Core) : (s.setCur c).planeTurns = s.planeTurns := rfl
@[simp] theorem State.setCur_queues (s : State) (c : Core) : (s.setCur c).queues = s.queues := rfl
@[simp] theorem State.setCur_queueDescs (s : State) (c : Core) : (s.setCur c).queueDescs = s.queueDescs := rfl
@[simp] theorem State.setCur_live (s : State) (c : Core) : (s.setCur c).live = s.live := rfl
@[simp] theorem State.setCur_launches (s : State) (c : Core) : (s.setCur c).launches = s.launches := rfl
@[simp] theorem State.setCur_nextLaunch (s : State) (c : Core) : (s.setCur c).nextLaunch = s.nextLaunch := rfl
@[simp] theorem State.setCur_ready (s : State) (c : Core) : (s.setCur c).ready = s.ready := rfl
@[simp] theorem State.setCur_nextKey (s : State) (c : Core) : (s.setCur c).nextKey = s.nextKey := rfl
@[simp] theorem State.setCur_reservations (s : State) (c : Core) : (s.setCur c).reservations = s.reservations := rfl
@[simp] theorem State.setCur_bindings (s : State) (c : Core) : (s.setCur c).bindings = s.bindings := rfl
@[simp] theorem State.setCur_doorbells (s : State) (c : Core) : (s.setCur c).doorbells = s.doorbells := rfl
@[simp] theorem State.setCur_contexts (s : State) (c : Core) : (s.setCur c).contexts = s.contexts := rfl
@[simp] theorem State.setCur_partitions (s : State) (c : Core) : (s.setCur c).partitions = s.partitions := rfl
@[simp] theorem State.setCur_jobs (s : State) (c : Core) : (s.setCur c).jobs = s.jobs := rfl
@[simp] theorem State.setCur_vresLimit (s : State) (c : Core) : (s.setCur c).vresLimit = s.vresLimit := rfl
@[simp] theorem State.setCur_shadowSlots (s : State) (c : Core) : (s.setCur c).shadowSlots = s.shadowSlots := rfl
@[simp] theorem State.setCur_eraNow (s : State) (c : Core) : (s.setCur c).eraNow = s.eraNow := rfl
@[simp] theorem State.setCur_clocks (s : State) (c : Core) : (s.setCur c).clocks = s.clocks := rfl
@[simp] theorem State.setCur_vclocks (s : State) (c : Core) : (s.setCur c).vclocks = s.vclocks := rfl
@[simp] theorem State.setCur_commitVector (s : State) (c : Core) : (s.setCur c).commitVector = s.commitVector := rfl
@[simp] theorem State.setCur_dclk (s : State) (c : Core) : (s.setCur c).dclk = s.dclk := rfl
@[simp] theorem State.setCur_ports (s : State) (c : Core) : (s.setCur c).ports = s.ports := rfl
@[simp] theorem State.setCur_pdcs (s : State) (c : Core) : (s.setCur c).pdcs = s.pdcs := rfl
@[simp] theorem State.setCur_outbox (s : State) (c : Core) : (s.setCur c).outbox = s.outbox := rfl
@[simp] theorem State.setCur_replies (s : State) (c : Core) : (s.setCur c).replies = s.replies := rfl
@[simp] theorem State.setCur_held (s : State) (c : Core) : (s.setCur c).held = s.held := rfl
@[simp] theorem State.setCur_forwarded (s : State) (c : Core) : (s.setCur c).forwarded = s.forwarded := rfl
@[simp] theorem State.setCur_hostBias (s : State) (c : Core) : (s.setCur c).hostBias = s.hostBias := rfl
@[simp] theorem State.setCur_devcmd (s : State) (c : Core) : (s.setCur c).devcmd = s.devcmd := rfl
@[simp] theorem State.setCur_counters (s : State) (c : Core) : (s.setCur c).counters = s.counters := rfl
@[simp] theorem State.setCur_dwp (s : State) (c : Core) : (s.setCur c).dwp = s.dwp := rfl
@[simp] theorem State.setCur_huazu (s : State) (c : Core) : (s.setCur c).huazu = s.huazu := rfl
@[simp] theorem State.setCur_responses (s : State) (c : Core) : (s.setCur c).responses = s.responses := rfl
@[simp] theorem State.setCur_bootLog (s : State) (c : Core) : (s.setCur c).bootLog = s.bootLog := rfl
@[simp] theorem State.setCur_booted (s : State) (c : Core) : (s.setCur c).booted = s.booted := rfl
@[simp] theorem State.setCur_rollback (s : State) (c : Core) : (s.setCur c).rollback = s.rollback := rfl
@[simp] theorem State.setCur_bridgeFailed (s : State) (c : Core) : (s.setCur c).bridgeFailed = s.bridgeFailed := rfl
@[simp] theorem State.setCur_retired (s : State) (c : Core) : (s.setCur c).retired = s.retired := rfl
@[simp] theorem State.setCur_scratchErrors (s : State) (c : Core) : (s.setCur c).scratchErrors = s.scratchErrors := rfl
@[simp] theorem State.setCur_servo (s : State) (c : Core) : (s.setCur c).servo = s.servo := rfl
@[simp] theorem State.setCur_clockMHz (s : State) (c : Core) : (s.setCur c).clockMHz = s.clockMHz := rfl
@[simp] theorem State.setCur_bitAgents (s : State) (c : Core) : (s.setCur c).bitAgents = s.bitAgents := rfl
@[simp] theorem State.setCur_mapBytes (s : State) (c : Core) : (s.setCur c).mapBytes = s.mapBytes := rfl

@[simp] theorem State.setCl_steps (s : State) (x : ClusterState) : (s.setCl x).steps = s.steps := rfl
@[simp] theorem State.setCl_mover (s : State) (x : ClusterState) : (s.setCl x).mover = s.mover := rfl
@[simp] theorem State.setCl_core (s : State) (x : ClusterState) : (s.setCl x).core = s.core := rfl
@[simp] theorem State.setCl_cluster (s : State) (x : ClusterState) : (s.setCl x).cluster = s.cluster := rfl
@[simp] theorem State.setCl_sage (s : State) (x : ClusterState) : (s.setCl x).sage = s.sage := rfl
@[simp] theorem State.setCl_dcc (s : State) (x : ClusterState) : (s.setCl x).dcc = s.dcc := rfl
@[simp] theorem State.setCl_node (s : State) (x : ClusterState) : (s.setCl x).node = s.node := rfl
@[simp] theorem State.setCl_cfence (s : State) (x : ClusterState) : (s.setCl x).cfence = s.cfence := rfl
@[simp] theorem State.setCl_mem (s : State) (x : ClusterState) : (s.setCl x).mem = s.mem := rfl
@[simp] theorem State.setCl_sages (s : State) (x : ClusterState) : (s.setCl x).sages = s.sages := rfl
@[simp] theorem State.setCl_slices (s : State) (x : ClusterState) : (s.setCl x).slices = s.slices := rfl
@[simp] theorem State.setCl_throttles (s : State) (x : ClusterState) : (s.setCl x).throttles = s.throttles := rfl
@[simp] theorem State.setCl_flits (s : State) (x : ClusterState) : (s.setCl x).flits = s.flits := rfl
@[simp] theorem State.setCl_planeTurns (s : State) (x : ClusterState) : (s.setCl x).planeTurns = s.planeTurns := rfl
@[simp] theorem State.setCl_queues (s : State) (x : ClusterState) : (s.setCl x).queues = s.queues := rfl
@[simp] theorem State.setCl_queueDescs (s : State) (x : ClusterState) : (s.setCl x).queueDescs = s.queueDescs := rfl
@[simp] theorem State.setCl_live (s : State) (x : ClusterState) : (s.setCl x).live = s.live := rfl
@[simp] theorem State.setCl_launches (s : State) (x : ClusterState) : (s.setCl x).launches = s.launches := rfl
@[simp] theorem State.setCl_nextLaunch (s : State) (x : ClusterState) : (s.setCl x).nextLaunch = s.nextLaunch := rfl
@[simp] theorem State.setCl_ready (s : State) (x : ClusterState) : (s.setCl x).ready = s.ready := rfl
@[simp] theorem State.setCl_nextKey (s : State) (x : ClusterState) : (s.setCl x).nextKey = s.nextKey := rfl
@[simp] theorem State.setCl_reservations (s : State) (x : ClusterState) : (s.setCl x).reservations = s.reservations := rfl
@[simp] theorem State.setCl_bindings (s : State) (x : ClusterState) : (s.setCl x).bindings = s.bindings := rfl
@[simp] theorem State.setCl_doorbells (s : State) (x : ClusterState) : (s.setCl x).doorbells = s.doorbells := rfl
@[simp] theorem State.setCl_contexts (s : State) (x : ClusterState) : (s.setCl x).contexts = s.contexts := rfl
@[simp] theorem State.setCl_partitions (s : State) (x : ClusterState) : (s.setCl x).partitions = s.partitions := rfl
@[simp] theorem State.setCl_jobs (s : State) (x : ClusterState) : (s.setCl x).jobs = s.jobs := rfl
@[simp] theorem State.setCl_vresLimit (s : State) (x : ClusterState) : (s.setCl x).vresLimit = s.vresLimit := rfl
@[simp] theorem State.setCl_shadowSlots (s : State) (x : ClusterState) : (s.setCl x).shadowSlots = s.shadowSlots := rfl
@[simp] theorem State.setCl_eraNow (s : State) (x : ClusterState) : (s.setCl x).eraNow = s.eraNow := rfl
@[simp] theorem State.setCl_clocks (s : State) (x : ClusterState) : (s.setCl x).clocks = s.clocks := rfl
@[simp] theorem State.setCl_vclocks (s : State) (x : ClusterState) : (s.setCl x).vclocks = s.vclocks := rfl
@[simp] theorem State.setCl_commitVector (s : State) (x : ClusterState) : (s.setCl x).commitVector = s.commitVector := rfl
@[simp] theorem State.setCl_dclk (s : State) (x : ClusterState) : (s.setCl x).dclk = s.dclk := rfl
@[simp] theorem State.setCl_ports (s : State) (x : ClusterState) : (s.setCl x).ports = s.ports := rfl
@[simp] theorem State.setCl_pdcs (s : State) (x : ClusterState) : (s.setCl x).pdcs = s.pdcs := rfl
@[simp] theorem State.setCl_outbox (s : State) (x : ClusterState) : (s.setCl x).outbox = s.outbox := rfl
@[simp] theorem State.setCl_replies (s : State) (x : ClusterState) : (s.setCl x).replies = s.replies := rfl
@[simp] theorem State.setCl_held (s : State) (x : ClusterState) : (s.setCl x).held = s.held := rfl
@[simp] theorem State.setCl_forwarded (s : State) (x : ClusterState) : (s.setCl x).forwarded = s.forwarded := rfl
@[simp] theorem State.setCl_hostBias (s : State) (x : ClusterState) : (s.setCl x).hostBias = s.hostBias := rfl
@[simp] theorem State.setCl_devcmd (s : State) (x : ClusterState) : (s.setCl x).devcmd = s.devcmd := rfl
@[simp] theorem State.setCl_counters (s : State) (x : ClusterState) : (s.setCl x).counters = s.counters := rfl
@[simp] theorem State.setCl_dwp (s : State) (x : ClusterState) : (s.setCl x).dwp = s.dwp := rfl
@[simp] theorem State.setCl_huazu (s : State) (x : ClusterState) : (s.setCl x).huazu = s.huazu := rfl
@[simp] theorem State.setCl_responses (s : State) (x : ClusterState) : (s.setCl x).responses = s.responses := rfl
@[simp] theorem State.setCl_bootLog (s : State) (x : ClusterState) : (s.setCl x).bootLog = s.bootLog := rfl
@[simp] theorem State.setCl_booted (s : State) (x : ClusterState) : (s.setCl x).booted = s.booted := rfl
@[simp] theorem State.setCl_rollback (s : State) (x : ClusterState) : (s.setCl x).rollback = s.rollback := rfl
@[simp] theorem State.setCl_bridgeFailed (s : State) (x : ClusterState) : (s.setCl x).bridgeFailed = s.bridgeFailed := rfl
@[simp] theorem State.setCl_retired (s : State) (x : ClusterState) : (s.setCl x).retired = s.retired := rfl
@[simp] theorem State.setCl_scratchErrors (s : State) (x : ClusterState) : (s.setCl x).scratchErrors = s.scratchErrors := rfl
@[simp] theorem State.setCl_servo (s : State) (x : ClusterState) : (s.setCl x).servo = s.servo := rfl
@[simp] theorem State.setCl_clockMHz (s : State) (x : ClusterState) : (s.setCl x).clockMHz = s.clockMHz := rfl
@[simp] theorem State.setCl_bitAgents (s : State) (x : ClusterState) : (s.setCl x).bitAgents = s.bitAgents := rfl
@[simp] theorem State.setCl_mapBytes (s : State) (x : ClusterState) : (s.setCl x).mapBytes = s.mapBytes := rfl

@[simp] theorem State.putScal_steps (s : State) (d : BitVec 5) (v : DWord) : (s.putScal d v).steps = s.steps := rfl
@[simp] theorem State.putScal_mover (s : State) (d : BitVec 5) (v : DWord) : (s.putScal d v).mover = s.mover := rfl
@[simp] theorem State.putScal_core (s : State) (d : BitVec 5) (v : DWord) : (s.putScal d v).core = s.core := rfl
@[simp] theorem State.putScal_cluster (s : State) (d : BitVec 5) (v : DWord) : (s.putScal d v).cluster = s.cluster := rfl
@[simp] theorem State.putScal_sage (s : State) (d : BitVec 5) (v : DWord) : (s.putScal d v).sage = s.sage := rfl
@[simp] theorem State.putScal_dcc (s : State) (d : BitVec 5) (v : DWord) : (s.putScal d v).dcc = s.dcc := rfl
@[simp] theorem State.putScal_node (s : State) (d : BitVec 5) (v : DWord) : (s.putScal d v).node = s.node := rfl
@[simp] theorem State.putScal_cfence (s : State) (d : BitVec 5) (v : DWord) : (s.putScal d v).cfence = s.cfence := rfl
@[simp] theorem State.putScal_mem (s : State) (d : BitVec 5) (v : DWord) : (s.putScal d v).mem = s.mem := rfl
@[simp] theorem State.putScal_sages (s : State) (d : BitVec 5) (v : DWord) : (s.putScal d v).sages = s.sages := rfl
@[simp] theorem State.putScal_slices (s : State) (d : BitVec 5) (v : DWord) : (s.putScal d v).slices = s.slices := rfl
@[simp] theorem State.putScal_throttles (s : State) (d : BitVec 5) (v : DWord) : (s.putScal d v).throttles = s.throttles := rfl
@[simp] theorem State.putScal_flits (s : State) (d : BitVec 5) (v : DWord) : (s.putScal d v).flits = s.flits := rfl
@[simp] theorem State.putScal_planeTurns (s : State) (d : BitVec 5) (v : DWord) : (s.putScal d v).planeTurns = s.planeTurns := rfl
@[simp] theorem State.putScal_queues (s : State) (d : BitVec 5) (v : DWord) : (s.putScal d v).queues = s.queues := rfl
@[simp] theorem State.putScal_queueDescs (s : State) (d : BitVec 5) (v : DWord) : (s.putScal d v).queueDescs = s.queueDescs := rfl
@[simp] theorem State.putScal_live (s : State) (d : BitVec 5) (v : DWord) : (s.putScal d v).live = s.live := rfl
@[simp] theorem State.putScal_launches (s : State) (d : BitVec 5) (v : DWord) : (s.putScal d v).launches = s.launches := rfl
@[simp] theorem State.putScal_nextLaunch (s : State) (d : BitVec 5) (v : DWord) : (s.putScal d v).nextLaunch = s.nextLaunch := rfl
@[simp] theorem State.putScal_ready (s : State) (d : BitVec 5) (v : DWord) : (s.putScal d v).ready = s.ready := rfl
@[simp] theorem State.putScal_nextKey (s : State) (d : BitVec 5) (v : DWord) : (s.putScal d v).nextKey = s.nextKey := rfl
@[simp] theorem State.putScal_reservations (s : State) (d : BitVec 5) (v : DWord) : (s.putScal d v).reservations = s.reservations := rfl
@[simp] theorem State.putScal_bindings (s : State) (d : BitVec 5) (v : DWord) : (s.putScal d v).bindings = s.bindings := rfl
@[simp] theorem State.putScal_doorbells (s : State) (d : BitVec 5) (v : DWord) : (s.putScal d v).doorbells = s.doorbells := rfl
@[simp] theorem State.putScal_contexts (s : State) (d : BitVec 5) (v : DWord) : (s.putScal d v).contexts = s.contexts := rfl
@[simp] theorem State.putScal_partitions (s : State) (d : BitVec 5) (v : DWord) : (s.putScal d v).partitions = s.partitions := rfl
@[simp] theorem State.putScal_jobs (s : State) (d : BitVec 5) (v : DWord) : (s.putScal d v).jobs = s.jobs := rfl
@[simp] theorem State.putScal_vresLimit (s : State) (d : BitVec 5) (v : DWord) : (s.putScal d v).vresLimit = s.vresLimit := rfl
@[simp] theorem State.putScal_shadowSlots (s : State) (d : BitVec 5) (v : DWord) : (s.putScal d v).shadowSlots = s.shadowSlots := rfl
@[simp] theorem State.putScal_eraNow (s : State) (d : BitVec 5) (v : DWord) : (s.putScal d v).eraNow = s.eraNow := rfl
@[simp] theorem State.putScal_clocks (s : State) (d : BitVec 5) (v : DWord) : (s.putScal d v).clocks = s.clocks := rfl
@[simp] theorem State.putScal_vclocks (s : State) (d : BitVec 5) (v : DWord) : (s.putScal d v).vclocks = s.vclocks := rfl
@[simp] theorem State.putScal_commitVector (s : State) (d : BitVec 5) (v : DWord) : (s.putScal d v).commitVector = s.commitVector := rfl
@[simp] theorem State.putScal_dclk (s : State) (d : BitVec 5) (v : DWord) : (s.putScal d v).dclk = s.dclk := rfl
@[simp] theorem State.putScal_ports (s : State) (d : BitVec 5) (v : DWord) : (s.putScal d v).ports = s.ports := rfl
@[simp] theorem State.putScal_pdcs (s : State) (d : BitVec 5) (v : DWord) : (s.putScal d v).pdcs = s.pdcs := rfl
@[simp] theorem State.putScal_outbox (s : State) (d : BitVec 5) (v : DWord) : (s.putScal d v).outbox = s.outbox := rfl
@[simp] theorem State.putScal_replies (s : State) (d : BitVec 5) (v : DWord) : (s.putScal d v).replies = s.replies := rfl
@[simp] theorem State.putScal_held (s : State) (d : BitVec 5) (v : DWord) : (s.putScal d v).held = s.held := rfl
@[simp] theorem State.putScal_forwarded (s : State) (d : BitVec 5) (v : DWord) : (s.putScal d v).forwarded = s.forwarded := rfl
@[simp] theorem State.putScal_hostBias (s : State) (d : BitVec 5) (v : DWord) : (s.putScal d v).hostBias = s.hostBias := rfl
@[simp] theorem State.putScal_devcmd (s : State) (d : BitVec 5) (v : DWord) : (s.putScal d v).devcmd = s.devcmd := rfl
@[simp] theorem State.putScal_counters (s : State) (d : BitVec 5) (v : DWord) : (s.putScal d v).counters = s.counters := rfl
@[simp] theorem State.putScal_dwp (s : State) (d : BitVec 5) (v : DWord) : (s.putScal d v).dwp = s.dwp := rfl
@[simp] theorem State.putScal_huazu (s : State) (d : BitVec 5) (v : DWord) : (s.putScal d v).huazu = s.huazu := rfl
@[simp] theorem State.putScal_responses (s : State) (d : BitVec 5) (v : DWord) : (s.putScal d v).responses = s.responses := rfl
@[simp] theorem State.putScal_bootLog (s : State) (d : BitVec 5) (v : DWord) : (s.putScal d v).bootLog = s.bootLog := rfl
@[simp] theorem State.putScal_booted (s : State) (d : BitVec 5) (v : DWord) : (s.putScal d v).booted = s.booted := rfl
@[simp] theorem State.putScal_rollback (s : State) (d : BitVec 5) (v : DWord) : (s.putScal d v).rollback = s.rollback := rfl
@[simp] theorem State.putScal_bridgeFailed (s : State) (d : BitVec 5) (v : DWord) : (s.putScal d v).bridgeFailed = s.bridgeFailed := rfl
@[simp] theorem State.putScal_retired (s : State) (d : BitVec 5) (v : DWord) : (s.putScal d v).retired = s.retired := rfl
@[simp] theorem State.putScal_scratchErrors (s : State) (d : BitVec 5) (v : DWord) : (s.putScal d v).scratchErrors = s.scratchErrors := rfl
@[simp] theorem State.putScal_servo (s : State) (d : BitVec 5) (v : DWord) : (s.putScal d v).servo = s.servo := rfl
@[simp] theorem State.putScal_clockMHz (s : State) (d : BitVec 5) (v : DWord) : (s.putScal d v).clockMHz = s.clockMHz := rfl
@[simp] theorem State.putScal_bitAgents (s : State) (d : BitVec 5) (v : DWord) : (s.putScal d v).bitAgents = s.bitAgents := rfl
@[simp] theorem State.putScal_mapBytes (s : State) (d : BitVec 5) (v : DWord) : (s.putScal d v).mapBytes = s.mapBytes := rfl

@[simp] theorem State.setSlice_steps (s : State) (n : Nat) (x : Slice) : (s.setSlice n x).steps = s.steps := rfl
@[simp] theorem State.setSlice_mover (s : State) (n : Nat) (x : Slice) : (s.setSlice n x).mover = s.mover := rfl
@[simp] theorem State.setSlice_core (s : State) (n : Nat) (x : Slice) : (s.setSlice n x).core = s.core := rfl
@[simp] theorem State.setSlice_cluster (s : State) (n : Nat) (x : Slice) : (s.setSlice n x).cluster = s.cluster := rfl
@[simp] theorem State.setSlice_sage (s : State) (n : Nat) (x : Slice) : (s.setSlice n x).sage = s.sage := rfl
@[simp] theorem State.setSlice_dcc (s : State) (n : Nat) (x : Slice) : (s.setSlice n x).dcc = s.dcc := rfl
@[simp] theorem State.setSlice_node (s : State) (n : Nat) (x : Slice) : (s.setSlice n x).node = s.node := rfl
@[simp] theorem State.setSlice_cfence (s : State) (n : Nat) (x : Slice) : (s.setSlice n x).cfence = s.cfence := rfl
@[simp] theorem State.setSlice_mem (s : State) (n : Nat) (x : Slice) : (s.setSlice n x).mem = s.mem := rfl
@[simp] theorem State.setSlice_cores (s : State) (n : Nat) (x : Slice) : (s.setSlice n x).cores = s.cores := rfl
@[simp] theorem State.setSlice_sages (s : State) (n : Nat) (x : Slice) : (s.setSlice n x).sages = s.sages := rfl
@[simp] theorem State.setSlice_throttles (s : State) (n : Nat) (x : Slice) : (s.setSlice n x).throttles = s.throttles := rfl
@[simp] theorem State.setSlice_flits (s : State) (n : Nat) (x : Slice) : (s.setSlice n x).flits = s.flits := rfl
@[simp] theorem State.setSlice_planeTurns (s : State) (n : Nat) (x : Slice) : (s.setSlice n x).planeTurns = s.planeTurns := rfl
@[simp] theorem State.setSlice_queues (s : State) (n : Nat) (x : Slice) : (s.setSlice n x).queues = s.queues := rfl
@[simp] theorem State.setSlice_queueDescs (s : State) (n : Nat) (x : Slice) : (s.setSlice n x).queueDescs = s.queueDescs := rfl
@[simp] theorem State.setSlice_live (s : State) (n : Nat) (x : Slice) : (s.setSlice n x).live = s.live := rfl
@[simp] theorem State.setSlice_launches (s : State) (n : Nat) (x : Slice) : (s.setSlice n x).launches = s.launches := rfl
@[simp] theorem State.setSlice_nextLaunch (s : State) (n : Nat) (x : Slice) : (s.setSlice n x).nextLaunch = s.nextLaunch := rfl
@[simp] theorem State.setSlice_ready (s : State) (n : Nat) (x : Slice) : (s.setSlice n x).ready = s.ready := rfl
@[simp] theorem State.setSlice_nextKey (s : State) (n : Nat) (x : Slice) : (s.setSlice n x).nextKey = s.nextKey := rfl
@[simp] theorem State.setSlice_reservations (s : State) (n : Nat) (x : Slice) : (s.setSlice n x).reservations = s.reservations := rfl
@[simp] theorem State.setSlice_bindings (s : State) (n : Nat) (x : Slice) : (s.setSlice n x).bindings = s.bindings := rfl
@[simp] theorem State.setSlice_doorbells (s : State) (n : Nat) (x : Slice) : (s.setSlice n x).doorbells = s.doorbells := rfl
@[simp] theorem State.setSlice_contexts (s : State) (n : Nat) (x : Slice) : (s.setSlice n x).contexts = s.contexts := rfl
@[simp] theorem State.setSlice_partitions (s : State) (n : Nat) (x : Slice) : (s.setSlice n x).partitions = s.partitions := rfl
@[simp] theorem State.setSlice_jobs (s : State) (n : Nat) (x : Slice) : (s.setSlice n x).jobs = s.jobs := rfl
@[simp] theorem State.setSlice_vresLimit (s : State) (n : Nat) (x : Slice) : (s.setSlice n x).vresLimit = s.vresLimit := rfl
@[simp] theorem State.setSlice_shadowSlots (s : State) (n : Nat) (x : Slice) : (s.setSlice n x).shadowSlots = s.shadowSlots := rfl
@[simp] theorem State.setSlice_eraNow (s : State) (n : Nat) (x : Slice) : (s.setSlice n x).eraNow = s.eraNow := rfl
@[simp] theorem State.setSlice_clocks (s : State) (n : Nat) (x : Slice) : (s.setSlice n x).clocks = s.clocks := rfl
@[simp] theorem State.setSlice_vclocks (s : State) (n : Nat) (x : Slice) : (s.setSlice n x).vclocks = s.vclocks := rfl
@[simp] theorem State.setSlice_commitVector (s : State) (n : Nat) (x : Slice) : (s.setSlice n x).commitVector = s.commitVector := rfl
@[simp] theorem State.setSlice_dclk (s : State) (n : Nat) (x : Slice) : (s.setSlice n x).dclk = s.dclk := rfl
@[simp] theorem State.setSlice_ports (s : State) (n : Nat) (x : Slice) : (s.setSlice n x).ports = s.ports := rfl
@[simp] theorem State.setSlice_pdcs (s : State) (n : Nat) (x : Slice) : (s.setSlice n x).pdcs = s.pdcs := rfl
@[simp] theorem State.setSlice_outbox (s : State) (n : Nat) (x : Slice) : (s.setSlice n x).outbox = s.outbox := rfl
@[simp] theorem State.setSlice_replies (s : State) (n : Nat) (x : Slice) : (s.setSlice n x).replies = s.replies := rfl
@[simp] theorem State.setSlice_held (s : State) (n : Nat) (x : Slice) : (s.setSlice n x).held = s.held := rfl
@[simp] theorem State.setSlice_forwarded (s : State) (n : Nat) (x : Slice) : (s.setSlice n x).forwarded = s.forwarded := rfl
@[simp] theorem State.setSlice_hostBias (s : State) (n : Nat) (x : Slice) : (s.setSlice n x).hostBias = s.hostBias := rfl
@[simp] theorem State.setSlice_devcmd (s : State) (n : Nat) (x : Slice) : (s.setSlice n x).devcmd = s.devcmd := rfl
@[simp] theorem State.setSlice_counters (s : State) (n : Nat) (x : Slice) : (s.setSlice n x).counters = s.counters := rfl
@[simp] theorem State.setSlice_dwp (s : State) (n : Nat) (x : Slice) : (s.setSlice n x).dwp = s.dwp := rfl
@[simp] theorem State.setSlice_huazu (s : State) (n : Nat) (x : Slice) : (s.setSlice n x).huazu = s.huazu := rfl
@[simp] theorem State.setSlice_responses (s : State) (n : Nat) (x : Slice) : (s.setSlice n x).responses = s.responses := rfl
@[simp] theorem State.setSlice_bootLog (s : State) (n : Nat) (x : Slice) : (s.setSlice n x).bootLog = s.bootLog := rfl
@[simp] theorem State.setSlice_booted (s : State) (n : Nat) (x : Slice) : (s.setSlice n x).booted = s.booted := rfl
@[simp] theorem State.setSlice_rollback (s : State) (n : Nat) (x : Slice) : (s.setSlice n x).rollback = s.rollback := rfl
@[simp] theorem State.setSlice_bridgeFailed (s : State) (n : Nat) (x : Slice) : (s.setSlice n x).bridgeFailed = s.bridgeFailed := rfl
@[simp] theorem State.setSlice_retired (s : State) (n : Nat) (x : Slice) : (s.setSlice n x).retired = s.retired := rfl
@[simp] theorem State.setSlice_scratchErrors (s : State) (n : Nat) (x : Slice) : (s.setSlice n x).scratchErrors = s.scratchErrors := rfl
@[simp] theorem State.setSlice_servo (s : State) (n : Nat) (x : Slice) : (s.setSlice n x).servo = s.servo := rfl
@[simp] theorem State.setSlice_clockMHz (s : State) (n : Nat) (x : Slice) : (s.setSlice n x).clockMHz = s.clockMHz := rfl
@[simp] theorem State.setSlice_bitAgents (s : State) (n : Nat) (x : Slice) : (s.setSlice n x).bitAgents = s.bitAgents := rfl
@[simp] theorem State.setSlice_mapBytes (s : State) (n : Nat) (x : Slice) : (s.setSlice n x).mapBytes = s.mapBytes := rfl

@[simp] theorem State.setSageAt_steps (s : State) (g : Nat) (x : Sage) : (s.setSageAt g x).steps = s.steps := rfl
@[simp] theorem State.setSageAt_mover (s : State) (g : Nat) (x : Sage) : (s.setSageAt g x).mover = s.mover := rfl
@[simp] theorem State.setSageAt_core (s : State) (g : Nat) (x : Sage) : (s.setSageAt g x).core = s.core := rfl
@[simp] theorem State.setSageAt_cluster (s : State) (g : Nat) (x : Sage) : (s.setSageAt g x).cluster = s.cluster := rfl
@[simp] theorem State.setSageAt_sage (s : State) (g : Nat) (x : Sage) : (s.setSageAt g x).sage = s.sage := rfl
@[simp] theorem State.setSageAt_dcc (s : State) (g : Nat) (x : Sage) : (s.setSageAt g x).dcc = s.dcc := rfl
@[simp] theorem State.setSageAt_node (s : State) (g : Nat) (x : Sage) : (s.setSageAt g x).node = s.node := rfl
@[simp] theorem State.setSageAt_cfence (s : State) (g : Nat) (x : Sage) : (s.setSageAt g x).cfence = s.cfence := rfl
@[simp] theorem State.setSageAt_mem (s : State) (g : Nat) (x : Sage) : (s.setSageAt g x).mem = s.mem := rfl
@[simp] theorem State.setSageAt_cores (s : State) (g : Nat) (x : Sage) : (s.setSageAt g x).cores = s.cores := rfl
@[simp] theorem State.setSageAt_slices (s : State) (g : Nat) (x : Sage) : (s.setSageAt g x).slices = s.slices := rfl
@[simp] theorem State.setSageAt_throttles (s : State) (g : Nat) (x : Sage) : (s.setSageAt g x).throttles = s.throttles := rfl
@[simp] theorem State.setSageAt_flits (s : State) (g : Nat) (x : Sage) : (s.setSageAt g x).flits = s.flits := rfl
@[simp] theorem State.setSageAt_planeTurns (s : State) (g : Nat) (x : Sage) : (s.setSageAt g x).planeTurns = s.planeTurns := rfl
@[simp] theorem State.setSageAt_queues (s : State) (g : Nat) (x : Sage) : (s.setSageAt g x).queues = s.queues := rfl
@[simp] theorem State.setSageAt_queueDescs (s : State) (g : Nat) (x : Sage) : (s.setSageAt g x).queueDescs = s.queueDescs := rfl
@[simp] theorem State.setSageAt_live (s : State) (g : Nat) (x : Sage) : (s.setSageAt g x).live = s.live := rfl
@[simp] theorem State.setSageAt_launches (s : State) (g : Nat) (x : Sage) : (s.setSageAt g x).launches = s.launches := rfl
@[simp] theorem State.setSageAt_nextLaunch (s : State) (g : Nat) (x : Sage) : (s.setSageAt g x).nextLaunch = s.nextLaunch := rfl
@[simp] theorem State.setSageAt_ready (s : State) (g : Nat) (x : Sage) : (s.setSageAt g x).ready = s.ready := rfl
@[simp] theorem State.setSageAt_nextKey (s : State) (g : Nat) (x : Sage) : (s.setSageAt g x).nextKey = s.nextKey := rfl
@[simp] theorem State.setSageAt_reservations (s : State) (g : Nat) (x : Sage) : (s.setSageAt g x).reservations = s.reservations := rfl
@[simp] theorem State.setSageAt_bindings (s : State) (g : Nat) (x : Sage) : (s.setSageAt g x).bindings = s.bindings := rfl
@[simp] theorem State.setSageAt_doorbells (s : State) (g : Nat) (x : Sage) : (s.setSageAt g x).doorbells = s.doorbells := rfl
@[simp] theorem State.setSageAt_contexts (s : State) (g : Nat) (x : Sage) : (s.setSageAt g x).contexts = s.contexts := rfl
@[simp] theorem State.setSageAt_partitions (s : State) (g : Nat) (x : Sage) : (s.setSageAt g x).partitions = s.partitions := rfl
@[simp] theorem State.setSageAt_jobs (s : State) (g : Nat) (x : Sage) : (s.setSageAt g x).jobs = s.jobs := rfl
@[simp] theorem State.setSageAt_vresLimit (s : State) (g : Nat) (x : Sage) : (s.setSageAt g x).vresLimit = s.vresLimit := rfl
@[simp] theorem State.setSageAt_shadowSlots (s : State) (g : Nat) (x : Sage) : (s.setSageAt g x).shadowSlots = s.shadowSlots := rfl
@[simp] theorem State.setSageAt_eraNow (s : State) (g : Nat) (x : Sage) : (s.setSageAt g x).eraNow = s.eraNow := rfl
@[simp] theorem State.setSageAt_clocks (s : State) (g : Nat) (x : Sage) : (s.setSageAt g x).clocks = s.clocks := rfl
@[simp] theorem State.setSageAt_vclocks (s : State) (g : Nat) (x : Sage) : (s.setSageAt g x).vclocks = s.vclocks := rfl
@[simp] theorem State.setSageAt_commitVector (s : State) (g : Nat) (x : Sage) : (s.setSageAt g x).commitVector = s.commitVector := rfl
@[simp] theorem State.setSageAt_dclk (s : State) (g : Nat) (x : Sage) : (s.setSageAt g x).dclk = s.dclk := rfl
@[simp] theorem State.setSageAt_ports (s : State) (g : Nat) (x : Sage) : (s.setSageAt g x).ports = s.ports := rfl
@[simp] theorem State.setSageAt_pdcs (s : State) (g : Nat) (x : Sage) : (s.setSageAt g x).pdcs = s.pdcs := rfl
@[simp] theorem State.setSageAt_outbox (s : State) (g : Nat) (x : Sage) : (s.setSageAt g x).outbox = s.outbox := rfl
@[simp] theorem State.setSageAt_replies (s : State) (g : Nat) (x : Sage) : (s.setSageAt g x).replies = s.replies := rfl
@[simp] theorem State.setSageAt_held (s : State) (g : Nat) (x : Sage) : (s.setSageAt g x).held = s.held := rfl
@[simp] theorem State.setSageAt_forwarded (s : State) (g : Nat) (x : Sage) : (s.setSageAt g x).forwarded = s.forwarded := rfl
@[simp] theorem State.setSageAt_hostBias (s : State) (g : Nat) (x : Sage) : (s.setSageAt g x).hostBias = s.hostBias := rfl
@[simp] theorem State.setSageAt_devcmd (s : State) (g : Nat) (x : Sage) : (s.setSageAt g x).devcmd = s.devcmd := rfl
@[simp] theorem State.setSageAt_counters (s : State) (g : Nat) (x : Sage) : (s.setSageAt g x).counters = s.counters := rfl
@[simp] theorem State.setSageAt_dwp (s : State) (g : Nat) (x : Sage) : (s.setSageAt g x).dwp = s.dwp := rfl
@[simp] theorem State.setSageAt_huazu (s : State) (g : Nat) (x : Sage) : (s.setSageAt g x).huazu = s.huazu := rfl
@[simp] theorem State.setSageAt_responses (s : State) (g : Nat) (x : Sage) : (s.setSageAt g x).responses = s.responses := rfl
@[simp] theorem State.setSageAt_bootLog (s : State) (g : Nat) (x : Sage) : (s.setSageAt g x).bootLog = s.bootLog := rfl
@[simp] theorem State.setSageAt_booted (s : State) (g : Nat) (x : Sage) : (s.setSageAt g x).booted = s.booted := rfl
@[simp] theorem State.setSageAt_rollback (s : State) (g : Nat) (x : Sage) : (s.setSageAt g x).rollback = s.rollback := rfl
@[simp] theorem State.setSageAt_bridgeFailed (s : State) (g : Nat) (x : Sage) : (s.setSageAt g x).bridgeFailed = s.bridgeFailed := rfl
@[simp] theorem State.setSageAt_retired (s : State) (g : Nat) (x : Sage) : (s.setSageAt g x).retired = s.retired := rfl
@[simp] theorem State.setSageAt_scratchErrors (s : State) (g : Nat) (x : Sage) : (s.setSageAt g x).scratchErrors = s.scratchErrors := rfl
@[simp] theorem State.setSageAt_servo (s : State) (g : Nat) (x : Sage) : (s.setSageAt g x).servo = s.servo := rfl
@[simp] theorem State.setSageAt_clockMHz (s : State) (g : Nat) (x : Sage) : (s.setSageAt g x).clockMHz = s.clockMHz := rfl
@[simp] theorem State.setSageAt_bitAgents (s : State) (g : Nat) (x : Sage) : (s.setSageAt g x).bitAgents = s.bitAgents := rfl
@[simp] theorem State.setSageAt_mapBytes (s : State) (g : Nat) (x : Sage) : (s.setSageAt g x).mapBytes = s.mapBytes := rfl

@[simp] theorem State.setQueue_steps (s : State) (n : Nat) (q : QueueSlot) : (s.setQueue n q).steps = s.steps := rfl
@[simp] theorem State.setQueue_mover (s : State) (n : Nat) (q : QueueSlot) : (s.setQueue n q).mover = s.mover := rfl
@[simp] theorem State.setQueue_core (s : State) (n : Nat) (q : QueueSlot) : (s.setQueue n q).core = s.core := rfl
@[simp] theorem State.setQueue_cluster (s : State) (n : Nat) (q : QueueSlot) : (s.setQueue n q).cluster = s.cluster := rfl
@[simp] theorem State.setQueue_sage (s : State) (n : Nat) (q : QueueSlot) : (s.setQueue n q).sage = s.sage := rfl
@[simp] theorem State.setQueue_dcc (s : State) (n : Nat) (q : QueueSlot) : (s.setQueue n q).dcc = s.dcc := rfl
@[simp] theorem State.setQueue_node (s : State) (n : Nat) (q : QueueSlot) : (s.setQueue n q).node = s.node := rfl
@[simp] theorem State.setQueue_cfence (s : State) (n : Nat) (q : QueueSlot) : (s.setQueue n q).cfence = s.cfence := rfl
@[simp] theorem State.setQueue_mem (s : State) (n : Nat) (q : QueueSlot) : (s.setQueue n q).mem = s.mem := rfl
@[simp] theorem State.setQueue_cores (s : State) (n : Nat) (q : QueueSlot) : (s.setQueue n q).cores = s.cores := rfl
@[simp] theorem State.setQueue_sages (s : State) (n : Nat) (q : QueueSlot) : (s.setQueue n q).sages = s.sages := rfl
@[simp] theorem State.setQueue_slices (s : State) (n : Nat) (q : QueueSlot) : (s.setQueue n q).slices = s.slices := rfl
@[simp] theorem State.setQueue_throttles (s : State) (n : Nat) (q : QueueSlot) : (s.setQueue n q).throttles = s.throttles := rfl
@[simp] theorem State.setQueue_flits (s : State) (n : Nat) (q : QueueSlot) : (s.setQueue n q).flits = s.flits := rfl
@[simp] theorem State.setQueue_planeTurns (s : State) (n : Nat) (q : QueueSlot) : (s.setQueue n q).planeTurns = s.planeTurns := rfl
@[simp] theorem State.setQueue_queueDescs (s : State) (n : Nat) (q : QueueSlot) : (s.setQueue n q).queueDescs = s.queueDescs := rfl
@[simp] theorem State.setQueue_live (s : State) (n : Nat) (q : QueueSlot) : (s.setQueue n q).live = s.live := rfl
@[simp] theorem State.setQueue_launches (s : State) (n : Nat) (q : QueueSlot) : (s.setQueue n q).launches = s.launches := rfl
@[simp] theorem State.setQueue_nextLaunch (s : State) (n : Nat) (q : QueueSlot) : (s.setQueue n q).nextLaunch = s.nextLaunch := rfl
@[simp] theorem State.setQueue_ready (s : State) (n : Nat) (q : QueueSlot) : (s.setQueue n q).ready = s.ready := rfl
@[simp] theorem State.setQueue_nextKey (s : State) (n : Nat) (q : QueueSlot) : (s.setQueue n q).nextKey = s.nextKey := rfl
@[simp] theorem State.setQueue_reservations (s : State) (n : Nat) (q : QueueSlot) : (s.setQueue n q).reservations = s.reservations := rfl
@[simp] theorem State.setQueue_bindings (s : State) (n : Nat) (q : QueueSlot) : (s.setQueue n q).bindings = s.bindings := rfl
@[simp] theorem State.setQueue_doorbells (s : State) (n : Nat) (q : QueueSlot) : (s.setQueue n q).doorbells = s.doorbells := rfl
@[simp] theorem State.setQueue_contexts (s : State) (n : Nat) (q : QueueSlot) : (s.setQueue n q).contexts = s.contexts := rfl
@[simp] theorem State.setQueue_partitions (s : State) (n : Nat) (q : QueueSlot) : (s.setQueue n q).partitions = s.partitions := rfl
@[simp] theorem State.setQueue_jobs (s : State) (n : Nat) (q : QueueSlot) : (s.setQueue n q).jobs = s.jobs := rfl
@[simp] theorem State.setQueue_vresLimit (s : State) (n : Nat) (q : QueueSlot) : (s.setQueue n q).vresLimit = s.vresLimit := rfl
@[simp] theorem State.setQueue_shadowSlots (s : State) (n : Nat) (q : QueueSlot) : (s.setQueue n q).shadowSlots = s.shadowSlots := rfl
@[simp] theorem State.setQueue_eraNow (s : State) (n : Nat) (q : QueueSlot) : (s.setQueue n q).eraNow = s.eraNow := rfl
@[simp] theorem State.setQueue_clocks (s : State) (n : Nat) (q : QueueSlot) : (s.setQueue n q).clocks = s.clocks := rfl
@[simp] theorem State.setQueue_vclocks (s : State) (n : Nat) (q : QueueSlot) : (s.setQueue n q).vclocks = s.vclocks := rfl
@[simp] theorem State.setQueue_commitVector (s : State) (n : Nat) (q : QueueSlot) : (s.setQueue n q).commitVector = s.commitVector := rfl
@[simp] theorem State.setQueue_dclk (s : State) (n : Nat) (q : QueueSlot) : (s.setQueue n q).dclk = s.dclk := rfl
@[simp] theorem State.setQueue_ports (s : State) (n : Nat) (q : QueueSlot) : (s.setQueue n q).ports = s.ports := rfl
@[simp] theorem State.setQueue_pdcs (s : State) (n : Nat) (q : QueueSlot) : (s.setQueue n q).pdcs = s.pdcs := rfl
@[simp] theorem State.setQueue_outbox (s : State) (n : Nat) (q : QueueSlot) : (s.setQueue n q).outbox = s.outbox := rfl
@[simp] theorem State.setQueue_replies (s : State) (n : Nat) (q : QueueSlot) : (s.setQueue n q).replies = s.replies := rfl
@[simp] theorem State.setQueue_held (s : State) (n : Nat) (q : QueueSlot) : (s.setQueue n q).held = s.held := rfl
@[simp] theorem State.setQueue_forwarded (s : State) (n : Nat) (q : QueueSlot) : (s.setQueue n q).forwarded = s.forwarded := rfl
@[simp] theorem State.setQueue_hostBias (s : State) (n : Nat) (q : QueueSlot) : (s.setQueue n q).hostBias = s.hostBias := rfl
@[simp] theorem State.setQueue_devcmd (s : State) (n : Nat) (q : QueueSlot) : (s.setQueue n q).devcmd = s.devcmd := rfl
@[simp] theorem State.setQueue_counters (s : State) (n : Nat) (q : QueueSlot) : (s.setQueue n q).counters = s.counters := rfl
@[simp] theorem State.setQueue_dwp (s : State) (n : Nat) (q : QueueSlot) : (s.setQueue n q).dwp = s.dwp := rfl
@[simp] theorem State.setQueue_huazu (s : State) (n : Nat) (q : QueueSlot) : (s.setQueue n q).huazu = s.huazu := rfl
@[simp] theorem State.setQueue_responses (s : State) (n : Nat) (q : QueueSlot) : (s.setQueue n q).responses = s.responses := rfl
@[simp] theorem State.setQueue_bootLog (s : State) (n : Nat) (q : QueueSlot) : (s.setQueue n q).bootLog = s.bootLog := rfl
@[simp] theorem State.setQueue_booted (s : State) (n : Nat) (q : QueueSlot) : (s.setQueue n q).booted = s.booted := rfl
@[simp] theorem State.setQueue_rollback (s : State) (n : Nat) (q : QueueSlot) : (s.setQueue n q).rollback = s.rollback := rfl
@[simp] theorem State.setQueue_bridgeFailed (s : State) (n : Nat) (q : QueueSlot) : (s.setQueue n q).bridgeFailed = s.bridgeFailed := rfl
@[simp] theorem State.setQueue_retired (s : State) (n : Nat) (q : QueueSlot) : (s.setQueue n q).retired = s.retired := rfl
@[simp] theorem State.setQueue_scratchErrors (s : State) (n : Nat) (q : QueueSlot) : (s.setQueue n q).scratchErrors = s.scratchErrors := rfl
@[simp] theorem State.setQueue_servo (s : State) (n : Nat) (q : QueueSlot) : (s.setQueue n q).servo = s.servo := rfl
@[simp] theorem State.setQueue_clockMHz (s : State) (n : Nat) (q : QueueSlot) : (s.setQueue n q).clockMHz = s.clockMHz := rfl
@[simp] theorem State.setQueue_bitAgents (s : State) (n : Nat) (q : QueueSlot) : (s.setQueue n q).bitAgents = s.bitAgents := rfl
@[simp] theorem State.setQueue_mapBytes (s : State) (n : Nat) (q : QueueSlot) : (s.setQueue n q).mapBytes = s.mapBytes := rfl

@[simp] theorem Core.setCl_busy (c : Core) (k : Cluster) (x : ClusterState) : (c.setCl k x).busy = c.busy := rfl
@[simp] theorem Core.setCl_started (c : Core) (k : Cluster) (x : ClusterState) : (c.setCl k x).started = c.started := rfl
@[simp] theorem Core.setCl_key (c : Core) (k : Cluster) (x : ClusterState) : (c.setCl k x).key = c.key := rfl
@[simp] theorem Core.setCl_launchKey (c : Core) (k : Cluster) (x : ClusterState) : (c.setCl k x).launchKey = c.launchKey := rfl
@[simp] theorem Core.setCl_gang (c : Core) (k : Cluster) (x : ClusterState) : (c.setCl k x).gang = c.gang := rfl
@[simp] theorem Core.setCl_cr (c : Core) (k : Cluster) (x : ClusterState) : (c.setCl k x).cr = c.cr := rfl
@[simp] theorem Core.setCl_ctx (c : Core) (k : Cluster) (x : ClusterState) : (c.setCl k x).ctx = c.ctx := rfl
@[simp] theorem Core.setCl_openJoin (c : Core) (k : Cluster) (x : ClusterState) : (c.setCl k x).openJoin = c.openJoin := rfl
@[simp] theorem Core.setCl_ids (c : Core) (k : Cluster) (x : ClusterState) : (c.setCl k x).ids = c.ids := rfl
@[simp] theorem Core.setCl_tinfo (c : Core) (k : Cluster) (x : ClusterState) : (c.setCl k x).tinfo = c.tinfo := rfl
@[simp] theorem Core.setCl_tframe (c : Core) (k : Cluster) (x : ClusterState) : (c.setCl k x).tframe = c.tframe := rfl
@[simp] theorem Core.setCl_ageus (c : Core) (k : Cluster) (x : ClusterState) : (c.setCl k x).ageus = c.ageus := rfl
@[simp] theorem Core.setCl_syncto (c : Core) (k : Cluster) (x : ClusterState) : (c.setCl k x).syncto = c.syncto := rfl
@[simp] theorem Core.setCl_ftb (c : Core) (k : Cluster) (x : ClusterState) : (c.setCl k x).ftb = c.ftb := rfl
@[simp] theorem Core.setCl_fts (c : Core) (k : Cluster) (x : ClusterState) : (c.setCl k x).fts = c.fts := rfl
@[simp] theorem Core.setCl_trapc (c : Core) (k : Cluster) (x : ClusterState) : (c.setCl k x).trapc = c.trapc := rfl
@[simp] theorem Core.setCl_trapv (c : Core) (k : Cluster) (x : ClusterState) : (c.setCl k x).trapv = c.trapv := rfl
@[simp] theorem Core.setCl_rmode (c : Core) (k : Cluster) (x : ClusterState) : (c.setCl k x).rmode = c.rmode := rfl
@[simp] theorem Core.setCl_csrHist (c : Core) (k : Cluster) (x : ClusterState) : (c.setCl k x).csrHist = c.csrHist := rfl
@[simp] theorem Core.setCl_vresLines (c : Core) (k : Cluster) (x : ClusterState) : (c.setCl k x).vresLines = c.vresLines := rfl
@[simp] theorem Core.setCl_spawn (c : Core) (k : Cluster) (x : ClusterState) : (c.setCl k x).spawn = c.spawn := rfl
@[simp] theorem Core.setCl_cmdn (c : Core) (k : Cluster) (x : ClusterState) : (c.setCl k x).cmdn = c.cmdn := rfl
@[simp] theorem Core.setCl_cmdClk (c : Core) (k : Cluster) (x : ClusterState) : (c.setCl k x).cmdClk = c.cmdClk := rfl
@[simp] theorem Core.setCl_commits (c : Core) (k : Cluster) (x : ClusterState) : (c.setCl k x).commits = c.commits := rfl
@[simp] theorem Core.setCl_commitDcc (c : Core) (k : Cluster) (x : ClusterState) : (c.setCl k x).commitDcc = c.commitDcc := rfl
@[simp] theorem Core.setCl_scal (c : Core) (k : Cluster) (x : ClusterState) : (c.setCl k x).scal = c.scal := rfl
@[simp] theorem Core.setCl_shp (c : Core) (k : Cluster) (x : ClusterState) : (c.setCl k x).shp = c.shp := rfl
@[simp] theorem Core.setCl_mstat (c : Core) (k : Cluster) (x : ClusterState) : (c.setCl k x).mstat = c.mstat := rfl
@[simp] theorem Core.setCl_tiles (c : Core) (k : Cluster) (x : ClusterState) : (c.setCl k x).tiles = c.tiles := rfl
@[simp] theorem Core.setCl_loadq (c : Core) (k : Cluster) (x : ClusterState) : (c.setCl k x).loadq = c.loadq := rfl
@[simp] theorem Core.setCl_loadqTickets (c : Core) (k : Cluster) (x : ClusterState) : (c.setCl k x).loadqTickets = c.loadqTickets := rfl
@[simp] theorem Core.setCl_storeq (c : Core) (k : Cluster) (x : ClusterState) : (c.setCl k x).storeq = c.storeq := rfl
@[simp] theorem Core.setCl_acc (c : Core) (k : Cluster) (x : ClusterState) : (c.setCl k x).acc = c.acc := rfl
@[simp] theorem Core.setCl_accs (c : Core) (k : Cluster) (x : ClusterState) : (c.setCl k x).accs = c.accs := rfl
@[simp] theorem Core.setCl_arrayX (c : Core) (k : Cluster) (x : ClusterState) : (c.setCl k x).arrayX = c.arrayX := rfl
@[simp] theorem Core.setCl_arrayY (c : Core) (k : Cluster) (x : ClusterState) : (c.setCl k x).arrayY = c.arrayY := rfl
@[simp] theorem Core.setCl_vop (c : Core) (k : Cluster) (x : ClusterState) : (c.setCl k x).vop = c.vop := rfl
@[simp] theorem Core.setCl_seq (c : Core) (k : Cluster) (x : ClusterState) : (c.setCl k x).seq = c.seq := rfl
@[simp] theorem Core.setCl_barriers (c : Core) (k : Cluster) (x : ClusterState) : (c.setCl k x).barriers = c.barriers := rfl
@[simp] theorem Core.setCl_scratch (c : Core) (k : Cluster) (x : ClusterState) : (c.setCl k x).scratch = c.scratch := rfl
@[simp] theorem Core.setCl_version (c : Core) (k : Cluster) (x : ClusterState) : (c.setCl k x).version = c.version := rfl
@[simp] theorem Core.setCl_versionRu (c : Core) (k : Cluster) (x : ClusterState) : (c.setCl k x).versionRu = c.versionRu := rfl
@[simp] theorem Core.setCl_versionOf (c : Core) (k : Cluster) (x : ClusterState) : (c.setCl k x).versionOf = c.versionOf := rfl
@[simp] theorem Core.setCl_committing (c : Core) (k : Cluster) (x : ClusterState) : (c.setCl k x).committing = c.committing := rfl
@[simp] theorem Core.setCl_remoteReads (c : Core) (k : Cluster) (x : ClusterState) : (c.setCl k x).remoteReads = c.remoteReads := rfl
@[simp] theorem Core.setCl_accesses (c : Core) (k : Cluster) (x : ClusterState) : (c.setCl k x).accesses = c.accesses := rfl
@[simp] theorem Core.setCl_nextId (c : Core) (k : Cluster) (x : ClusterState) : (c.setCl k x).nextId = c.nextId := rfl
@[simp] theorem Core.setCl_commands (c : Core) (k : Cluster) (x : ClusterState) : (c.setCl k x).commands = c.commands := rfl
@[simp] theorem Core.setCl_slots (c : Core) (k : Cluster) (x : ClusterState) : (c.setCl k x).slots = c.slots := rfl
@[simp] theorem Core.setCl_recCache (c : Core) (k : Cluster) (x : ClusterState) : (c.setCl k x).recCache = c.recCache := rfl
@[simp] theorem Core.setCl_ruCache (c : Core) (k : Cluster) (x : ClusterState) : (c.setCl k x).ruCache = c.ruCache := rfl
@[simp] theorem Core.setCl_icache (c : Core) (k : Cluster) (x : ClusterState) : (c.setCl k x).icache = c.icache := rfl
@[simp] theorem Core.setCl_stop (c : Core) (k : Cluster) (x : ClusterState) : (c.setCl k x).stop = c.stop := rfl
@[simp] theorem Core.setCl_pendingTrap (c : Core) (k : Cluster) (x : ClusterState) : (c.setCl k x).pendingTrap = c.pendingTrap := rfl
@[simp] theorem Core.setCl_preempt (c : Core) (k : Cluster) (x : ClusterState) : (c.setCl k x).preempt = c.preempt := rfl
@[simp] theorem Core.setCl_save (c : Core) (k : Cluster) (x : ClusterState) : (c.setCl k x).save = c.save := rfl
@[simp] theorem Core.setCl_svc (c : Core) (k : Cluster) (x : ClusterState) : (c.setCl k x).svc = c.svc := rfl
@[simp] theorem Core.setCl_dxw (c : Core) (k : Cluster) (x : ClusterState) : (c.setCl k x).dxw = c.dxw := rfl
@[simp] theorem Core.setCl_dxwWord (c : Core) (k : Cluster) (x : ClusterState) : (c.setCl k x).dxwWord = c.dxwWord := rfl
@[simp] theorem Core.setCl_dxwCluster (c : Core) (k : Cluster) (x : ClusterState) : (c.setCl k x).dxwCluster = c.dxwCluster := rfl
@[simp] theorem Core.setCl_dxwIssued (c : Core) (k : Cluster) (x : ClusterState) : (c.setCl k x).dxwIssued = c.dxwIssued := rfl
@[simp] theorem Core.setCl_dctl (c : Core) (k : Cluster) (x : ClusterState) : (c.setCl k x).dctl = c.dctl := rfl
@[simp] theorem Core.setCl_dbuf (c : Core) (k : Cluster) (x : ClusterState) : (c.setCl k x).dbuf = c.dbuf := rfl
@[simp] theorem Core.setCl_lostOwed (c : Core) (k : Cluster) (x : ClusterState) : (c.setCl k x).lostOwed = c.lostOwed := rfl
@[simp] theorem Core.setCl_lostFirst (c : Core) (k : Cluster) (x : ClusterState) : (c.setCl k x).lostFirst = c.lostFirst := rfl
@[simp] theorem Core.setCl_lostCount (c : Core) (k : Cluster) (x : ClusterState) : (c.setCl k x).lostCount = c.lostCount := rfl
@[simp] theorem Core.setCl_halting (c : Core) (k : Cluster) (x : ClusterState) : (c.setCl k x).halting = c.halting := rfl
@[simp] theorem Core.setCl_haltLate (c : Core) (k : Cluster) (x : ClusterState) : (c.setCl k x).haltLate = c.haltLate := rfl
@[simp] theorem Core.setCl_haltAsked (c : Core) (k : Cluster) (x : ClusterState) : (c.setCl k x).haltAsked = c.haltAsked := rfl
@[simp] theorem Core.setCl_viewWrites (c : Core) (k : Cluster) (x : ClusterState) : (c.setCl k x).viewWrites = c.viewWrites := rfl
@[simp] theorem Core.setCl_sampledAt (c : Core) (k : Cluster) (x : ClusterState) : (c.setCl k x).sampledAt = c.sampledAt := rfl

/-- The numbers of the clusters differ. -/
theorem clusterIndex_injective {j k : Cluster} (h : clusterIndex j = clusterIndex k) : j = k := by
  cases j <;> cases k <;> first | rfl | cases h

@[simp] theorem State.coreAt_setCoreAt (s : State) (n : Nat) (c : Core) : (s.setCoreAt n c).coreAt n = c := Tab.get_put _ _ _ _

theorem State.coreAt_setCoreAt_ne (s : State) {m n : Nat} (h : m ≠ n) (c : Core) : (s.setCoreAt n c).coreAt m = s.coreAt m :=
  Tab.get_put_ne _ _ h _

@[simp] theorem State.setCoreAt_setCoreAt (s : State) (n : Nat) (c d : Core) : (s.setCoreAt n c).setCoreAt n d = s.setCoreAt n d := by
  simp [State.setCoreAt]

@[simp] theorem State.cur_setCur (s : State) (c : Core) : (s.setCur c).cur = c := Tab.get_put _ _ _ _

@[simp] theorem State.cur_setCoreAt (s : State) (c : Core) : (s.setCoreAt s.core c).cur = c := Tab.get_put _ _ _ _

@[simp] theorem State.coreAt_setCur (s : State) (c : Core) : (s.setCur c).coreAt s.core = c := Tab.get_put _ _ _ _

theorem State.coreAt_setCur_ne (s : State) {m : Nat} (h : m ≠ s.core) (c : Core) : (s.setCur c).coreAt m = s.coreAt m :=
  Tab.get_put_ne _ _ h _

@[simp] theorem State.setCur_setCur (s : State) (c d : Core) : (s.setCur c).setCur d = s.setCur d := by
  simp [State.setCur, State.setCoreAt]

@[simp] theorem Core.cl_setCl (c : Core) (k : Cluster) (x : ClusterState) : (c.setCl k x).cl k = x := Tab.get_put _ _ _ _

theorem Core.cl_setCl_ne (c : Core) {j k : Cluster} (h : j ≠ k) (x : ClusterState) : (c.setCl k x).cl j = c.cl j :=
  Tab.get_put_ne _ _ (fun e => h (clusterIndex_injective e)) _

@[simp] theorem Core.setCl_setCl (c : Core) (k : Cluster) (x y : ClusterState) : (c.setCl k x).setCl k y = c.setCl k y := by
  simp [Core.setCl]

@[simp] theorem State.cur_setCl (s : State) (x : ClusterState) : (s.setCl x).cur = s.cur.setCl s.cluster x := Tab.get_put _ _ _ _

@[simp] theorem State.cl_setCl (s : State) (x : ClusterState) : (s.setCl x).cl = x := by
  show (s.setCl x).cur.cl s.cluster = x
  simp

@[simp] theorem State.cur_putScal (s : State) (d : BitVec 5) (v : DWord) : (s.putScal d v).cur = s.cur.change s.dcc s.cluster d v true :=
  Tab.get_put _ _ _ _

@[simp] theorem State.slice_setSlice (s : State) (n : Nat) (x : Slice) : (s.setSlice n x).slice n = x := Tab.get_put _ _ _ _

theorem State.slice_setSlice_ne (s : State) {m n : Nat} (h : m ≠ n) (x : Slice) : (s.setSlice n x).slice m = s.slice m :=
  Tab.get_put_ne _ _ h _

@[simp] theorem State.sageAt_setSageAt (s : State) (g : Nat) (x : Sage) : (s.setSageAt g x).sageAt g = x := Tab.get_put _ _ _ _

theorem State.sageAt_setSageAt_ne (s : State) {g h : Nat} (e : g ≠ h) (x : Sage) : (s.setSageAt h x).sageAt g = s.sageAt g :=
  Tab.get_put_ne _ _ e _

@[simp] theorem State.curSage_setCurSage (s : State) (x : Sage) : (s.setCurSage x).curSage = x := Tab.get_put _ _ _ _

@[simp] theorem State.queue_setQueue (s : State) (n : Nat) (q : QueueSlot) : (s.setQueue n q).queue n = q := Tab.get_put _ _ _ _

theorem State.queue_setQueue_ne (s : State) {m n : Nat} (h : m ≠ n) (q : QueueSlot) : (s.setQueue n q).queue m = s.queue m :=
  Tab.get_put_ne _ _ h _

end Sys2Proof.Machine
end

