-- ==== Sys2Proof/Laws/Issue.lean ====
section
/-!
SUPPORT. What the shared parts of every core word do: the checks at issue, the retirement of a word, its wait, and its stop.
-/

namespace Sys2Proof.Machine

/-- A word that passes every check of R361, and is none of those a loop end or DXW forbids, passes the gate. -/
theorem State.gate_ok (s : State) (i : Instr) (h : checkWord s.cluster i = none) (e : endForbidden i = false)
    (e' : dxwForbidden i = false) : s.gate i = .ok () := by
  simp [State.gate, h, e, e']

/-- A word that a loop end or DXW forbids passes the gate away from both. -/
theorem State.gate_away (s : State) (i : Instr) (h : checkWord s.cluster i = none) (e : s.atLoopEnd = false)
    (e' : s.cur.dxw.getLsbD 34 = false) : s.gate i = .ok () := by
  have e'' : (s.cur.dxw[34] : Bool) = false := by simpa [BitVec.getLsbD_eq_getElem] using e'
  simp [State.gate, h, e, e'']

/-- A word of an OP below 0x40 is valid in every cluster (R359). -/
theorem checkWord_any (k : Cluster) (i : Instr) (h : decide (opOf i < 0x40) = true) (f : fieldCheck i = none) : checkWord k i = none := by
  simp [checkWord, opAllowed, of_decide_eq_true h, f]

/-- A word whose OP is valid in no such cluster fails its check with OPCL (R361). -/
theorem checkWord_bad (k : Cluster) (i : Instr) (h : opAllowed (opOf i) k = false) : checkWord k i = some 0x02 := by
  simp [checkWord, h]

/-- A word through the gate does what its plan says. -/
theorem runWord_gate {s : State} {i : Instr} {p : State → Except Hold State} (h : s.gate i = .ok ()) :
    runWord i s p = .next (s.settle (p s)) := by
  simp [runWord, h]

/-- A word through the gate whose plan completes. -/
theorem runWord_done {s t : State} {i : Instr} {p : State → Except Hold State} (h : s.gate i = .ok ()) (q : p s = .ok t) :
    runWord i s p = .next t := by
  simp [runWord, h, q, State.settle]

/-- A word that fails a check traps, whatever its plan. -/
theorem runWord_check {s : State} {i : Instr} {sub : Nat} (p : State → Except Hold State) (h : checkWord s.cluster i = some sub) :
    runWord i s p = .next (s.stopPrecise .trap false ⟨0x01, sub, 0, [], 0⟩) := by
  simp [runWord, State.gate, h, State.settle, ilg]

/-- A core word always ends in a next state. -/
theorem runWord_goes (i : Instr) (s : State) (p : State → Except Hold State) : ∃ t, runWord i s p = .next t := ⟨_, rfl⟩

/-- The outcome of a word: through the gate, its plan's; else the trap of the gate. -/
theorem runWord_next {i : Instr} {s t : State} {p : State → Except Hold State} (h : runWord i s p = .next t) :
    (s.gate i = .ok () ∧ t = s.settle (p s)) ∨ (∃ e, s.gate i = .error e ∧ t = s.settle (.error e)) := by
  simp only [runWord, Host.Outcome.next.injEq] at h
  cases g : s.gate i with
  | ok _ => exact .inl ⟨rfl, by rw [← h, g]⟩
  | error e => exact .inr ⟨e, rfl, by rw [← h, g]⟩

/-- A word that has not waited leaves no WAIT record (R339). -/
theorem State.logWait_fresh (s : State) (n : Nat) (k : Cluster) (isOpen : Bool) (h : ((s.coreAt n).cl k).since = none) :
    s.logWait n k isOpen = s := by
  simp [State.logWait, h]

/-- A core that is not halting lands no halt (R331). -/
theorem State.landHalt_idle (s : State) (n : Nat) (h : (s.coreAt n).halting = false) : s.landHalt n = s := by
  simp [State.landHalt, h]

/-- What a word of DXW leaves of the core (R330): DXW alone changes, and when it issued. -/
@[simp] theorem Core.dxwRetired_halting (c : Core) (k : Cluster) : (c.dxwRetired k).halting = c.halting := by
  unfold Core.dxwRetired
  split
  · rfl
  · split <;> rfl

@[simp] theorem Core.cl_dxwRetired (c : Core) (j k : Cluster) : (c.dxwRetired k).cl j = c.cl j := by
  unfold Core.dxwRetired
  split
  · rfl
  · split <;> rfl

@[simp] theorem Core.reg_dxwRetired (c : Core) (k : Cluster) (r : BitVec 5) : (c.dxwRetired k).reg r = c.reg r := by
  unfold Core.dxwRetired
  split
  · rfl
  · split <;> rfl

/-- A core that executes no word of DXW is as it was (R330). -/
theorem Core.dxwRetired_idle (c : Core) (k : Cluster) (h : c.dxw.getLsbD 34 = false) : c.dxwRetired k = c := by
  have h' : (c.dxw[34] : Bool) = false := by simpa [BitVec.getLsbD_eq_getElem] using h
  simp [Core.dxwRetired, Core.executes, h']

/-- The retirement of a word that has not waited, in a core that is not halting: its cluster advances, and DXW may complete. -/
theorem State.retire_fresh (s : State) (h : s.cl.since = none) (hh : s.cur.halting = false) :
    s.retire = s.setCur ((s.cur.setCl s.cluster (s.cl.advance.1.issued.landed s.cl.advance.2)).dxwRetired s.cluster) := by
  have hw : s.logWait s.core s.cluster false = s := s.logWait_fresh _ _ _ h
  simp only [State.retire, hw]
  rw [State.landHalt_idle]
  · simp [State.setCl, State.setCur, State.cur]
  · simpa [State.setCl, State.setCur, State.cur, State.setCoreAt, State.coreAt] using hh

/-- The departure of such a word for byte offset `p`. -/
theorem State.goTo_fresh (s : State) (p : Int) (h : s.cl.since = none) (hh : s.cur.halting = false) :
    s.goTo p = s.setCur ((s.cur.setCl s.cluster (({ s.cl with pc := p } : ClusterState).issued.landed false)).dxwRetired s.cluster) := by
  have hw : s.logWait s.core s.cluster false = s := s.logWait_fresh _ _ _ h
  simp only [State.goTo, hw]
  rw [State.landHalt_idle]
  · simp [State.setCl, State.setCur, State.cur]
  · simpa [State.setCl, State.setCur, State.cur, State.setCoreAt, State.coreAt] using hh

/-- Away from a loop's end a word advances its cluster to the next word and changes no loop and no predicate (R55, R100). -/
theorem ClusterState.advance_plain (x : ClusterState) (h : x.atEnd false = false) (h' : x.atEnd true = false) :
    x.advance = ({ x with pc := x.pc + 4 }, false) := by
  simp [ClusterState.advance, h, h']

/-- The write of a scalar changes no cluster of the core. -/
@[simp] theorem Core.cl_change (c : Core) (now : Nat) (j k : Cluster) (r : BitVec 5) (v : DWord) (g : Bool) :
    (c.change now k r v g).cl j = c.cl j := by
  unfold Core.change
  split <;> rfl

/-- The write of a scalar changes no other scalar. -/
theorem Core.reg_change_ne (c : Core) (now : Nat) (k : Cluster) {q r : BitVec 5} (h : q ≠ r ∨ q = 0) (v : DWord) (g : Bool) :
    (c.change now k r v g).reg q = c.reg q := by
  unfold Core.change
  split
  · rfl
  · rename_i hr
    have hq : q.toNat ≠ r.toNat := by
      intro e
      have e := BitVec.eq_of_toNat_eq e
      rcases h with h | h
      · exact h e
      · exact hr (e ▸ h)
    exact Tab.get_put_ne _ _ hq _

end Sys2Proof.Machine
end

