-- ==== Sys2Proof/Laws/Stops.lean ====
section
/-!
SUPPORT. What memory writes, records and stops change.
-/

namespace Sys2Proof.Machine

@[simp] theorem State.setHomeByte_cores (s : State) (a : Nat) (b : Byte) : (s.setHomeByte a b).cores = s.cores := by
  unfold State.setHomeByte
  split
  · split <;> rfl
  · rfl

@[simp] theorem State.setHomeBytes_cores (s : State) (a : Nat) (bs : List Byte) : (s.setHomeBytes a bs).cores = s.cores := by
  induction bs generalizing s a with
  | nil => rfl
  | cons b r ih => rw [State.setHomeBytes, ih, State.setHomeByte_cores]

@[simp] theorem State.homeWrite_cores (s : State) (a n v : Nat) : (s.homeWrite a n v).cores = s.cores := s.setHomeBytes_cores _ _

@[simp] theorem State.setHomeByte_core (s : State) (a : Nat) (b : Byte) : (s.setHomeByte a b).core = s.core := by
  unfold State.setHomeByte
  split
  · split <;> rfl
  · rfl

@[simp] theorem State.setHomeBytes_core (s : State) (a : Nat) (bs : List Byte) : (s.setHomeBytes a bs).core = s.core := by
  induction bs generalizing s a with
  | nil => rfl
  | cons b r ih => rw [State.setHomeBytes, ih, State.setHomeByte_core]

/-- A byte written at its home keeps the memory's canonical form. -/
theorem State.wf_setHomeByte (s : State) (a : Nat) (b : Byte) (h : s.mem.wf = true) : (s.setHomeByte a b).mem.wf = true := by
  unfold State.setHomeByte
  split
  · split
    · exact Memory.wf_setByte _ _ _ h
    · exact h
  · exact Memory.wf_setByte _ _ _ h

/-- Bytes written at their homes keep the memory's canonical form. -/
theorem State.wf_setHomeBytes (s : State) (a : Nat) (bs : List Byte) (h : s.mem.wf = true) : (s.setHomeBytes a bs).mem.wf = true := by
  induction bs generalizing s a with
  | nil => exact h
  | cons b r ih => exact ih _ _ (s.wf_setHomeByte a b h)

/-- A value written at its homes keeps the memory's canonical form. -/
theorem State.wf_homeWrite (s : State) (a n v : Nat) (h : s.mem.wf = true) : (s.homeWrite a n v).mem.wf = true :=
  s.wf_setHomeBytes _ _ h

/-- Where no lock stands, a byte written at its home is the memory's (R168, R174). -/
theorem State.setHomeByte_unlocked (s : State) (a : Nat) (b : Byte) (h : s.lockOn a = none) :
    s.setHomeByte a b = { s with mem := s.mem.setByte a b } := by
  unfold State.setHomeByte
  rw [h]

/-- Where no lock stands, bytes written at their homes are the memory's. -/
theorem State.setHomeBytes_unlocked (s : State) (a : Nat) (bs : List Byte) (h : ∀ c, s.lockOn c = none) :
    s.setHomeBytes a bs = { s with mem := s.mem.setBytes a bs } := by
  induction bs generalizing s a with
  | nil => rfl
  | cons b r ih =>
    rw [State.setHomeBytes, s.setHomeByte_unlocked a b (h a)]
    exact ih _ _ h

/-- Where no lock stands, a byte's home is its own address. -/
theorem State.homeByte_unlocked (s : State) (a : Nat) (h : s.lockOn a = none) : s.homeByte a = s.mem.byte a := by
  simp [State.homeByte, State.redirect, h]

@[simp] theorem State.placeBytes_cores (s : State) (core base size wrp : Nat) (bs : List Byte) :
    (s.placeBytes core base size wrp bs).1.cores = s.cores := by
  unfold State.placeBytes
  dsimp only
  split <;> simp

@[simp] theorem State.placeBytes_core (s : State) (core base size wrp : Nat) (bs : List Byte) :
    (s.placeBytes core base size wrp bs).1.core = s.core := by
  unfold State.placeBytes
  dsimp only
  split <;> simp

/-- A record changes a core's record buffer state alone, of all its state (R338). -/
theorem State.coreAt_emit (s : State) (n type : Nat) (body : List DWord) :
    ∃ b o f l, (s.emit n type body).coreAt n = { s.coreAt n with dbuf := b, lostOwed := o, lostFirst := f, lostCount := l } := by
  unfold State.emit
  dsimp only
  split <;> split <;> exact ⟨_, _, _, _, State.coreAt_setCoreAt _ _ _⟩

/-- A STOP record changes a core's record buffer state alone (R337). -/
theorem State.coreAt_logStop (s : State) (n : Nat) (c v : DWord) :
    ∃ b o f l, (s.logStop n c v).coreAt n = { s.coreAt n with dbuf := b, lostOwed := o, lostFirst := f, lostCount := l } := by
  unfold State.logStop
  dsimp only
  split
  · exact s.coreAt_emit _ _ _
  · exact ⟨_, _, _, _, rfl⟩

/-- A stop taken at once is the core's stop (R287). -/
theorem State.stop_stopWith (s : State) (n : Nat) (st : Stop) : ((s.stopWith n st).coreAt n).stop.isSome = true := by
  unfold State.stopWith
  dsimp only
  generalize hu : State.setCoreAt _ _ _ = u
  obtain ⟨b, o, f, l, e⟩ := u.coreAt_logStop n st.trapc st.trapv
  rw [e, ← hu]
  simp

/-- A stop of a task that runs, is neither stopped nor being saved, owes no trap and has not begun the commit of its DONE is taken at once (R290, R291,
R396). -/
theorem State.takeStop_taken (s : State) (n : Nat) (kind : StopKind) (unit : Nat) (pc : BitVec 32) (impr debug : Bool) (t : TrapInfo)
    (orig : BitVec 6) (hb : (s.coreAt n).busy = true) (hs : (s.coreAt n).stop = none) (hv : (s.coreAt n).save = none)
    (ho : (s.coreAt n).trapOwed = false) (hl : (s.coreAt n).tooLate kind impr = false) :
    s.takeStop n kind unit pc impr debug t orig =
      s.stopWith n ⟨kind, mkTrapc pc unit impr t.sub t.cause, t.trapv, t.coord, t.ru, orig, s.dcc, debug, false, false, 0⟩ := by
  simp [State.takeStop, Core.ignoresStop, Core.defersStop, hb, hs, hv, ho, hl]

end Sys2Proof.Machine
end

