-- ==== Sys2Proof/Tests/Slice0.lean ====
section
/-!
SUPPORT. Tests: words of the spec's encodings, ill-formed terms, steps on small states with results worked out from the spec's rules, and for every
statement of Obligations.lean with hypotheses, clause by clause, a state and operands that meet them.
-/

namespace Sys2Proof.Tests

open Sys2Proof.Machine

set_option Elab.async false

/-- A scalar full since cycle 0. -/
def fullScalar (v : DWord) : Scalar := ⟨[⟨0, .C, v, true⟩], none⟩

/-- A scalar empty since cycle 0. -/
def emptyScalar : Scalar := ⟨[⟨0, .C, 0, false⟩], none⟩

/-- An object record (R148) of rank 1 with one chunk, permitting everything: BASE, SHB, extent, format, log2 of the chunk, kind, and the handles and bits above. -/
def recordBits (base shb dim fmt chunk kind amap sh mode gen : Nat) : Nat :=
  packFields [(base, 37), (shb, 37), (dim, 20), (1, 20), (1, 20), (1, 20), (0, 36), (0, 36), (0, 36), (0, 16), (fmt, 4), (chunk, 16), (0, 4), (0, 2),
    (0, 2), (kind, 2), (15, 4), (0, 2), (0, 32), (0, 32), (amap, 32), (0, 32), (0, 32), (0, 1), (sh, 1), (0, 1), (0, 1), (mode, 1), (1, 1), (gen, 12)]

/-- A descriptor (R247) that moves 64 elements of scratch record 2, with this member list. -/
def descBits (list : Nat) : Nat :=
  packFields [(0xFFF02000, 32), (0xFFF02000, 32), (0, 256), (64, 16), (1, 16), (1, 16), (1, 16), (list, 32), (0, 16), (1, 8)]

/-- Core 0 in cycle 10 with a task at the word `w` in cluster `k`, and scalars 3 to 18. -/
def taskWord (k : Cluster) (w : Word) : State :=
  let c := Core.start.withWord k w
  let c := { c with
    ctx := { c.ctx with root := 0x8000200000010000 }
    scal := ⟨[(3, fullScalar 5), (4, fullScalar 9), (5, fullScalar 0xFFFFF00000000010), (6, fullScalar 0xFFF0100000000002), (7, emptyScalar),
      (8, fullScalar 0xFFFFF00000000000), (9, fullScalar 0x0000200000000008), (10, fullScalar 0x00001FFF00000000), (11, fullScalar 10),
      (12, fullScalar 11), (13, fullScalar 0xFFF0100000000000), (14, fullScalar 0x0000000100010040), (15, fullScalar 65535),
      (16, fullScalar 0xFFF00000), (17, fullScalar 0xFFFFF000), (18, fullScalar 64)]⟩ }
  { State.reset.setCoreAt 0 c with dcc := 10, cluster := k }

/-- The same at a NOP, of which the code object is full. -/
def task (k : Cluster) : State := taskWord k 0

/-- The same with the focused cluster changed. -/
def taskCl (k : Cluster) (f : ClusterState → ClusterState) : State := (task k).setCl (f (task k).cl)

/-- The same with the core changed. -/
def taskCore (k : Cluster) (f : Core → Core) : State := (task k).setCur (f (task k).cur)

theorem meets_RegisterWordsComplete :
    (task .C).src 3 false = .ok 5 ∧ (task .C).src 4 true = .ok 9 ∧ (task .C).aluDest 7 = .ok () ∧ (task .C).aluDest 0 = .ok () ∧
    (task .C).cur.dividing (task .C).cluster = false := by decide +kernel

theorem meets_ImmediateWordsComplete :
    (task .V).src 3 (task .V).femodeDef = .ok 5 ∧ (task .V).src 4 (task .V).femodeDef = .ok 9 ∧ (task .V).aluDest 4 = .ok () := by decide +kernel

theorem meets_PredicateWordsComplete :
    (task .M).src 3 false = .ok 5 ∧ (task .M).src 4 true = .ok 9 ∧ (task .M).src 3 (task .M).femodeDef = .ok 5 ∧ (9 : BitVec 4).toNat < 10 := by decide +kernel

theorem meets_BranchWordsComplete_target :
    (task .A).atLoopEnd = false ∧ (task .A).cur.dxw.getLsbD 34 = false ∧ (task .A).src 5 false = .ok 0xFFFFF00000000010 ∧
    (task .A).src 3 (task .A).femodeDef = .ok 5 ∧ (task .A).aluDest 31 = .ok () ∧ (0xFFFFF00000000010 : DWord).toNat % 4 = 0 := by decide +kernel

theorem meets_BranchWordsComplete_align :
    (task .A).atLoopEnd = false ∧ (task .A).cur.dxw.getLsbD 34 = false ∧ (task .A).src 3 false = .ok 5 ∧
    (task .A).src 4 (task .A).femodeDef = .ok 9 ∧ (task .A).aluDest 31 = .ok () ∧ (5 : DWord).toNat % 4 ≠ 0 := by decide +kernel

theorem meets_LoopWordsComplete :
    (task .V).atLoopEnd = false ∧ (task .V).cur.dxw.getLsbD 34 = false ∧ (task .V).src 3 (task .V).femodeDef = .ok 5 ∧ (task .V).cl.since = none ∧
    (task .V).cur.halting = false ∧ (4 : Nat) < 2 ^ 32 ∧ (60 : Nat) < 2 ^ 32 ∧ 0 + max (7 : BitVec 3).toNat 1 - 1 < 2 ^ 32 ∧
    (2 ^ 32 - 7) + max (7 : BitVec 3).toNat 1 - 1 < 2 ^ 32 := by decide +kernel

theorem meets_ControlRegisterWordsComplete_listed :
    (task .C).readCsr (0x00B : BitVec 12).toNat = some 0x10000 ∧ (task .C).src 3 (task .C).femodeDef = .ok 5 ∧ (task .C).aluDest 7 = .ok () ∧
    ¬((0x00B : BitVec 12) = 0x028 ∧ (task .C).cluster ≠ .V) := by decide +kernel

theorem meets_ControlRegisterWordsComplete_traps :
    (task .C).readCsr (0xFFF : BitVec 12).toNat = none ∧ (task .C).cluster ≠ .V ∧ (task .V).readCsr (0x028 : BitVec 12).toNat = some 0x1000 ∧
    ¬((0x028 : BitVec 12) = 0x028 ∧ (task .V).cluster ≠ .V) := by decide +kernel

/-- The state with scratch record `i` set. -/
def withScratch (s : State) (i bits : Nat) : State :=
  s.setCur { s.cur with scratch := s.cur.scratch.write (0x3FC000 + 64 * i) 64 bits }

/-- The state with these bytes of the scratchpad set. -/
def withBytes (s : State) (a n v : Nat) : State := s.setCur { s.cur with scratch := s.cur.scratch.write a n v }

/-- The state with table record `i` set. -/
def withTable (s : State) (i bits : Nat) : State := { s with mem := s.mem.write (0x10000 + 64 * i) 64 bits }

/-- The value of a check that passes. -/
def okOr {ε α : Type} (d : α) : Except ε α → α
  | .ok a => a
  | .error _ => d

/-- Does the check pass? -/
def passes {ε α : Type} : Except ε α → Bool
  | .ok _ => true
  | .error _ => false

theorem meets_ScalarWaitWordsComplete :
    (task .A).aluDest 3 = .ok () ∧ (task .A).aluDest 7 = .ok () ∧ ((task .A).view 3).2 = true ∧ ((task .A).viewAt (some false) 3).2 = true ∧
    (task .A).markFree = .ok () ∧ ((task .A).viewAt (some true) 7).2 = false ∧ (task .A).src 3 false = .ok 5 ∧
    ((task .A).view 7).2 = false ∧ (task .A).src 11 false = .ok 10 ∧ (10 : DWord).toNat ≤ (task .A).dcc := by decide +kernel

theorem meets_ScalarWaitWordsComplete_waits :
    (task .A).cl.since = none ∧ (task .A).aluDest 3 = .ok () ∧ ((task .A).view 7).2 = false ∧ ((task .A).viewAt (some false) 7).2 = false ∧
    ((task .A).viewAt (some true) 3).2 = true ∧ ((task .A).view 3).2 = true ∧ (task .A).src 12 false = .ok 11 ∧
    (task .A).dcc < (11 : DWord).toNat := by decide +kernel

/-- An engine command in flight. -/
def command (id : BitVec 16) : Command :=
  ⟨id, 0, BitVec.ofNat 512 (descBits 0), 0, .empty, 0, [0x7FF], [(0x7FF, 0, 0)], .empty, .empty, 0, none, false, 0, 0, 0, 0, .empty, false, 0⟩

/-- Core 0 in cluster A with `n` commands issued. -/
def issued (n : BitVec 16) : State := taskCore .A fun c => { c with cmdn := n }

theorem meets_EngineWaitWordsComplete :
    (issued 6).cluster = .A ∧ (issued 6).src 3 false = .ok 5 ∧ (issued 6).src 4 false = .ok 9 ∧ (issued 6).aluDest 7 = .ok () ∧
    0 < ((issued 6).cur.cmdn - 5).toNat ∧ ((issued 133).cur.cmdn - 5).toNat ≤ 128 ∧ (issued 133).cur.inFlight 5 = false ∧
    128 < ((issued 134).cur.cmdn - 5).toNat ∧ ((issued 0x8005).cur.cmdn - 5).toNat ≤ 2 ^ 15 ∧
    (issued 5).cur.cmdn - 5 = 0 ∧ 2 ^ 15 < ((issued 4).cur.cmdn - 5).toNat ∧ (issued 6).src 0 false = .ok 0 := by decide +kernel

theorem meets_EngineWaitWordsComplete_limit :
    let s := (issued 6).setCur { (issued 6).cur with commands := [command 5] }
    let s := s.setCl { s.cl with since := some 1, waitKind := 3, waitFrom := 0 }
    s.src 3 false = .ok 5 ∧ s.src 4 false = .ok 9 ∧ 0 < (s.cur.cmdn - 5).toNat ∧ (s.cur.cmdn - 5).toNat ≤ 128 ∧ s.cur.inFlight 5 = true ∧
    s.waitedFor (9 : DWord).toNat = true := by decide +kernel

theorem meets_EngineWaitWordsComplete_map :
    let s := withBytes (withScratch (withScratch (task .A) 1 (recordBits 0x80 0 64 8 6 0 0xFFF02000 0 0 0)) 2 (recordBits 0xC0 0 68 8 0 0 0 0 0 0)) 0x3000 1 1
    s.src 13 false = .ok 0xFFF0100000000000 ∧ s.src 0 false = .ok 0 ∧ s.src 14 s.femodeDef = .ok 0x0000000100010040 ∧
    let ps := okOr [] (s.mapParts s.here 0xFFF02000 [0])
    s.cl.found = [] ∧ s.waitaChunks 0xFFF0100000000000 0 0x0000000100010040 = .ok (0xFFF02000, [0]) ∧ passes (s.mapParts s.here 0xFFF02000 [0]) = true ∧
    (∀ p ∈ ps, p.group = none) ∧ ∀ g ∈ [0].zip ps, s.partValue s.cur false g.2 / 2 ^ (g.1 % 8) % 2 = 1 := by decide +kernel

/-- Does an access of `bits` bits to element `e` of the object of `h` meet the hypotheses of the load and store statements? -/
def accessMeets (s : State) (h : BitVec 32) (acc : Nat) (e bits : Nat) : Bool :=
  let r := okOr .scratchpad (s.lookup s.here h acc)
  let ps := okOr [] (s.locateAll s.here r h acc (r.elements e bits))
  passes (s.lookup s.here h acc) && decide (r.kind ≠ 2) && r.alignedAccess e bits &&
    passes (s.locateAll s.here r h acc (r.elements e bits)) && decide (s.watchIssue (decide (acc = 1)) (r.linear e) ps = .ok ())

theorem meets_LoadWordsComplete :
    (task .A).cluster = .A ∧ (task .A).src 5 false = .ok 0xFFFFF00000000010 ∧ (task .A).src 0 false = .ok 0 ∧
    (task .A).src 5 (task .A).femodeDef = .ok 0xFFFFF00000000010 ∧ (task .A).destFree 7 = .ok () ∧ (5 : BitVec 3).toNat < 6 ∧
    (∀ w : BitVec 2, accessMeets (task .A) 0xFFFFF000 0 ((indexOf 0xFFFFF00000000010 + 0) % 2 ^ 32) (8 * 2 ^ w.toNat) = true) ∧
    accessMeets (task .A) 0xFFFFF000 0 ((indexOf 0xFFFFF00000000010 + ((-16 : BitVec 13).signExtend 32).toNat) % 2 ^ 32) 64 = true := by decide +kernel

theorem meets_StoreWordsComplete :
    let s := taskCl .A fun x => { x with stage := 2 }
    s.cluster = .A ∧ s.src 5 false = .ok 0xFFFFF00000000010 ∧ s.src 0 false = .ok 0 ∧ s.src 5 s.femodeDef = .ok 0xFFFFF00000000010 ∧
    s.src 3 s.femodeDef = .ok 5 ∧ 2 ≤ (5 : BitVec 3).toNat ∧ 2 ≤ s.cl.stage ∧
    (∀ w : BitVec 2, accessMeets s 0xFFFFF000 1 (indexOf 0xFFFFF00000000010 + 0) (8 * 2 ^ w.toNat) = true ∧
      accessMeets s 0xFFFFF000 1 ((indexOf 0xFFFFF00000000010 + ((-16 : BitVec 13).signExtend 32).toNat) % 2 ^ 32) (8 * 2 ^ w.toNat) = true) ∧
    accessMeets (withTable s 3 (recordBits 0x1000 0 64 8 0 0 0 0 0 0)) 0x00003000 1 63 8 = true := by decide +kernel

theorem meets_DoorbellStoresNotify :
    let s := { withTable (task .A) 2 (recordBits 0x2000 0 64 8 0 2 0 0 0 0) with doorbells := .put .empty 0x10080 0 }
    let r := okOr .scratchpad (s.lookup s.here 0x00002000 1)
    s.src 9 s.femodeDef = .ok 0x0000200000000008 ∧ s.src 3 s.femodeDef = .ok 5 ∧ handleOf 0x0000200000000008 = 0x00002000 ∧
    passes (s.lookup s.here 0x00002000 1) = true ∧ r.kind = 2 ∧
    (indexOf 0x0000200000000008 + ((-8 : BitVec 13).signExtend 32).toNat) % 2 ^ 32 % 8 = 0 ∧
    (indexOf 0x0000200000000008 + ((7 : BitVec 13).signExtend 32).toNat) % 2 ^ 32 % 8 ≠ 0 := by decide +kernel

/-- Each word of the list of AtomicWordsComplete, 64 bits wide and a release, on elements 2 and 3 of scratch record 1. -/
theorem meets_AtomicWordsComplete :
    let s := withScratch (taskCl .A fun x => { x with stage := 2 }) 1 (recordBits 0x40 0 64 0 0 0 0 0 0 0)
    let v := s.here
    let r := okOr .scratchpad (s.lookup v 0xFFF01000 2)
    let p := okOr ⟨.drop, 0, 0, 0, none⟩ (s.locate v r 0xFFF01000 2 (r.linear 2) false)
    let ps := okOr [] (s.locateAll v r 0xFFF01000 2 [r.linear 3])
    s.cluster = .A ∧ s.src 6 false = .ok 0xFFF0100000000002 ∧ s.src 3 false = .ok 5 ∧ s.src 4 s.femodeDef = .ok 9 ∧ s.destFree 4 = .ok () ∧
    passes (s.lookup v 0xFFF01000 2) = true ∧ r.eb = 32 ∧ passes (s.locate v r 0xFFF01000 2 (r.linear 2) false) = true ∧
    passes (s.locateAll v r 0xFFF01000 2 [r.linear 3]) = true ∧ pairAligned (p :: ps) = true ∧ ((p :: ps).any fun k => k.group.isSome) = false ∧
    s.watchIssue true (r.linear 2) (p :: ps) = .ok () ∧ (5 : BitVec 3).toNat < 6 ∧ 2 ≤ s.cl.stage := by decide +kernel

/-- Eight rows of the scratchpad, into an empty load queue and from a full store queue. -/
theorem meets_RowWordsComplete :
    let s := taskCore .A fun c => { c with storeq := .put .empty 0 (List.replicate 8 (0 : Row)) }
    let r := ObjRec.scratchpad
    let rows := (List.range 8).map (rowCoords r.eb 64 0xFFFFF00000000000 5)
    ∀ acc ∈ [7, 8], let ps := okOr [] (s.locateRows r 0xFFFFF000 acc rows)
      s.cluster = .A ∧ s.src 8 false = .ok 0xFFFFF00000000000 ∧ s.src 3 false = .ok 5 ∧ s.lookup s.here 0xFFFFF000 acc = .ok r ∧
      rows.all r.rowAligned = true ∧ passes (s.locateRows r 0xFFFFF000 acc rows) = true ∧
      s.watchIssue (decide (acc = 8)) (rowCoord (rows.headD [])) ps.flatten = .ok () ∧ s.cur.slotsFree (ps.filter needsSlot).length = true ∧
      s.cur.loadqUsed (7 : BitVec 3).toNat + 8 ≤ 8 ∧ r.kind ≠ 2 ∧ 8 ≤ (s.cur.storeq.get [] 0).length := by decide +kernel

theorem meets_OrderingWordsComplete :
    (task .A).cluster = .A ∧ (2 ≤ (taskCl .A fun x => { x with stage := 2 }).cl.stage ∧ (5 : BitVec 3).toNat < 6) ∧
    (task .M).cluster = .M ∧ (task .M).cur.arraysOrdered 0x1F = true ∧ (taskCl .M fun x => { x with stage := 2 }).cur.arraysOrdered 0x1F = true := by decide +kernel

theorem meets_ObjectWordsComplete :
    let s := withTable (taskCl .A fun x => { x with stage := 2 }) 1 (recordBits 0x800 0xC00 64 8 0 0 0 1 0 0xFFF)
    let v := s.here
    let r := okOr .scratchpad (s.lookup v 0x00001FFF 1)
    let now := ObjRec.ofBits (BitVec.ofNat 512 (s.homeRead (recordAddr v.root 1) 64))
    s.cluster = .A ∧ s.src 10 false = .ok 0x00001FFF00000000 ∧ s.src 3 false = .ok 5 ∧ s.aluDest 7 = .ok () ∧ handleOf 0x00001FFF00000000 = 0x00001FFF ∧
    passes (s.findRecord v 0x00001FFF 0) = true ∧ passes (s.freshRecord v 0x00001FFF 0) = true ∧ passes (s.lookup v 0x00001FFF 1) = true ∧
    r.sh = true ∧ r.kind = 0 ∧ 2 ≤ s.cl.stage ∧ s.cur.hasAccesses .A = false ∧ s.someMoving v now = false ∧
    now.gen = handleGen 0x00001FFF := by decide +kernel

/-- Core 0 in cluster A with a descriptor in its scratchpad, of this member list. -/
def describing (list : Nat) : State :=
  withBytes (withScratch (withScratch (withScratch (task .A) 0 codeRecordBits) 1 (recordBits 0x80 0 64 8 6 0 0 0 0 0)) 2
    (recordBits 0xC0 0 256 7 0 0 0 0 0 0)) 0 64 (descBits list)

/-- Its copy engine. -/
def describer (s : State) : Deliverer :=
  let me := agentId s.core .A
  { s.engineParty s.core (s.clockOf me) (s.vectorOf me) s.raceMode with viewer := s.here }

/-- The coordinates of the descriptor's elements. -/
def descElements (r : ObjRec) : List (List Int) := (List.range 64).map fun j => r.linear j

/-- Do the descriptor at 0 of the scratchpad and its handles pass for function `fn`? -/
def descPasses (s : State) (h : BitVec 32) (fn : Nat) : Bool :=
  let d := describer s
  let r := okOr .scratchpad (s.lookupAt d.viewer h 0 0)
  passes (s.lookupAt d.viewer h 0 0) && passes (s.locateRun d.viewer r h 0 false ((descElements r).filter fun c => (r.outside c).isNone)) &&
    decide (r.eb = 8) && decide (64 ≤ ((descElements r).filter fun c => (r.outside c).isNone).length) &&
    (List.range 64).all (fun j => decide (r.linearBit j = 8 * (r.linearBit 0 / 8 + j))) &&
    match s.engineRead d askCommandWord r h false (descElements r) with
    | .ok t vs race strikes =>
      let x := BitVec.ofNat 512 (natOfBytes (vs.map fun v => BitVec.ofNat 8 v))
      descOk fn x && passes ((t.engineReports t.core t.raceMode race strikes).checkHandles d.viewer fn x)
    | _ => false

/-- What a check that passes answers. -/
theorem passes_ok {ε α : Type} {x : Except ε α} (h : passes x = true) : ∃ a, x = .ok a := by
  cases x with
  | ok a => exact ⟨a, rfl⟩
  | error e => simp [passes] at h

/-- Then the hypotheses of EngineWordsComplete hold of some state and descriptor. -/
theorem descPasses_meets (s : State) (h : BitVec 32) (fn : Nat) (w : descPasses s h fn = true) :
    ∃ t x src dst, (∀ goOn u, goOn t x = .ok u → s.readDescriptor (describer s) askCommandWord h 0 false goOn = .done u) ∧ descOk fn x = true ∧
      t.checkHandles (describer s).viewer fn x = .ok (src, dst) := by
  simp only [descPasses, Bool.and_eq_true, decide_eq_true_eq] at w
  obtain ⟨⟨⟨⟨⟨l, p⟩, e⟩, n⟩, b⟩, w⟩ := w
  obtain ⟨r, l⟩ := passes_ok l
  rw [l] at p e n b w
  simp only [okOr] at p e n b w
  obtain ⟨ps, p⟩ := passes_ok p
  split at w
  · rename_i t vs race strikes q
    simp only [Bool.and_eq_true] at w
    obtain ⟨⟨src, dst⟩, k⟩ := passes_ok w.2
    refine ⟨t.engineReports t.core t.raceMode race strikes, _, src, dst, fun goOn u g => ?_, w.1, k⟩
    have b' : ¬∃ j < 64, ¬r.linearBit j = 8 * (r.linearBit 0 / 8 + j) := fun ⟨j, m, x⟩ =>
      x (of_decide_eq_true (List.all_eq_true.mp b j (List.mem_range.mpr m)))
    unfold State.readDescriptor
    have z : (0 : DWord).toNat = 0 := rfl
    simp only [z, Nat.zero_add] at *
    simp only [descElements] at *
    simp [l, p, q, e, b', Nat.not_lt.mpr n, bind, Except.bind, g]
  · cases w

theorem meets_EngineWordsComplete :
    ([((0 : BitVec 7), 0), (1, 0), (2, 0xFFF02000), (3, 0)].all fun e => descPasses (describing e.2) 0xFFFFF000 e.1.toNat) = true ∧
    (task .A).src 17 (task .A).femodeDef = .ok 0xFFFFF000 ∧ (task .A).src 0 (task .A).femodeDef = .ok 0 ∧ (task .A).cur.commandsFull = false ∧
    (task .A).destFree 7 = .ok () ∧ (task .A).cur.commandsHeld = false ∧
    (let s := (task .A).queueCommand 0 0xFFFFF000 0 none
     s.cur.commandsHeld = true ∧ s.cur.commandsFull = false ∧ s.cluster = .A) := by decide +kernel

/-- Core 0 in cluster C with barrier 15 set, its COMPL at `compl`. -/
def withBarrier (compl : BitVec 32) (stage : Nat) : State :=
  let s := taskCl .C fun x => { x with stage := stage }
  s.setCur (s.cur.setBarrier 15 { Barrier.start with exp := 65535, scope := 5, isSet := true, compl := compl })

theorem meets_BarrierWordsComplete :
    let s := withBarrier 5 2
    s.src 3 s.femodeDef = .ok 5 ∧ s.src 3 false = .ok 5 ∧ s.src 4 false = .ok 9 ∧ s.cluster = .C ∧ s.src 15 s.femodeDef = .ok 65535 ∧
    (65535 : DWord).toNat < 65536 ∧ (s.cur.barrier 15).exp ≠ 0 ∧ 2 ≤ (s.cur.barrier 15).scope.toNat ∧ 2 ≤ s.cl.stage ∧
    s.cur.hasAccesses .C = false ∧ s.cl.stage ≠ 5 ∧ ((s.cur.barrier 15).compl - (5 : BitVec 32)).toNat < 2 ^ 31 ∧
    (((withBarrier 0x80000004 2).cur.barrier 15).compl - (5 : BitVec 32)).toNat < 2 ^ 31 ∧
    (((withBarrier 6 5).cur.barrier 15).compl - (5 + 1 : BitVec 32)).toNat < 2 ^ 31 ∧ (withBarrier 6 5).cl.stage = 5 ∧ s.aluDest 7 = .ok () ∧
    (s.cur.barrier 0).exp = 0 := by decide +kernel

theorem meets_BarrierWordsComplete_remote :
    let s := taskCl .A fun x => { x with stage := 2 }
    s.cluster = .A ∧ (5 : BitVec 3).toNat < 6 ∧ s.src 3 false = .ok 5 ∧ targetReserved 5 = false ∧ s.src 18 false = .ok 64 ∧ 2 ≤ s.cl.stage := by decide

theorem meets_TaskMakingWordsComplete :
    let s := withScratch (task .C) 1 (recordBits 0x80 0 64 8 6 0 0 0 0 0)
    let v := s.here
    let r := okOr .scratchpad (s.freshRecord v 0xFFF01000 1)
    s.cluster = .C ∧ s.src 3 s.femodeDef = .ok 5 ∧ s.src 13 false = .ok 0xFFF0100000000000 ∧ s.src 4 false = .ok 9 ∧
    BitVec.extractLsb' 5 59 (9 : DWord) = 0 ∧ s.src 18 false = .ok 64 ∧ BitVec.extractLsb' 5 59 (64 : DWord) ≠ 0 ∧ s.cur.openJoin = none ∧
    (s.setCur { s.cur with openJoin := some ⟨0, 0, false⟩ }).cur.openJoin.isSome = true ∧ handleOf 0xFFF0100000000000 = 0xFFF01000 ∧
    passes (s.freshRecord v 0xFFF01000 1) = true ∧ r.slotOk (indexOf 0xFFF0100000000000) = true ∧ s.lookup v 0xFFF01000 1 = .ok r ∧
    passes (s.locate v r 0xFFF01000 1 (r.linear (indexOf 0xFFF0100000000000)) false) = true := by decide +kernel

/-- A service call of core 0, answered. -/
def call (answer : Option DWord) : SvcWait := ⟨1, 5, 9, 0, 0, answer⟩

theorem meets_TaskWordsComplete :
    let s := task .C
    s.atLoopEnd = false ∧ s.cur.dxw.getLsbD 34 = false ∧ s.cluster = .C ∧ s.src 3 false = .ok 5 ∧ s.src 4 false = .ok 9 ∧
    clusterOf 2 ≠ .C ∧ (s.cur.cl (clusterOf 2)).running = false ∧ 4 * (15 : BitVec 18).toNat < s.cur.sectionLength s ∧
    ([Cluster.A, .V, .M].all fun c => !(s.cur.cl c).running) = true ∧ s.cur.committing = none ∧ s.cur.vresLines = 0 ∧ s.aluDest 7 = .ok () ∧
    s.src 16 false = .ok 0xFFF00000 ∧ passes (s.lookup s.here (BitVec.extractLsb' 0 32 (0xFFF00000 : DWord)) 3) = true ∧
    (taskCl .C fun x => { x with stage := 8 }).cl.stage = 8 ∧ passes ((taskCl .C fun x => { x with stage := 8 }).applyHeld 0) = true ∧
    (let u := taskCl .C fun x => { x with stage := 3 }
     u.cl.stage = 3 ∧ (u.setCur { u.cur with svc := some (call (some 7)) }).cur.svc = some (call (some 7)) ∧
       (call (some 7)).answer = some 7) := by decide +kernel

theorem meets_StoppingWordsStop :
    (task .A).cluster ≠ .C ∧ (task .A).atLoopEnd = false ∧ (task .A).cur.dxw.getLsbD 34 = false ∧ (task .A).cur.completed (task .A).cluster = true ∧
    decode 0x00800001 = .error .rsvd := by decide +kernel

/-- A sum, one with a broadcast scalar, and a conversion with a descriptor, of one row and of four. -/
theorem meets_VectorWordsComplete :
    [(0x100, (0x80 : Byte), (2 : BitVec 5)), (0x1000, 0x80, 29), (0x400, 0x99, 28)].all (fun e =>
      let s := taskCore .V fun c => { c with shp := e.1 }
      let v : VecOp := { op := e.2.1, d := 0, a := 1, b := e.2.2, sub := 0, shape := e.1, row := 0, scal := 0, desc := 0xC687 }
      match shapeFormat s.cur.shp with
      | .ok _ => decide (s.cl.stage = 0) && s.cur.vop.isNone && decide (v.shapeOk = .ok ()) && s.cur.rowReady v
      | .error _ => false) = true ∧
    fieldCheck (.vadd 0 1 29 false 3) = none ∧ fieldCheck (.vcvtN 0 1 false false 0 3) = none ∧ (task .V).cluster = .V ∧
    (task .V).src 3 (task .V).femodeDef = .ok 5 := by decide +kernel

theorem meets_VectorAccessWordsComplete :
    let s := taskCore .V fun c => { c with shp := 0x800, loadq := .put .empty 7 [5, 6] }
    s.cluster = .V ∧ s.cur.vop = none ∧ passes (shapeFormat s.cur.shp) = true ∧ (7 : BitVec 4).toNat < shpCount s.cur.shp ∧ s.src 3 false = .ok 5 ∧
    s.src 4 s.femodeDef = .ok 9 ∧ s.src 4 true = .ok 9 ∧ s.aluDest 7 = .ok () ∧ (15 : BitVec 5).toNat < 16 ∧
    16 ≤ (23 : BitVec 5).toNat ∧ (23 : BitVec 5).toNat < 24 ∧ s.cur.loadq.get [] ((23 : BitVec 5).toNat - 16) = [5, 6] := by decide +kernel

theorem meets_MatrixSettingWordsComplete :
    (task .M).cluster = .M ∧ (task .M).src 3 (task .M).femodeDef = .ok 5 ∧ (task .M).src 4 (task .M).femodeDef = .ok 9 ∧
    (8 : BitVec 4).getLsbD 3 = true ∧ (7 : BitVec 4).getLsbD 3 = false ∧ (task .M).aluDest 7 = .ok () := by decide +kernel

/-- Core 0 in cluster M, array X set up: A from load queue 0, B an object of F16 that waits for its chunks, the drain to an object of F32. -/
def armed (stamp : DWord) : State :=
  let s := withScratch (withScratch (withScratch (withScratch (task .M) 1 (recordBits 0x80 0 64 1 6 0 0xFFF02000 0 0 0)) 2
    (recordBits 0xC0 0 68 8 0 0 0 0 0 0)) 3 (recordBits 0x100 0 64 8 0 0 0 0 0 0)) 4 (recordBits 0x140 0 64 0 0 0 0 0 0 0)
  let s := withBytes s 0x4000 16 (packFields [(0, 32), (1, 4), (1, 4)])
  let regs : StepRegs := ⟨BitVec.ofNat 256 (2 ^ 199), BitVec.ofNat 256 (0xFFF01000 + 2 ^ 193), 0xFFF04000⟩
  s.setCur { s.cur with ftb := 0xFFF0300000000000, arrayX := { s.cur.arrayX with regs := regs, ms := stamp } }

/-- The read of the format table entry for array X, as its words make it. -/
def reading (s : State) (goOn : State → BitVec 128 → Except Hold State) : Except Hold State :=
  s.withEntry (s.entryIndex false) (askWord .M) (fun t => t.waited 0 0) goOn

/-- Does the entry that array X would read pass the checks of an MMUL and of a drain? -/
def entryPasses (s : State) : Bool :=
  let x := okOr (0, 0, []) (s.entryPlaces (s.entryIndex false))
  passes (s.entryPlaces (s.entryIndex false)) &&
    match s.fetchRemote s.core (askWord .M) x.1 6 (entryCoords (s.record s.here (handleIndex x.1)) x.2.1) x.2.2 with
    | .ok t vs =>
      let u := (t.watchRecord false false x.2.2).cacheUse t.here x.1 x.2.2
      let bits := BitVec.ofNat 128 ((t.elementCodes t.cur vs).foldr (fun c w => c % 256 + 256 * w) 0)
      let regs := (s.cur.array false).regs
      passes (u.checkMmul regs bits) && passes (u.checkDrain regs bits)
    | _ => false

/-- Then the hypotheses of MatrixActingWordsComplete about the entry hold of some state and entry. -/
theorem entryPasses_meets (s : State) (h : entryPasses s = true) :
    ∃ t bits e, (∀ goOn, reading s goOn = goOn t bits) ∧ t.checkMmul (s.cur.array false).regs bits = .ok e ∧
      t.checkDrain (s.cur.array false).regs bits = .ok () := by
  simp only [entryPasses, Bool.and_eq_true] at h
  obtain ⟨p, h⟩ := h
  obtain ⟨⟨hd, off, ps⟩, p⟩ := passes_ok p
  rw [p] at h
  simp only [okOr] at h
  split at h
  · rename_i t vs q
    simp only [Bool.and_eq_true] at h
    obtain ⟨e, he⟩ := passes_ok h.1
    obtain ⟨⟨⟩, hd⟩ := passes_ok h.2
    refine ⟨_, _, e, fun goOn => ?_, he, hd⟩
    simp only [reading, State.withEntry, p, bind, Except.bind, q]
  · cases h

theorem meets_MatrixActingWordsComplete :
    let s := armed 0
    let x := s.cur.array false
    s.cluster = .M ∧ x.pend = none ∧ x.ms = 0 ∧ sourceCheck false x.regs = .ok () ∧ entryPasses s = true ∧ (∀ o ∈ x.ops, o.isDrain = false) ∧
    otherArray false (BitVec.ofNat 4 x.regs.accumulator) = false ∧ BitVec.getLsbD (7 : BitVec 4) 3 = false ∧ x.uses 7 = false ∧
    s.cur.arrayDone false = true ∧ s.cur.arrayDone true = true := by decide +kernel

theorem meets_MatrixActingWordsComplete_stamp :
    let stamp := fun (v : DWord) => ((armed v).cur.array false).ms
    (stamp 11).toNat = (armed 11).dcc + 1 ∧ (stamp 0x10000000A).toNat = (armed 11).dcc + 2 ^ 32 ∧ entryPasses (armed 11) = true ∧
    (stamp 10).toNat ≤ (armed 10).dcc ∧ stamp 10 ≠ 0 ∧ (armed 10).dcc + 2 ^ 32 < (stamp 0x10000000B).toNat := by decide +kernel

/-- Sage core 0 running at address `pc`, with registers 1 to 3 and a route to node 5. -/
def sage (pc : Int) (r1 r2 : DWord) : State :=
  State.reset.setSageAt 0
    { Sage.start with
      running := true
      pc := pc
      regs := ⟨[(1, r1), (2, r2), (3, 5)]⟩
      routes := ⟨[(5, 2 ^ 17 + 2 ^ 43)]⟩ }

theorem meets_SageRegisterWordsComplete : (sage 0 7 9).curSage.running = true := by decide

/-- Branches to the last word of the 64 KB and past it, taken and not; jumps by register. -/
theorem meets_SageBranchWordsComplete :
    let target := fun (s : State) (o : BitVec 18) => s.curSage.pc + 4 * o.toInt
    let valid := fun (t : Int) => t % 4 = 0 ∧ 0 ≤ t ∧ t < 0x10000
    (sage 0 7 7).curSage.running = true ∧ valid (target (sage 0 7 7) 16383) ∧ ¬valid (target (sage 0 7 7) 16384) ∧ ¬valid (target (sage 0 7 7) (-1)) ∧
    valid (target (sage 4 7 7) (-1)) ∧ (sage 0 7 7).g 1 = (sage 0 7 7).g 2 ∧ (sage 0 7 8).g 1 ≠ (sage 0 7 8).g 2 ∧
    ((sage 0 (-1) 0).g 1).toInt < ((sage 0 (-1) 0).g 2).toInt ∧ ¬(((sage 0 7 7).g 1).toInt < ((sage 0 7 7).g 2).toInt) ∧
    valid (((sage 0 0xFFFC 0).g 1).toNat + 4 * (0 : BitVec 18).toInt) ∧ ¬valid (((sage 0 2 0).g 1).toNat + 4 * (0 : BitVec 18).toInt) ∧
    decodeSage 0 = .error .notG := by decide +kernel

/-- Loads and stores at the ends of the data memory, of the event queue and of the device's own memory. -/
theorem meets_SageMemoryWordsComplete :
    let address := fun (r : DWord) (o : BitVec 14) => (((sage 0 r 0).g 1).toNat : Int) + o.toInt
    (sage 0 0 0).curSage.running = true ∧ address 0x40000 (-8) = (0x3FFF8 : Nat) ∧ 0x3FFF8 % 2 ^ (3 : BitVec 2).toNat = 0 ∧ 0x3FFF8 + 8 ≤ 0x40000 ∧
    address 0x3FFF8 8 = (0x40000 : Nat) ∧ 0x40000 < 0x40000 + 8 ∧ address 0x8000 0 = (0x8000 : Nat) ∧ address 0x8000 (-1) = (0x7FFF : Nat) ∧
    0x7FFF % 2 ^ (0 : BitVec 2).toNat = 0 ∧ address 0x7FFFFFFFF8 0 = (2 ^ 39 - 8 : Nat) ∧ (2 ^ 39 - 8) % 2 ^ (3 : BitVec 2).toNat = 0 ∧
    (sage 0 0 0).homeHolds (0, (2 ^ 39 - 8) / 64) true = false ∧ (sage 0 0 0).homeHolds (0, (2 ^ 39 - 8) / 64) false = false ∧
    (sage 0 0 0).offered (2 ^ 39 - 8) 8 = true ∧ address 0x8000000000 0 = (2 ^ 39 : Nat) ∧ 2 ^ 39 % 2 ^ (3 : BitVec 2).toNat = 0 ∧
    (sage 0 0 0).offered (2 ^ 39) 8 = false ∧
    3 < (4 : BitVec 12).toNat := by decide +kernel

theorem meets_SageControlWordsComplete :
    let s := sage 0 5 2
    let x := s.curSage
    let t := s.setCurSage { x with evOcc := 1, dbgAlloc := .put .empty 15 true }
    let u := s.setPdc (16384 * s.sage + (s.g 1).toNat % 2 ^ 14) { Pdc.start with isOpen := true }
    x.running = true ∧ x.evOcc = 0 ∧ t.curSage.evOcc ≠ 0 ∧ (u.pdc (16384 * u.sage + (u.g 1).toNat % 2 ^ 14)).isOpen = true ∧
    (s.pdc (16384 * s.sage + (s.g 1).toNat % 2 ^ 14)).isOpen = false ∧ (s.g 1).toNat % 2 ^ 11 ≤ 1057 ∧
    (x.routes.get 0 ((s.g 1).toNat % 2 ^ 11)).getLsbD (43 + 24 * (0 : BitVec 3).toNat) = true ∧
    ((s.g 1).toNat < 48 ∧ sageOfPort (s.g 1).toNat = s.sage) ∧ ¬(((sage 0 6 0).g 1).toNat < 48 ∧ sageOfPort ((sage 0 6 0).g 1).toNat = 0) ∧
    (sage 0 0x3F0F 0).g 1 &&& ~~~(0x3F0F#64) = 0 ∧ ((sage 0 15 0).g 1).toNat < 16 ∧ 16 ≤ ((sage 0 16 0).g 1).toNat ∧
    t.curSage.dbgAlloc.has 15 = true ∧ x.dbgAlloc.has (s.g 2).toNat = false ∧ (s.g 1).toNat % 2 ^ 11 ≠ s.node.toNat := by decide +kernel

/-- GSEND of a full buffer on the one path of a route. -/
theorem meets_SageControlWordsComplete_send :
    let s := (sage 0 5 15).setCurSage { (sage 0 5 15).curSage with routes := ⟨[(5, 2 ^ 17)]⟩, dbgAlloc := .put .empty 15 true }
    ∃ t psn, s.transmitBy s.sage 5 0 (s.debugPacket (s.curSage.buffer 15 1024)) 15 false (64 + s.sage) = .ok t psn := by
  intro s
  have w : (s.sageAt s.sage).paths 5 = [⟨0, 0, 16⟩] := by decide +kernel
  have c : (s.pdc (pdcFor s.sage 5)).mayStart s.dcc (paddedSize (s.debugPacket (s.curSage.buffer 15 1024)).payload) = true := by decide +kernel
  simp [State.transmitBy, w, c]

/-- A queue slot of context 0 in this state, its ring the table object 1. -/
def slotIn (st : SlotState) (head tail : BitVec 32) : QueueSlot :=
  { QueueSlot.start with state := st, head := head, tail := tail, logn := 4, ringh := 0x00001000, readyn := 2, qnum := 7, ageus := 1, mappedAt := 0x50000 }

/-- The device with slot 127 in this state. -/
def queueState (q : QueueSlot) : State := { (State.reset.setQueue 127 q) with dcc := 1000 }

/-- A Ready record of context 0 and queue 7. -/
def readyCr (key : Nat) (gang : Option (Nat × Nat)) : ReadyCr :=
  { key := key, launch := 1, cr := { Cr.none with qnum := 7, state := .ready, domain := 4, inst := 0xFFFF, prio := 3 }, ctx := 0, gang := gang,
    saveRef := 0, fromExpansion := false, failedGang := none, slot := 0, kept := .none, moved := false }

theorem meets_QueueEventsComplete :
    let q := fun (s : State) => s.queue 127
    let record := fun (flags : Nat) => ({ queueState (slotIn .free 0 0) with mem := .write ⟨[]⟩ (0x50000 + 24) 1 flags } : State)
    127 < 128 ∧ (127 * 65536 + 65528) / 65536 = 127 ∧ (127 * 65536 + 65528) % 8 = 0 ∧
    (q (queueState (slotIn .free 0 0))).state = .free ∧ (queueState (slotIn .free 0 0)).offered (0x50000 / 64 * 64) 64 = true ∧
    (queueState (slotIn .free 0 0)).homeRead (0x50000 / 64 * 64 + 24) 1 / 2 % 2 = 0 ∧
    (let m := q (queueState (slotIn .mapped 0 0))
     m.state = .mapped ∧ (16 : BitVec 32) ≠ m.tail ∧ ((16 : BitVec 32) - m.tail).toNat < 2 ^ 31 ∧ ((16 : BitVec 32) - m.head).toNat ≤ 2 ^ m.logn ∧
       (17 : BitVec 32) ≠ m.tail ∧ ((17 : BitVec 32) - m.tail).toNat < 2 ^ 31 ∧ 2 ^ m.logn < ((17 : BitVec 32) - m.head).toNat) ∧
    (0 : BitVec 32) = (q (queueState (slotIn .mapped 0 0))).tail ∧ 2 ^ 31 ≤ ((0 : BitVec 32) - (q (queueState (slotIn .mapped 1 1))).tail).toNat ∧
    (q (queueState (slotIn .mapped 0 0))).state ≠ .free ∧ (q (queueState (slotIn .free 0 0))).state ≠ .mapped ∧
    (queueState (slotIn .free 0 0)).offered (0xFFFFFFFFFFFFFFFF / 64 * 64) 64 = false ∧
    (record 2).homeRead (0x50000 / 64 * 64 + 24) 1 / 2 % 2 = 1 ∧ (q (queueState (slotIn .unmapping 0 0))).state = .unmapping ∧ (queueState (slotIn .unmapping 0 0)).notifyUnderWay 127 = false ∧
    (queueState (slotIn .free 0 0)).bridgeFailed = false ∧
    (let s := { queueState (slotIn .mapped 0 0) with ready := [readyCr 1 none] }
     ([readyCr 1 none].all fun r => decide (r.ctx = (q s).ctx ∧ r.cr.qnum = (q s).qnum)) = true ∧
       (q s).intervalStart + (q s).ageus * 1000 ≤ s.dcc) := by decide +kernel

/-- A launch of queue 7 with one level of `n` tasks, a gang of them where the flag is set. -/
def aLaunch (n gang : Nat) : Launch where
  slot := 127
  qnum := 7
  ctx := 0
  record := BitVec.ofNat 1024 (packFields [(0, 4), (1, 4), (0, 504), (n, 16), (4, 3), (5, 3), (gang, 1)])
  total := n
  expanded := []
  alive := 0
  endedDone := 0
  trapped := 0
  status := 0
  flevel := 0
  heldSince := none
  mine := none
  level0 := .empty
  dieMask := 0

theorem meets_LaunchEventsComplete :
    let s := queueState (slotIn .mapped 0 1)
    let s : State := { s with contexts := .put .empty 0 (BitVec.ofNat 512 (0x8000200000010000 * 2 ^ 128)) }
    let s := withTable s 1 (recordBits 0x1000 0 2048 8 0 0 0 0 0 0)
    let q := s.queue 127
    q.state = .mapped ∧ q.err = 0 ∧ q.head ≠ q.tail ∧ passes (s.ringEntry q) = true := by decide +kernel

theorem meets_LaunchEventsComplete_over :
    let s := fun (l : Launch) => (State.reset.setLaunch 1 l).launch 1
    let ended := { aLaunch 2 0 with expanded := [0, 1] }
    let waits := { aLaunch 2 0 with heldSince := some 0 }
    s ended = some ended ∧ ended.over = true ∧ s waits = some waits ∧ waits.heldSince = some 0 ∧
    0 + 10000000 ≤ ({ State.reset with dcc := 10000000 } : State).dcc := by decide +kernel

theorem meets_LaunchEventsComplete_expansion :
    let s := fun (l : Launch) => (queueState (slotIn .mapped 0 1)).setLaunch 1 l
    let l := aLaunch 2 0
    let g := aLaunch 2 1
    (s l).launch 1 = some l ∧ (s l).slotOf l.ctx l.qnum = some 127 ∧ ((s l).queue 127).state = .mapped ∧ l.status = 0 ∧ l.expanded.length < l.total ∧
    ((s l).ready.filter fun r => r.ctx = l.ctx && r.cr.qnum = l.qnum && r.fromExpansion).length < 64 ∧ l.gangLevel = none ∧
    (s l).liveOf l.ctx l.qnum < ((s l).queue 127).readyn ∧ g.gangLevel = some 0 ∧
    (s g).liveOf g.ctx g.qnum + g.inner 0 ≤ ((s g).queue 127).readyn := by decide +kernel

/-- The one record of a list is chosen, whatever the free choice is. -/
theorem choose_one (s : State) (rs : List ReadyCr) (r : ReadyCr) (h : s.firsts rs = [r]) : s.choose rs = some r := by
  simp [State.choose, h, Nat.mod_one]

/-- The device with queue 7 mapped, launch 1 and these Ready records. -/
def scheduling (l : Launch) (rs : List ReadyCr) : State := { (queueState (slotIn .mapped 0 0)).setLaunch 1 l with ready := rs }

theorem meets_SchedulerEventsComplete_pop :
    let s := scheduling (aLaunch 2 0) [readyCr 1 none]
    let t := s.refill
    let rs := t.ready.filter fun x => x.team.isNone && (t.mappedSlot x).isSome
    (rs.map (t.inTheWay (dieCores 1))).flatten = [] ∧
    t.choose (t.ready.filter fun x => if x.team.isNone then (t.mappedSlot x).isSome && !(t.placesFor (dieCores 1) x).isEmpty
      else t.mayReserve 1 x) = some (readyCr 1 none) ∧ (readyCr 1 none).team = none ∧
    t.bestCore (t.placesFor (dieCores 1) (readyCr 1 none)) = some 32 := by
  refine ⟨by decide +kernel, choose_one _ _ _ (by decide +kernel), rfl, by decide +kernel⟩

theorem meets_SchedulerEventsComplete_reserve :
    let s := scheduling (aLaunch 1 1) [readyCr 1 (some (9, 1))]
    let t := s.refill
    let r := readyCr 1 (some (9, 1))
    ((t.ready.filter fun x => x.team.isNone && (t.mappedSlot x).isSome).map (t.inTheWay (dieCores 1))).flatten = [] ∧
    t.choose (t.ready.filter fun x => if x.team.isNone then (t.mappedSlot x).isSome && !(t.placesFor (dieCores 1) x).isEmpty
      else t.mayReserve 1 x) = some r ∧ t.choose (t.ready.filter (t.mayReserve 1)) = some r ∧ r.team = some 9 := by
  refine ⟨by decide +kernel, choose_one _ _ _ (by decide +kernel), choose_one _ _ _ (by decide +kernel), by decide⟩

/-- A reservation for a gang that has filled core 0, and a record of higher priority that needs that core. -/
theorem meets_SchedulerEventsComplete_way :
    let r := { readyCr 1 none with cr := { (readyCr 1 none).cr with domain := 1, inst := 0, prio := 4 } }
    let s := { scheduling (aLaunch 2 1) [r, readyCr 2 (some (9, 1))] with reservations := [⟨1, 9, 1, 0, [0, 1], []⟩] }
    let t := s.refill
    let rs := t.ready.filter fun x => x.team.isNone && (t.mappedSlot x).isSome
    t.choose (rs.filter fun x => !(t.inTheWay (dieCores 0) x).isEmpty) = some r := by
  refine choose_one _ _ _ (by decide +kernel)

theorem meets_SchedulerEventsComplete_start :
    let v : Reservation := ⟨1, 9, 1, 1, [32, 33], [33]⟩
    let s := { scheduling (aLaunch 1 1) [readyCr 1 (some (9, 1))] with reservations := [v] }
    (s.refill.reservations.find? fun w => w.gang = 9) = some v ∧
    s.refill.assign v.cores (s.refill.members 9) = some [(readyCr 1 (some (9, 1)), 33)] := by decide +kernel

theorem meets_SchedulerEventsComplete_fetch :
    let s := taskCore .C fun c => { c with started := false }
    (s.coreAt 0).busy = true ∧ (s.coreAt 0).started = false ∧ (s.coreAt 0).stop = none ∧ (s.coreAt 0).save = none ∧ s.codeCheck 0 = .ok () ∧
    15 < 16 ∧ ∃ i < 4, s.cfence.getLsbD (4 * 15 + i) = false := by decide +kernel

/-- A store of 8 bytes of cluster A to device address 0x40000, or another operation there. -/
def access (op : AccessOp) (phase : Phase) (checked : Bool) : Access where
  id := 1
  cluster := .A
  unit := 1
  pc := 0
  code := 1
  handle := 0x00003000
  coord := [0, 0, 0, 0]
  op := op
  parts := [⟨.device 0x40000, 0, 0, 64, none⟩]
  acq := false
  rel := false
  scope := 1
  versioned := false
  mode := 0
  checked := checked
  metaH := 0
  span := 64
  phase := phase
  since := 0
  before := none

/-- Core 0 with that access queued, in cycle 10,000,000. -/
def accessing (x : Access) : State := { (taskCore .A fun c => { c with accesses := [x], nextId := 2 }) with dcc := 10000000 }

/-- An access of one line has that line next, whatever the free choice is. -/
theorem next_line (x : Access) (k : Nat × Nat) (n : Nat) (h : x.keys = [k]) (l : k.1 < 2) : x.nextKey n = some k := by
  simp only [Access.nextKey, h, List.filter_cons, l, decide_true, if_true, List.filter_nil]
  simp [Nat.mod_one]

theorem meets_TaskEventsComplete :
    let c := (taskCore .A fun c => { c with scal := c.scal.put 7 ⟨[⟨0, .A, 0, false⟩], some ⟨.A, true, some 9⟩⟩ }).coreAt 0
    let op : VecOp := ⟨0x80, 0, 1, 2, 0, 0x1000, 15, 0, 0⟩
    let v := (taskCore .V fun c => { c with vop := some op }).coreAt 0
    (c.reg 7).pending = some ⟨.A, true, some 9⟩ ∧ v.vop = some op ∧ v.rowReady op = true := by decide +kernel

theorem meets_TaskEventsComplete_access :
    let x := access (.store 5) .issued false
    let s := accessing x
    let c := s.coreAt 0
    c.findAccess 1 = some x ∧ x.mayPerform (c.accessesBefore x.cluster 1) = true ∧ x.phase = .issued ∧ x.checked = false ∧
    x.unplaced s.node.toNat = false ∧ x.nextKey (Config.pick (8 * s.steps + 1)) = some (0, 0x1000) ∧
    s.homeHoldsFor (some (0, 1)) (0, 0x1000) x.op.isStore = false ∧ s.cutOff 0 (64 * 0x1000) = false := by
  refine ⟨by decide +kernel, by decide +kernel, by decide, by decide, by decide, next_line _ _ _ (by decide +kernel) (by decide), by decide +kernel, by decide +kernel⟩

theorem meets_TaskEventsComplete_wait :
    let x := access (.store 5) .waiting true
    let s := accessing x
    (s.coreAt 0).findAccess 1 = some x ∧ x.phase = .waiting ∧ x.checked = true ∧ x.since + 10000000 ≤ s.dcc := by decide +kernel

theorem meets_TaskEventsComplete_commit :
    let version : Tab VByte := ⟨[(0x40000, ⟨1, 0xFF⟩), (0x4003F, ⟨2, 0x0F⟩)]⟩
    let s := taskCore .A fun c => { c with committing := some version }
    (s.coreAt 0).committing = some version ∧ versionLines version ≠ [] ∧
    s.homeHolds (0, (versionLines version).getD (Config.pick (8 * s.steps + 2) % (versionLines version).length) 0) true = false := by
  have h : versionLines ⟨[(0x40000, ⟨1, 0xFF⟩), (0x4003F, ⟨2, 0x0F⟩)]⟩ = [0x1000] := by decide
  refine ⟨rfl, by decide, ?_⟩
  simp only [h, List.length_cons, List.length_nil, Nat.zero_add, Nat.mod_one]
  decide +kernel

theorem meets_WaitEventsComplete :
    let s := { (taskCl .V fun x => { x with since := some 0, waitKind := 1, femode := 0x000000050000 * 65536 }) with dcc := 5 }
    let x := (s.coreAt 0).cl .V
    (s.coreAt 0).stop = none ∧ x.running = true ∧ x.blocked = true ∧ x.limit = 5 ∧ x.limit ≠ 0 ∧ x.since = some 0 ∧ x.waitFrom + x.limit ≤ s.dcc := by decide +kernel

theorem meets_WaitEventsComplete_lockstep :
    let s := taskCl .A fun x => { x with syncWait := true, syncCount := 1 }
    let s := s.setCur { s.cur with syncto := 1 }
    let c := s.coreAt 0
    c.stop = none ∧ c.busy = true ∧ (c.syncto.extractLsb' 0 32).toNat ≠ 0 ∧
    ([Cluster.C, .A, .V, .M].find? fun j =>
      (c.cl j).running && decide ((c.syncto.extractLsb' 0 32).toNat ≤ (c.cl j).syncWaited s.dcc)) = some .A := by decide +kernel

/-- A task that waits at a word since cycle 1. -/
def waitingAt (k : Cluster) (i : Instr) : State :=
  let s := taskWord k ((encodeCore false i).getD 0)
  s.setCl { s.cl with since := some 1 }

theorem meets_WaitEventsComplete_target :
    let s := waitingAt .V (.waitd 4 11 false)
    s.waitingWord 0 .V = some (.waitd 4 11 false) ∧ (s.at 0 .V).src 11 false = .ok 10 ∧ (s.at 0 .V).aluDest 4 = .ok () ∧
    (10 : DWord).toNat ≤ s.dcc := by decide +kernel

theorem meets_WaitEventsComplete_limit :
    let s := waitingAt .A (.waitct 4 3 4 false false)
    let s := (s.setCur { s.cur with cmdn := 6, commands := [command 5] }).setCl { s.cl with waitKind := 3, waitFrom := 1 }
    let u := s.at 0 .A
    s.waitingWord 0 .A = some (.waitct 4 3 4 false false) ∧ u.src 3 false = .ok 5 ∧ u.src 4 false = .ok 9 ∧ u.aluDest 4 = .ok () ∧
    u.cur.waitCommand (BitVec.extractLsb' 0 16 (5 : DWord)) = .ok none ∧ u.waitedFor (9 : DWord).toNat = true := by decide +kernel

/-- The registers of an operation whose A comes from load queue 0, or from scratch record 1, its B from scratch record 1 and its drain to the
scratchpad, all outside their shapes, where they pad. -/
def padRegs (queue : Bool) : StepRegs :=
  let far : Nat := 0x1000 * 2 ^ 64
  ⟨BitVec.ofNat 256 (0xFFF01000 + far + if queue then 2 ^ 199 else 0), BitVec.ofNat 256 (0xFFF01000 + far), BitVec.ofNat 256 (0xFFF01000 + far)⟩

/-- Scratch record 1 of 64 elements, padded. -/
def padded (s : State) : State := withScratch s 1 (recordBits 0x40 0 64 1 0 0 0 0 0 0 + 2 ^ 312)

/-- An operation of array X, of two F16 operands and an F32 result. -/
def arrayOp (drain waiting : Bool) : ArrayOp where
  isDrain := drain
  regs := padRegs false
  entry := BitVec.ofNat 128 (packFields [(0, 32), (1, 4), (1, 4)])
  seq := 0
  row := 0
  b := []
  bScale := []
  ta := 0
  tb := 0
  waiting := waiting
  since := 0
  latched := true
  pc := 0
  mode := 0
  steps := []
  staged := [([], [])]

/-- The last row of an MMUL, staged. -/
theorem meets_ArrayEventsComplete_row :
    let o := { arrayOp false false with row := 127 }
    let s := padded (taskCore .M fun c => { c with arrayX := { c.arrayX with ops := [o] } })
    let array := (s.coreAt 0).array (isArrayY .X)
    array.entering = some o ∧ (s.coreAt 0).save = none ∧ o.latched = true ∧ array.rowBlocked o o.row = false ∧ o.regs.queueA = false ∧
    o.staged = [([], [])] ∧ 128 ≤ o.row + o.staged.length := by decide +kernel

theorem meets_ArrayEventsComplete_drain :
    let o := arrayOp true false
    let s := padded (taskCore .M fun c => { c with arrayX := { c.arrayX with ops := [o] } })
    let array := (s.coreAt 0).array (isArrayY .X)
    array.draining = some o ∧ array.rowBlocked o o.row = false ∧ (s.coreAt 0).arrayWaits = false ∧ passes (s.drainPlaces 0 o) = true := by decide +kernel

/-- A drain to table record 4, whose units are not present. -/
theorem meets_ArrayEventsComplete_resid :
    let o := { arrayOp true true with regs := ⟨0, 0, 0x00004000⟩ }
    let s := withTable (taskCore .M fun c => { c with arrayX := { c.arrayX with ops := [o] } }) 4 (recordBits 0x1000 0 64 0 0 0 0 0 1 0)
    ((s.coreAt 0).array (isArrayY .X)).draining = some o ∧ o.waiting = true ∧
    (match s.drainPlaces 0 o with
     | .error (.fault _) => true
     | _ => false) = true := by decide +kernel

/-- The pending operation of array X of `padRegs`, with so many steps of B preloaded. -/
def pendingOp (queue : Bool) (stamp : DWord) (steps : Nat) : PendingOp where
  regs := padRegs queue
  entry := BitVec.ofNat 128 (packFields [(0, 32), (1, 4), (1, 4)])
  stamp := stamp
  seq := 0
  pc := 0
  index := some 0
  checked := true
  entered := 0
  mode := 0
  steps := List.replicate steps ([], [])
  staged := []
  waiting := false
  since := 0

/-- Core 0 with that MMUL pending in cycle 10, a row in load queue 0. -/
def mmulPending (p : PendingOp) : State :=
  padded (taskCore .M fun c => { c with arrayX := { c.arrayX with pend := some p }, loadq := .put .empty 0 [0] })

/-- An MMUL that is due, unstamped or at its stamp. -/
theorem meets_ArrayEventsComplete_issue (stamp : DWord) (h : stamp = 0 ∨ stamp = 10) :
    let p := pendingOp true stamp 128
    let s := mmulPending p
    let c := s.coreAt 0
    (c.array (isArrayY .X)).pend = some p ∧ p.checked = true ∧ c.stop = none ∧ c.save = none ∧ (p.stamp = 0 ∨ p.stamp.toNat = s.dcc) ∧
    s.mayIssue 0 (isArrayY .X) p = true := by
  refine ⟨rfl, rfl, rfl, rfl, ?_, ?_⟩ <;> rcases h with rfl | rfl <;> decide +kernel

/-- Stamps missed: one past, and one at its cycle without its operands. -/
theorem meets_ArrayEventsComplete_miss :
    let past := pendingOp true 9 128
    let late := pendingOp true 10 127
    ((mmulPending past).coreAt 0).arrayX.pend = some past ∧ past.stamp ≠ 0 ∧ past.stamp.toNat < (mmulPending past).dcc ∧
    ((mmulPending late).coreAt 0).arrayX.pend = some late ∧ late.stamp.toNat ≤ (mmulPending late).dcc ∧
    (mmulPending late).mayIssue 0 (isArrayY .X) late = false := by
  refine ⟨rfl, by decide, by decide, rfl, by decide, by decide +kernel⟩

/-- What was read of a line. -/
def lineRead : LineRead → Bool
  | .ok _ _ _ => true
  | _ => false

/-- The last step of B, out of shape, whose A comes from a load queue; it may be stamped ahead. -/
theorem meets_ArrayEventsComplete_step :
    let p := pendingOp true 0 127
    let s := mmulPending p
    let array := (s.coreAt 0).array (isArrayY .X)
    array.pend = some p ∧ p.stamp = 0 ∧ p.steps.length < 128 ∧ array.mayStage p = false ∧
    lineRead (s.fetchStep (p.reader 0 (isArrayY .X) s.dcc) p.regs (.ofBits p.entry) p.steps.length) = true := by
  refine ⟨rfl, rfl, by decide +kernel, rfl, ?_⟩
  decide +kernel

theorem meets_EngineEventsComplete :
    let plain := command 5
    let ended := { command 5 with work := [] }
    let waits := { command 5 with waiting := some (0, 0, 0) }
    let s := fun (k : Command) => { (taskCore .A fun c => { c with commands := [k] }) with dcc := 10000000 }
    ((s plain).coreAt 0).findCommand 5 = some plain ∧ plain.waits = false ∧ ((s ended).coreAt 0).findCommand 5 = some ended ∧ ended.over = true ∧
    ((s waits).coreAt 0).findCommand 5 = some waits ∧ waits.waits = true ∧ waits.since + 10000000 ≤ (s waits).dcc ∧ waits.members ≠ [] ∧
    waits.waiting ≠ none := by decide +kernel

/-- A stop of this kind. -/
def aStop (kind : StopKind) (debug recorded : Bool) : Stop := ⟨kind, 0x16, 0, [], 0, 0, 0, debug, recorded, false, 0⟩

theorem meets_EngineEventsComplete_owed :
    [(StopKind.trap, false), (.fault, true)].all (fun e =>
      let st := aStop e.1 e.2 false
      let c := (taskCore .A fun c => { c with pendingTrap := some st }).coreAt 0
      decide (c.pendingTrap = some st) && decide (st.debug = e.2) && c.canStop && !c.defersStop st.kind true &&
        !(({ c with pendingTrap := none } : Core).ignoresStop st.kind) && !c.ignoresStop st.kind) = true := by decide +kernel

/-- A packet of this opcode from node 5, for 8 bytes at the start of the object of handle 0x00003000, of job 9. -/
def packet (opc : BitVec 4) (payload : List Byte) : Packet where
  port := 47
  pdc := 5
  psn := 0
  ent := 0
  via := 0x7FF
  srcn := 5
  aux := 0
  rank := 0
  nc := 1
  nelem := 8
  uoff := 0
  coord := 0
  handle := 0x00003000
  job := 9
  acq := false
  rel := false
  opc := opc
  payload := payload
  ecn := false

/-- The device running job 9 in context 0, whose object 3 is 64 bytes at 0x40000. -/
def jobState : State :=
  withTable { State.reset with
    jobs := .put .empty 9 0, contexts := .put .empty 0 (BitVec.ofNat 512 (0x8000200000010000 * 2 ^ 128)) } 3
    (recordBits 0x1000 0 64 8 0 0 0 0 0 0)

theorem meets_PlacementPacketsComplete :
    let s := jobState
    let down := s.setPort 47 { s.port 47 with down := true }
    let again := { s with replies := [⟨packet 1 [], .done, 0, false⟩] }
    ([0, 1, 2].all fun n => decide ((packet n []).opc = n)) = true ∧ (down.port 47).down = true ∧ (s.port 47).down = false ∧
    s.answered (packet 1 []) = none ∧ s.jobs.find (packet 1 []).job.toNat = some 0 ∧ again.answered (packet 1 []) = some .done ∧
    State.reset.answered (packet 1 []) = none ∧ State.reset.jobs.find (packet 1 []).job.toNat = none := by decide +kernel

/-- Does Sorrel let the run go on? -/
def runPasses : RunCheck → Bool
  | .ok _ _ => true
  | .held _ => false

theorem meets_ForwardedAccessesComplete :
    let s := jobState
    (s.port 47).down = false ∧ s.answered (packet 3 []) = none ∧ s.jobs.find (packet 3 []).job.toNat = some 0 ∧
    ([((3 : BitVec 4), 0, 12, 64), (5, 1, 13, 1), (6, 2, 14, 4), (6, 2, 14, 8)].all fun e =>
      let p := packet e.1 [0xFF]
      let party := s.portParty p 0
      let r := okOr .scratchpad (s.forwardedRecord party.viewer p.handle e.2.1)
      let ps := okOr [] (s.forwardedParts party.viewer r p.handle e.2.1 (packetOffset p) e.2.2.2)
      passes (s.forwardedRecord party.viewer p.handle e.2.1) && decide (r.kind ≠ 2) &&
        passes (s.forwardedParts party.viewer r p.handle e.2.1 (packetOffset p) e.2.2.2) && !s.runHeld (decide (e.2.2.1 ≠ 12)) ps &&
        runPasses (s.checkRun party r p.handle e.2.2.1 (decide (e.2.2.1 ≠ 12)) (p.acq || p.rel || decide (e.2.2.1 = 14)) (s.heldLong p)
          (r.linear (packetOffset p * 8 / r.eb)) ps)) = true ∧
    (packet 8 []).opc = 8 := by decide +kernel

/-- A remote access of cluster A, sent. -/
def sent (op : AccessOp) : Access := { access op .sent false with parts := [⟨.remote 5 0, 0, 0, 64, none⟩] }

theorem meets_RemoteAnswersComplete :
    let load := sent (.load 7 64 true)
    let atomic := sent (.atomic .add true 1 0 (some 7) false)
    let here := access (.arrive 0 15 5 1 none) .issued false
    let c := fun (x : Access) => (accessing x).coreAt 0
    (c load).findAccess 1 = some load ∧ load.phase = .sent ∧ load.remoteGroup.isSome = true ∧ (c atomic).findAccess 1 = some atomic ∧
    atomic.phase = .sent ∧ (c here).findAccess 1 = some here ∧ here.mayPerform ((c here).accessesBefore here.cluster 1) = true := by decide +kernel

/-- A flit that has come to core 0, with the second part of a row of 128 bytes. -/
def aFlit : Flit := ⟨⟨0, 1, 1⟩, .delivered, some 0, ⟨0, 1, 1⟩, 0, none, some 0, 1, 1, 3, false, 7⟩

theorem meets_RemoteAnswersComplete_flit :
    let x := { access (.queueRow 0 0) .issued false with parts := List.replicate 128 ⟨.pad 3, 0, 0, 8, none⟩ }
    let slot : Slot32 := ⟨1, 1, 1, .empty⟩
    let s := { accessing x with flits := [aFlit] }
    let s := s.setCur { s.cur with slots := .put .empty 31 slot }
    let c := s.coreAt 0
    (c.slots.cells.find? fun e => e.2.msg = aFlit.msg) = some (31, slot) ∧ c.findAccess aFlit.msg = some x ∧
    s.deliveredFlit 0 aFlit.msg (1 : BitVec 3).toNat = some aFlit ∧ slot.mask ||| (1 <<< aFlit.index) ≠ 0xFF := by decide +kernel

theorem meets_RemoteAnswersComplete_sage :
    let w := (encodeSage (.gntfy 1 2)).getD 0
    let s := (sage 0 0x3F0F 9).setCurSage { (sage 0 0x3F0F 9).curSage with imem := Memory.write .empty 0 4 w.toNat }
    s.notifying 0 63 15 9 = some (1, 2) := by decide +kernel

/-- A packet in flight of context 5 of Sage core 0. -/
def outPacket (notReady : Option Nat) : OutPacket :=
  ⟨0, 5, packet 0 [], 64, 64, 5, true, 0, 0, 0, 16, 0, notReady, false, true⟩

/-- The device with it, in cycle `now`. -/
def flying (o : OutPacket) (now : Nat) : State :=
  { (State.reset.setPdc 5 { Pdc.start with isOpen := true, node := 5, unacked := [o], inflight := 64 }) with dcc := now }

theorem meets_TransportEventsComplete :
    let o := outPacket none
    let r := outPacket (some 0)
    (flying o 16000).outPacket 5 0 = some o ∧ o.due = false ∧ o.counted = true ∧ o.isCommand = true ∧
    (flying { o with isCommand := false } 0).outPacket 5 0 = some { o with isCommand := false } ∧ o.notReady = none ∧ o.sentAt + 1000 * o.timeout ≤ (flying o 16000).dcc ∧
    o.firstSent + 4000000 ≤ (flying o 4000000).dcc ∧ (flying r 50000).outPacket 5 0 = some r ∧ r.notReady = some 0 ∧
    0 + 10000000 ≤ (flying r 10000000).dcc ∧ (flying r 50000).dcc < 0 + 10000000 ∧ r.sentAt + 50000 ≤ (flying r 50000).dcc ∧
    (State.reset.port 0).down = false := by decide +kernel

/-- A debug packet, one buffer of its Sage core being free. -/
theorem meets_TransportEventsComplete_debug :
    let p := packet 9 [1]
    let s := State.reset.setSageAt 7 { Sage.start with dbgAlloc := ⟨(List.range 15).map fun k => (k, true)⟩, evOcc := 999 }
    let s := { s with jobs := .put .empty 9 0 }
    let x := s.sageAt (sageOfPort p.port)
    (s.port p.port).down = false ∧ p.opc = 9 ∧ s.answered p = none ∧ s.jobs.find p.job.toNat ≠ none ∧ State.reset.jobs.find p.job.toNat = none ∧
    x.freeBuffers[Config.pick (8 * s.steps + 6) % x.freeBuffers.length]? = some 15 ∧ x.evOcc + 25 ≤ 1024 := by
  intro p r s x
  have h : x.freeBuffers = [15] := by decide +kernel
  refine ⟨by decide +kernel, by decide, by decide +kernel, by decide +kernel, by decide, by simp [h, Nat.mod_one], by decide +kernel⟩

/-- A list shorter than 48 leaves out some port. -/
theorem port_outside (l : List Nat) (h : l.length < 48) : ∃ p < 48, p ∉ l := by
  by_contra c
  simp only [not_exists, not_and, not_not] at c
  have := ((List.nodup_range (n := 48)).subperm (fun p m => c p (List.mem_range.mp m))).length_le
  simp only [List.length_range] at this
  omega

/-- There are so many external ports. -/
theorem external_length (n : Nat) (l : List Nat) : (externalPorts n l).length = n := by
  induction n generalizing l with
  | zero => rfl
  | succ n ih => simp [externalPorts, ih]

/-- So there are two fabric ports, whichever ports boot configuration makes external. -/
theorem fabric_ports : ∃ p q, isFabricPort p = true ∧ isFabricPort q = true ∧ p ≠ q := by
  obtain ⟨p, hp, np⟩ := port_outside (externalPorts 13 (List.range 48)) (by rw [external_length]; decide)
  obtain ⟨q, hq, nq⟩ := port_outside (p :: externalPorts 13 (List.range 48)) (by rw [List.length_cons, external_length]; decide)
  simp only [List.mem_cons, not_or] at nq
  exact ⟨p, q, by simp [isFabricPort, hp, np], by simp [isFabricPort, hq, nq.2], Ne.symm nq.1⟩

/-- A packet of this age in transit to node 5. -/
def transit (age : BitVec 5) : Transit := ⟨5, age, 0x7FF, packet 0 []⟩

/-- The device whose Sage core of port `p` reaches node 5 by that port, where a packet of age 16 or more has left in this slot if the flag is set. -/
def transitState (p : Nat) (taken : Bool) : State :=
  let s := State.reset.setSageAt (sageOfPort p) { Sage.start with routes := ⟨[(5, BitVec.ofNat 256 (2 ^ 17 + p))]⟩ }
  s.setPort p { Port.start with slot := if taken then some (slotNumber 0, true) else none }

theorem meets_PortEventsComplete (p q : Nat) (hp : isFabricPort p = true) (hq : isFabricPort q = true) (h : p ≠ q) :
    (transit 15).dest ≠ (transitState p true).node ∧ ((transitState p true).port p).down = false ∧ (transit 15).age.toNat < 16 ∧
    16 ≤ (transit 16).age.toNat ∧ ((transitState p true).sageAt (sageOfPort p)).minimalPort 5 = some p ∧
    (transitState p false).slotFree p = true ∧ (transitState p true).slotFree p = false ∧ (transitState p true).slotOld p = true ∧
    ((transitState p true).port p).escape = [] ∧ ((transitState p true).port p).failed = 0 ∧ erases p = true ∧ p < 48 ∧
    (let free := (List.range 48).filter (transitState p true).slotFree
     ∃ k, free[Config.pick (8 * (transitState p true).steps + 7) % free.length]? = some k) := by
  have lt : ∀ k, isFabricPort k = true → k < 48 := fun k f => by simp [isFabricPort] at f; exact f.1
  have facts : ∀ k < 48, ∀ b, ((transitState k b).port k).down = false ∧ ((transitState k b).sageAt (sageOfPort k)).minimalPort 5 = some k ∧
      ((transitState k b).port k).slot = (if b then some (slotNumber 0, true) else none) ∧ ((transitState k b).port k).escape = [] ∧
      ((transitState k b).port k).failed = 0 := by decide +kernel
  have other : ∀ j < 48, ∀ k < 48, j ≠ k → (transitState j true).port k = Port.start := by decide +kernel
  obtain ⟨d, m, sl, e, f⟩ := facts p (lt p hp) true
  obtain ⟨d', -, sl', -⟩ := facts p (lt p hp) false
  have free : ∃ k ∈ List.range 48, (transitState p true).slotFree k = true :=
    ⟨q, List.mem_range.mpr (lt q hq), by simp [State.slotFree, hq, other p (lt p hp) q (lt q hq) h, Port.start]⟩
  have z : ∀ b, (transitState p b).dcc = 0 := fun _ => rfl
  refine ⟨show (5 : BitVec 11) ≠ 0x7FF by decide, d, by decide, by decide, m, ?_, ?_, ?_, e, f, by simp [erases, hp], lt p hp, ?_⟩
  · simp [State.slotFree, hp, d', sl']
  · simp [State.slotFree, d, sl, z]
  · simp [State.slotOld, sl, z]
  · obtain ⟨k, m, f⟩ := free
    have n : 0 < ((List.range 48).filter (transitState p true).slotFree).length := List.length_pos_of_mem (List.mem_filter.mpr ⟨m, f⟩)
    exact ⟨_, List.getElem?_eq_getElem (Nat.mod_lt _ n)⟩

theorem meets_PortEventsComplete_retrain :
    ((State.reset.setPort 47 { Port.start with down := true, retraining := true }).port 47).retraining = true := by decide +kernel

theorem meets_StopEventsComplete :
    let fault := aStop .fault false false
    let done := aStop .fault false true
    let s := taskCore .C fun c => { c with stop := some fault }
    let s := s.setSlice 0 { s.slice 0 with frb := 0x8000000000050000 }
    let s := s.homeWrite 0x5000C 1 1
    let r := (taskCore .C fun c => { c with stop := some done }).coreAt 0
    (s.coreAt 0).stop = some fault ∧ fault.recorded = false ∧ fault.kind = .fault ∧ s.stopRing 0 fault = some 0x50000 ∧ s.ringFull 0x50000 = false ∧
    r.mayResume = true ∧ r.stop = some done ∧ done.kind = .fault ∧ done.recorded = true ∧ r.save = none := by decide +kernel

/-- A forced save, drained or not. -/
def aSave (drained : Bool) : Save := ⟨true, false, 0, 0, 0, 0, [], drained, 0, 0⟩

theorem meets_StopEventsComplete_requests :
    let s := taskCore .C fun c => { c with ctx := { c.ctx with fsdl := 5 } }
    let c := s.coreAt 0
    let f := aStop .fault false true
    let u := taskCore .C fun c => { c with stop := some f }
    let p : Preempt := ⟨10, 0⟩
    let w := taskCore .C fun c => { c with preempt := some p }
    c.busy = true ∧ s.together 0 = [0] ∧ c.save = none ∧ c.finishing = false ∧ c.trapOwed = false ∧ c.stop = none ∧ c.preempt = none ∧ (65535 : BitVec 16) ≠ 0 ∧
    0 < s.saveDeadline 0 ∧
    (u.coreAt 0).stop = some f ∧ (u.coreAt 0).started = true ∧ u.together 0 = [0] ∧ (u.coreAt 0).finishing = false ∧ (u.coreAt 0).save = none ∧ (u.coreAt 0).trapOwed = false ∧
    (w.coreAt 0).preempt = some p ∧ (w.coreAt 0).mayForce = true ∧ p.deadline ≤ w.dcc := by decide +kernel

theorem meets_StopEventsComplete_save :
    let s := fun d => taskCore .C fun c => { c with save := some (aSave d) }
    ((s false).coreAt 0).save = some (aSave false) ∧ (aSave false).drained = false ∧ ((s false).coreAt 0).quiet = true ∧
    ((s true).coreAt 0).save = some (aSave true) ∧ (aSave true).drained = true ∧
    (aSave true).drainStart + ((s true).coreAt 0).ctx.dl * 1000 ≤ (s true).dcc ∧ ((s true).coreAt 0).stop = none ∧
    ((s true).together 0).all (s true).drainedAt = true ∧ (0x60000 : BitVec 43).toNat % 64 = 0 := by decide +kernel

theorem meets_DeviceEventsComplete :
    let late := State.reset.setSageAt 7 { Sage.start with running := true, evOcc := 1 }
    let stopped := State.reset.setSageAt 7 { Sage.start with stopped := true }
    let x := (({ late with dcc := 10000000 } : State).sageAt 7)
    let errors := fun (n : Byte) => (⟨n, .task, 0x40000⟩ : StorageError)
    State.reset.bridgeFailed = false ∧ x.failed = false ∧
    x.running = true ∧ 0 < x.evOcc ∧ x.lastPop + 10000000 ≤ ({ late with dcc := 10000000 } : State).dcc ∧ (stopped.sageAt 7).stopped = true ∧
    (stopped.sageAt 7).failed = false ∧ 63 < 64 ∧ 1000 ≤ 1000 ∧ (-10 : Int) ≤ -10 ∧ (10 : Int) ≤ 10 ∧ (-11 : Int) < -10 ∧ (10 : Int) < 11 ∧
    SyncMsg.sync ≠ .followUp ∧ SyncMsg.sync ≠ .delayResp ∧
    ([1, 3, 6, 8, 9, 10].all fun n => decide (1 ≤ (errors n).unit.toNat) && decide ((errors n).unit.toNat ≤ 10)) = true := by decide +kernel

/-- An era change that is due, of a device with one race ring and no frame lock. -/
theorem meets_DeviceEventsComplete_era :
    let s : State := { State.reset with
      clocks := .put .empty 511 0xFFFF00, partitions := .put .empty 0 (BitVec.ofNat 512 (0x70000 * 2 ^ 128)) }
    s.eraDue = true ∧ (∀ b, s.lockOn b = none) ∧ s.partitions.values.map ringOf = [0x70000] := by
  refine ⟨by decide +kernel, fun b => rfl, by decide +kernel⟩

/-- A service call that waits in its mailbox, of a core that is being saved and of one that is not. -/
theorem meets_DeviceEventsComplete_svc :
    let w : SvcWait := { call none with callId := 0 }
    let i := Instr.svc 7 3 4 false false 5
    [(some (aSave false), none), (none, some i)].all (fun e =>
      let s := taskWord .C ((encodeCore false i).getD 0)
      let s := s.setCl { s.cl with stage := 3 }
      let s := s.setCur { s.cur with svc := some w, save := e.1 }
      let s := s.setSlice 0 { s.slice 0 with mailbox := [(0, w)] }
      let r := s.answerCall 0 0 w 9
      let u := r.1.setSlice 0 { r.1.slice 0 with mailbox := (r.1.slice 0).mailbox.erase (0, w) }
      let c := u.coreAt 0
      decide (s.callOf 0 = some (0, w)) && r.2.isSome && (r.1.slice 0).mailbox.contains (0, w) &&
        !((r.1.slice 0).mailbox.erase (0, w)).contains (0, w) && decide (c.svc = some w) && decide ((c.cl .C).stage = 3) &&
        decide ((u.setCoreAt 0 { c with svc := some { w with answer := r.2 } }).waitingWord 0 .C = e.2)) = true := by decide +kernel

/-- Context 0 has one resident host-visible object, record 1, its one unit at frame 4. -/
def hostState : State :=
  let s := jobState
  let s := { s with mem := s.mem.write 0x10040 64 (recordBits 0x2000 0 64 8 0 0 0 0 1 0 + 2 ^ 477) }
  { s with mem := s.mem.write 0x80000 8 (4 * 2 ^ 10 + 2 ^ 5) }

/-- A call with an identifier of its own, first made, whose answer its journal entry is to hold. -/
theorem meets_DeviceEventsComplete_journal :
    let w := call none
    let s := State.reset.setSlice 0 { State.reset.slice 0 with mailbox := [(0, w)] }
    s.callOf 0 = some (0, w) ∧ (s.answerCall 0 0 w 9).2 = none := by decide +kernel

theorem meets_MemorySystemEventsComplete :
    let s := hostState
    let a := (0x4FFFC : BitVec 43).toNat
    a < 2 ^ 39 ∧ s.inRecovery = false ∧ (s.slice (homeOf (a / 65536 * 65536))).flipping = none ∧ a / 64 = (a + 4 - 1) / 64 ∧
    s.hostVisible (a / 65536) = true ∧ s.hostVisible 5 = false ∧ homeOf (4 * 65536) = 1 ∧ (s.slice 1).hbias.getLsbD 0 = false ∧
    (s.slice 1).tinv.getLsbD 0 = false ∧ (s.slice 1).locks = [] := by decide +kernel

theorem meets_MemorySystemEventsComplete_end :
    let l : FrameLock := ⟨4, 9, 2, false, [(0x40000, ⟨7, 0xFF⟩)], []⟩
    let x := { Slice.start with flipping := some (4, true), tinv := 1, locks := [l] }
    let s := (task .C).setSlice 15 x
    (s.slice 15).flipping = some ((4 : BitVec 27).toNat, true) ∧ (s.slice 15).tinv.getLsbD 0 = true ∧
    (s.cores.values.all fun c => !s.through (s.named x.tinv) c) = true ∧
    ((s.slice 15).locks.find? fun k => k.old = (4 : BitVec 27).toNat && !k.released) = some l := by decide +kernel

/-- A message of Huazu to this node. -/
def huazu (op : BitVec 4) (orig : BitVec 11) : Huazu := ⟨op, 1, orig, 0x7FF, 0, 1, 0, 0x50000, 960, List.replicate 960 0⟩

theorem meets_DebugEventsComplete :
    let s := State.reset
    let st := aStop .fault true true
    let d := taskCore .C fun c => { c with stop := some st, dctl := c.dctl ||| 2, ctx := { c.ctx with dbg := true } }
    let h := taskCore .C fun c => { c with halting := true, ctx := { c.ctx with dbg := true } }
    let h := h.setCl { h.cl with haltDue := true }
    s.devcmd.getLsbD 0 = false ∧ s.booted.get false 1 = false ∧ (d.coreAt 0).suspended = true ∧ (d.coreAt 0).dxw = 0 ∧
    (h.coreAt 0).mayHalt = true ∧ (h.coreAt 0).halted = false ∧ (d.coreAt 0).halted = true ∧ (h.coreAt 0).halting = true ∧ ((h.coreAt 0).cl .C).haltDue = true ∧
    (h.coreAt 0).haltAsked + 65536 ≤ ({ h with dcc := 65536 } : State).dcc ∧ (d.coreAt 0).dctl.getLsbD 1 = true ∧
    (d.coreAt 0).sampledAt + 2 ^ (8 + ((d.coreAt 0).dctl.extractLsb' 4 4).toNat) ≤ ({ d with dcc := 256 } : State).dcc ∧
    (h.coreAt 0).suspended = false ∧ (d.coreAt 0).stop = some st ∧ st.debug = true ∧ (d.coreAt 0).mayResume = true := by decide +kernel

theorem meets_DebugEventsComplete_huazu :
    let s := State.reset
    let h := huazu 3 5
    h.node = s.node ∧ h.orig ≠ s.node ∧ (huazu 8 0x7FF).orig = s.node ∧ h.space ≠ 0 ∧ h.len.toNat ≤ 960 ∧ h.len.toNat ≤ h.data.length ∧ s.huazuRange h h.len.toNat = some 0x50000 ∧
    ((task .C).coreAt 0).suspended = false ∧ ((taskCore .C fun c => { c with ctx := { c.ctx with dbg := true } }).coreAt 0).mayHalt = true ∧
    (let w := { s with huazu := [(h, 0)], dcc := 2000000 }
     (w.huazu.any fun e => e.1.seq = h.seq) = true ∧
       (w.huazu.find? fun e => e.1.seq = 1 && decide (e.2 + 2000000 ≤ w.dcc)) = some (h, 0)) := by decide +kernel

/-- A summary asked for by Huazu, its buffer having room for it. -/
theorem meets_DebugEventsComplete_devsum :
    let s := { State.reset.homeWrite 0x60000 8 0x100000000 with devcmd := 0x60000 }
    s.devcmd.getLsbD 0 = false ∧ (s.writeDevcmd ((s.devcmd &&& 0x000007FFFFFFFFC0) ||| 2)).devcmd.getLsbD 0 = true := by decide +kernel

theorem meets_FailedWordChecksTrap :
    0 < opOf (.vadd 0 1 2 false 0) ∧ opAllowed (opOf (.vadd 0 1 2 false 0)) (task .C).cluster = false ∧
    opAllowed (opOf (.cmp 1 2 3 false false true 10)) .M = true ∧ (fieldCheck (.cmp 1 2 3 false false true 10)).isSome = true := by decide +kernel

/-- What a result is when it is a next state. -/
def nextAnd (p : State → Bool) : Host.Outcome State Fault Refusal → Bool
  | .next t => p t
  | _ => false

theorem meets_StepRunsTheDecodedInstruction :
    let s := (taskWord .A ((encodeCore false (.add 4 3 3 false false false)).getD 0))
    let s := { s with mover := .word 0 .A }
    let c := s.coreAt 0
    let g := { sage 0 1 2 with mover := .sage 0 }
    let held := s.setCoreAt 0 { c with accesses := [{ access (.load 7 64 true) .issued true with mode := 1, before := some ⟨1, s.cl, none, none⟩ }], nextId := 2 }
    s.mover = .word 0 .A ∧ c.executes .A = false ∧ c.issues .A = true ∧ (c.cl .A).lock = false ∧ passes (s.fetch 0 .A (c.cl .A).pc) = true ∧
    c.owedLate s.dcc = false ∧ (task .M).cur.stampHeld = false ∧
    s.behindFault 0 .A (okOr (0, 0) (s.fetch 0 .A (c.cl .A).pc)).2 = false ∧
    passes (held.fetch 0 .A (c.cl .A).pc) = true ∧ held.behindFault 0 .A (okOr (0, 0) (held.fetch 0 .A (c.cl .A).pc)).2 = true ∧
    (okOr (0, 0) (s.fetch 0 .A (c.cl .A).pc)).2.getLsbD 31 = false ∧ passes (decode (okOr (0, 0) (s.fetch 0 .A (c.cl .A).pc)).2) = true ∧
    g.mover = .sage 0 ∧ (g.sageAt 0).running = true ∧ (0 : Int) ≤ (g.sageAt 0).pc ∧ (g.sageAt 0).pc < 65536 ∧
    (let w := (encodeSage (.gadd 1 2 3)).getD 0
     decodeSage (BitVec.ofNat 32 ((Memory.write .empty 0 4 w.toNat).read 0 4)) = .ok (.gadd 1 2 3)) ∧
    State.reset.mover = .event (.boot 0) := by decide +kernel

/-- A word with the S bit, let go by its lockstep group. -/
theorem meets_StepRunsTheDecodedInstruction_sync :
    let s := (taskWord .A ((encodeCore true (.add 4 3 3 false false false)).getD 0))
    let s := { s.setCl { s.cl with satisfied := true } with mover := .word 0 .A }
    let c := s.coreAt 0
    let u := s.setCoreAt 0 (c.setCl .A { c.cl .A with syncWait := false })
    let x := okOr (0, 0) (u.fetch 0 .A ((u.coreAt 0).cl .A).pc)
    s.mover = .word 0 .A ∧ c.executes .A = false ∧ c.issues .A = true ∧ c.owedLate s.dcc = false ∧ s.syncNext 0 .A = true ∧
    (c.cl .A).satisfied = true ∧ passes (u.fetch 0 .A ((u.coreAt 0).cl .A).pc) = true ∧ u.behindFault 0 .A x.2 = false ∧ (u.coreAt 0).executes .A = false ∧
    x.1 ≠ farWord ∧
    (match decode x.2 with
     | .ok d => nextAnd (fun t => t.didIssue 0 .A || t.didStop 0) (exec d.instr ((u.focus 0 .A).cached 0 .A (some x.1) x.2))
     | .error _ => false) = true := by decide +kernel

theorem meets_ScalarChangesSeen :
    let s := task .A
    (3 : BitVec 5) ≠ 0 ∧ ((s.cur.reg 3).hist.all fun e => decide (e.cycle < s.dcc)) = true ∧ s.aluDest 3 = .ok () ∧ s.cur.halting = false ∧
    s.cl.since = none ∧ nextAnd (fun _ => true) (exec (.li 3 131071) s) = true ∧ Cluster.V ≠ s.cluster := by decide +kernel

/-- An active loop of START 0 and END `last`, with so many trips to come. -/
def aLoop (last count : Nat) (inner : Bool) : Loop :=
  ⟨BitVec.ofNat 64 (last * 2 ^ 32), BitVec.ofNat 64 (count * 2 ^ 32 + 9), mkLpx 5 true inner 3⟩

/-- Core 0 in cluster V at the word at offset 8, with two loops. -/
def looping (l m : Loop) : State := taskCl .V fun x => { x with pc := 8, loop0 := l, loop1 := m }

/-- A last trip and another, a loop alone at its END, two loops with one END, and none. -/
theorem meets_LoopEndAction :
    ([looping (aLoop 8 2 false) .start, looping (aLoop 8 1 false) .start, looping (aLoop 8 2 true) (aLoop 8 1 false),
      looping (aLoop 8 1 true) (aLoop 8 1 false), looping (aLoop 4 2 false) .start].all fun s =>
        !s.cur.halting && s.cl.since.isNone && nextAnd (fun _ => true) (exec .nop s)) = true ∧
    (let s := looping (aLoop 8 2 false) .start
     s.cl.atEnd false = true ∧ s.cl.atEnd (!false) = false) ∧
    (let s := looping (aLoop 8 2 true) (aLoop 8 1 false)
     s.cl.atEnd false = true ∧ s.cl.atEnd true = true ∧ (s.cl.loop false).inner = true ∧ (s.cl.loop true).inner = false ∧
       (s.cl.loop false).count ≠ 1) ∧
    ((looping (aLoop 8 1 true) (aLoop 8 1 false)).cl.loop false).count = 1 ∧
    (let s := looping (aLoop 4 2 false) .start
     s.cl.atEnd false = false ∧ s.cl.atEnd true = false) ∧
    (∀ w ∈ [Instr.b 1 true 2, .bz 3 2, .bnz 3 2, .jmp 3 false, .ret 3 false, .call 3 2, .callr 3 4 false, .loop 1 false 3 2, .loopi 1 false 3 2, .rdv],
      checkWord .V w = none) ∧
    checkWord .C (.fork 0 0) = none ∧ checkWord .C .done = none ∧ (taskCl .C fun x => { x with pc := 8, loop0 := aLoop 8 2 false }).cl.atEnd false = true := by
  decide +kernel

theorem meets_StopEntry :
    let s := taskCore .A fun c => { c with ctx := { c.ctx with dbg := true } }
    s.undisturbed = true ∧ nextAnd (fun _ => true) (exec (.trap 14 0x7FFFFF) s) = true ∧ s.cur.committing = none ∧ s.cur.trapOwed = false ∧
    (s.setCur { s.cur with dctl := 0 }).cur.dctl = 0 ∧ s.cur.ctx.dbg = true ∧ s.cur.dxw.getLsbD 34 = false ∧
    nextAnd (fun _ => true) (exec (.brk 0xFFFF) s) = true ∧ s.cur.gang = none ∧ s.cur.finishing = false ∧
    s.scratchErrors.get false s.core = false ∧ s.cur.accesses.all (fun x => !x.op.isAtomic) = true ∧
    (s.cur.reg 3).pending = none ∧ (((s.setCur (s.cur.produce 10 .A 7 true (some 9))).cur.reg 7).pending = some ⟨.A, true, some 9⟩) ∧
    ([1, 3, 8].all fun n => nextAnd (fun _ => true) (exec (.uncorrectableError s.core ⟨n, .task, 0⟩) s)) = true := by decide +kernel

theorem meets_RegisterWordsFrame :
    [Instr.add 4 3 3 false false false, .nop, .cmpiEq 1 3 0, .bz 3 2, .jmp 5 false, .call 4 2, .csrr 4 0, .li 0 9].all (fun i =>
      (registerDest i).isSome && (task .A).undisturbed && nextAnd (fun t => t.cur.stop.isNone) (exec i (task .A))) = true ∧
    (task .A).atLoopEnd = false := by decide +kernel

theorem meets_AccessWordsFrame :
    let s := withScratch (task .A) 1 (recordBits 0x40 0 64 0 0 0 0 0 0 0)
    let t := s.setCur { s.cur with storeq := .put .empty 0 (List.replicate 8 (0 : Row)), cmdn := 134 }
    [(s, Instr.ldo 3 4 5 0), (s, .sto 3 5 0), (s, .mark), (s, .fence 0x1F 1), (s, .aadd 4 6 3 false false 1 0 true), (t, .qwr 0 0 8 3 false false 1 7),
      (s, .qrd 0 7 8 3 false false 1 7), (s, .hinfo 7 13 0 false false 2), (t, .waitc 7 3 false), (t, .waitct 7 3 4 false false),
      (describing 0, .copy 7 17 0 true)].all (fun e =>
      (accessDest e.2).isSome && e.1.undisturbed && !e.1.cur.dctl.getLsbD 3 && decide (e.1.cl.stage ≠ 1) &&
        (!isEngineWord e.2 || decide (e.1.raceMode = 0)) && nextAnd (fun t => t.cur.stop.isNone) (exec e.2 e.1)) = true := by decide +kernel

theorem meets_AccessWordsFrame_pub :
    let s := withTable (taskCl .A fun x => { x with stage := 2 }) 1 (recordBits 0x800 0xC00 64 8 0 0 0 1 0 0xFFF)
    s.undisturbed = true ∧ s.cl.stage ≠ 1 ∧ s.src 10 false = .ok 0x00001FFF00000000 ∧
    nextAnd (fun t => t.cur.stop.isNone) (exec (.pub 7 10 false) s) = true ∧ (∀ b, s.lockOn b = none) := by
  refine ⟨by decide +kernel, by decide +kernel, by decide +kernel, by decide +kernel, fun b => rfl⟩

theorem meets_ArrayWordsFrame :
    let s := taskCore .V fun c => { c with shp := 0x100 }
    [Instr.vand 0 1 2 0, .vget 4 1 0 false 0, .vput 3 1 0 false 0].all (fun i =>
      (arrayDest i).isSome && s.undisturbed && !s.cur.dctl.getLsbD 3 && nextAnd (fun t => t.cur.stop.isNone) (exec i s)) = true ∧
    [Instr.mprog false 4, .mseta false 3 4 0 false false false, .mwait false true].all (fun i =>
      (arrayDest i).isSome && (task .M).undisturbed && !(task .M).cur.dctl.getLsbD 3 && nextAnd (fun t => t.cur.stop.isNone) (exec i (task .M))) = true := by decide +kernel

theorem meets_SageWordsFrame :
    [Instr.gadd 4 1 2, .gli 4 3 9, .gld 4 3 false 0 0, .gbeq 1 2 1, .gjmp 4 0 1].all (fun i =>
      (sageRegisterDest i).isSome && nextAnd (fun _ => true) (exec i (sage 0 8 9))) = true := by decide +kernel

/-- An access of one home line with nothing before it, in no version and in one. -/
theorem meets_AccessesPerformed :
    let plain := access (.store 5) .issued false
    let kept := { plain with versioned := true }
    let load := access (.load 7 64 true) .issued false
    let s := fun (x : Access) => (accessing x).setCur { (accessing x).cur with
      vresLines := 1, scal := (accessing x).cur.scal.put 7 ⟨[⟨0, .A, 0, false⟩], some ⟨.A, false, none⟩⟩ }
    ([plain, kept, load].all fun x =>
      let c := (s x).coreAt 0
      decide (c.findAccess 1 = some x) && c.accesses.all (fun y => decide (y = x)) && decide (x.phase = .issued) && !x.checked && !x.acq &&
        x.mayPerform (c.accessesBefore x.cluster 1) && decide (x.parts = [⟨.device 0x40000, 0, 0, 8 * 8, none⟩]) &&
        !(s x).homeHoldsFor (some (0, x.id)) (0, 0x40000 / 64) x.op.isStore && !(s x).cutOff 0 (64 * (0x40000 / 64))) = true ∧
    (0x40000 / 64 = (0x40000 + 8 - 1) / 64 ∧ plain.versioned = false ∧ kept.versioned = true ∧ ((s kept).coreAt 0).vresLines ≠ 0 ∧
      ((s kept).coreAt 0).overflows (0, 0x40000 / 64) = false ∧ (((s load).coreAt 0).reg 7).pending = some ⟨.A, false, none⟩) ∧
    (∀ b, (s plain).lockOn b = none) := by
  refine ⟨by decide +kernel, by decide +kernel, fun b => rfl⟩

theorem meets_ScalarZero : (task .M).src 3 true = .ok 5 ∧ (task .M).src 0 true = .ok 0 := by decide +kernel

theorem meets_DecodeUndoesEncode :
    wordOk (.add 31 31 31 true true true) = true ∧ 0 < opOf (.add 31 31 31 true true true) ∧
    (encodeCore true (.add 31 31 31 true true true)).isSome = true ∧ (encodeSage (.gwgt 15 15 7)).isSome = true ∧
    WellFormed (.gwgt 15 15 7) = true := by decide +kernel

theorem meets_MemoryStaysCanonical : State.reset.mem.wf = true ∧ (task .C).mem.wf = true := by decide +kernel

/-- The view of a suspended core may be read and written from its start. -/
theorem view_start (s : State) (n : Nat) (h : (s.coreAt n).suspended = true) : (s.readView n 0 0).isSome = true ∧ (s.writeView n 0 []).isSome = true := by
  simp [State.readView, State.writeView, h]

theorem meets_DebugEventsComplete_view :
    let s := taskCore .C fun c => { c with stop := some (aStop .fault true true) }
    (s.readView 0 0 0).isSome = true ∧ (s.writeView 0 0 []).isSome = true := view_start _ _ (by decide +kernel)

/-- A buffer of 2^32 bytes at 0x60000 for the summary. -/
theorem meets_DebugEventsComplete_summary :
    let s := State.reset.homeWrite 0x60000 8 0x100000000
    s.devcmd.getLsbD 0 = false ∧ s.offered 0x60000 s.summary.length = true ∧ s.summary.length ≤ s.homeRead 0x60000 8 := by decide +kernel

/-! Ill-formed terms, one for each check (R361, R15, R68). -/

theorem test_ill_formed_words :
    [Instr.illegal 0, .trap 15 0, .ldoS 3 1 2 0, .vcvt 9 0 1 false false 0 0, .pset 1 2 3 6, .cmp 1 2 3 false false false 10, .fence 0 0, .fence 1 6,
      .ld 3 1 2 3 false false 0 true, .ldAcq 0 1 2 3 false false 7 false, .st 0 1 2 3 false false 6, .stRel 0 1 2 3 false false 7,
      .aadd 1 2 3 false false 0 0 false, .acas 1 2 3 false false 6 0 true, .qrd 0 0 1 2 false false 6 0, .qwr 0 0 1 2 false false 7 0,
      .hinfo 1 2 3 false false 0, .hinfo 1 2 0 false false 0x12, .copy 1 2 3 false, .brarv 1 2 false false 6, .vadd 16 1 2 false 0,
      .vadd 0 30 2 false 0, .vfma 24 1 2 false 0, .vabs 0 31 false 0, .vcvtN 16 1 false false 0 0, .vget 1 29 2 false 0, .vput 1 16 2 false 0,
      .mseta false 1 2 3 false false false, .mseta false 1 2 0 true false false, .msetc false 1 false false 8, .mzero true 7, .mwait true true,
      .spawn 1 2 3 false false 0, .join 1 2 3 false false 6, .bset 6 1 2].map WellFormed = List.replicate 35 false := by decide +kernel

theorem test_ill_formed_units :
    [Instr.notifyWrite 8388608 0, .mapQueue 128 0, .unmapQueue 128, .unmapComplete 128, .launchAccept 128, .taskPop 2, .gangReservation 2,
      .ageingInterval 128, .firstFetch 64, .throttleUpdate 16 false false, .synctoExpiry 64, .femodeLimitExpiry 64 .A, .producerResultWritten 64 1,
      .vectorRowStep 64, .mmulArrayIssue 64 .X, .mmulRowEntry 64 .Y, .drainRow 64 .X, .accessAtHome 64 0, .laneFailure 48 0, .portDown 48 0,
      .portRetrainComplete 48 true, .sageWatchdog 8, .fenceCore 64, .uncorrectableError 64 ⟨1, .task, 0⟩, .boot 2, .flipToHostBias 16 1, .flipToDeviceBias 16 1,
      .readBias 16 1].map WellFormed = List.replicate 28 false := by decide +kernel

theorem test_well_formed :
    [Instr.add 1 2 3 false false false, .notifyWrite 8388607 0, .taskPop 1, .firstFetch 63, .sageWatchdog 7, .readBias 15 1].map WellFormed =
      List.replicate 6 true := by decide +kernel

/-! Every word's decoding: for each row of the opcode table a word composed from its fixed bits and fields (R353 to R359, R365, R366). -/

theorem test_decode_core_01 :
    decode 0x0029735B = .ok ⟨false, .illegal 0x29735b⟩ ∧ decode 0x80800000 = .ok ⟨true, .nop⟩ ∧
    decode 0x810C8500 = .ok ⟨true, .add 3 4 5 false false false⟩ ∧ decode 0x018C8500 = .ok ⟨false, .sub 3 4 5 false false false⟩ ∧
    decode 0x020C85C0 = .ok ⟨false, .mul 3 4 5 true true false⟩ ∧ decode 0x028C8540 = .ok ⟨false, .mulh 3 4 5 false true false⟩ ∧
    decode 0x030C8501 = .ok ⟨false, .mulhu 3 4 5 false false true⟩ ∧ decode 0x838C8500 = .ok ⟨true, .div 3 4 5 false false false⟩ ∧
    decode 0x840C8580 = .ok ⟨true, .divu 3 4 5 true false false⟩ ∧ decode 0x848C8500 = .ok ⟨true, .rem 3 4 5 false false false⟩ ∧
    decode 0x050C8500 = .ok ⟨false, .remu 3 4 5 false false false⟩ ∧ decode 0x858C85C0 = .ok ⟨true, .and 3 4 5 true true⟩ ∧
    decode 0x860C85C0 = .ok ⟨true, .andn 3 4 5 true true⟩ ∧ decode 0x068C8580 = .ok ⟨false, .or 3 4 5 true false⟩ ∧
    decode 0x870C8500 = .ok ⟨true, .xor 3 4 5 false false⟩ ∧ decode 0x878C85C1 = .ok ⟨true, .sll 3 4 5 true true true⟩ ∧
    decode 0x080C8501 = .ok ⟨false, .srl 3 4 5 false false true⟩ ∧ decode 0x888C8581 = .ok ⟨true, .sra 3 4 5 true false true⟩ ∧
    decode 0x890C8501 = .ok ⟨true, .min 3 4 5 false false true⟩ ∧ decode 0x098C85C1 = .ok ⟨false, .max 3 4 5 true true true⟩ := by decide +kernel

theorem test_decode_core_02 :
    decode 0x0A0C8541 = .ok ⟨false, .minu 3 4 5 false true true⟩ ∧ decode 0x8A8C8541 = .ok ⟨true, .maxu 3 4 5 false true true⟩ ∧
    decode 0x8B0C8080 = .ok ⟨true, .mov 3 4 true⟩ ∧ decode 0x0B8C854A = .ok ⟨false, .sel 3 4 5 false true true 2⟩ ∧
    decode 0x0C108513 = .ok ⟨false, .cmp 4 4 5 false false true 3⟩ ∧ decode 0x0C908704 = .ok ⟨false, .pset 4 4 7 4⟩ ∧
    decode 0x8D0C8553 = .ok ⟨true, .addi 3 4 0x553⟩ ∧ decode 0x8D8C8CDB = .ok ⟨true, .muli 3 4 0xcdb⟩ ∧
    decode 0x0E0C9C45 = .ok ⟨false, .andi 3 4 0x1c45⟩ ∧ decode 0x8E8C9A38 = .ok ⟨true, .ori 3 4 0x1a38⟩ ∧
    decode 0x8F0C9BA6 = .ok ⟨true, .xori 3 4 0x1ba6⟩ ∧ decode 0x8F8C802E = .ok ⟨true, .slli 3 4 46⟩ ∧ decode 0x900C8017 = .ok ⟨true, .srli 3 4 23⟩ ∧
    decode 0x108C803E = .ok ⟨false, .srai 3 4 62⟩ ∧ decode 0x110C84D5 = .ok ⟨false, .mini 3 4 0x4d5⟩ ∧
    decode 0x118C85A4 = .ok ⟨false, .maxi 3 4 0x5a4⟩ ∧ decode 0x120C876D = .ok ⟨false, .minui 3 4 0x76d⟩ ∧
    decode 0x928C8063 = .ok ⟨true, .maxui 3 4 99⟩ ∧ decode 0x131C92DB = .ok ⟨false, .cmpiEq 7 4 0x12db⟩ ∧
    decode 0x138C8906 = .ok ⟨false, .cmpiNe 3 4 0x906⟩ := by decide +kernel

theorem test_decode_core_03 :
    decode 0x94088D69 = .ok ⟨true, .cmpiLt 2 4 0xd69⟩ ∧ decode 0x94949220 = .ok ⟨true, .cmpiGe 5 4 0x1220⟩ ∧
    decode 0x15089619 = .ok ⟨false, .cmpiLe 2 4 0x1619⟩ ∧ decode 0x95909CC9 = .ok ⟨true, .cmpiGt 4 4 0x1cc9⟩ ∧
    decode 0x96108CC5 = .ok ⟨true, .cmpiLtu 4 4 0xcc5⟩ ∧ decode 0x96848F69 = .ok ⟨true, .cmpiGeu 1 4 0xf69⟩ ∧
    decode 0x1704861A = .ok ⟨false, .cmpiLeu 1 4 0x61a⟩ ∧ decode 0x17888E1A = .ok ⟨false, .cmpiGtu 2 4 0xe1a⟩ ∧
    decode 0x980C7092 = .ok ⟨true, .li 3 0x7092⟩ ∧ decode 0x188E6726 = .ok ⟨false, .lih 3 0x26726⟩ ∧
    decode 0x191488C6 = .ok ⟨false, .b 1 false 0x488c6⟩ ∧ decode 0x1980912C = .ok ⟨false, .bz 4 0x112c⟩ ∧
    decode 0x9A009E5E = .ok ⟨true, .bnz 4 0x1e5e⟩ ∧ decode 0x1A808000 = .ok ⟨false, .jmp 4 false⟩ ∧
    decode 0x1B0F7F51 = .ok ⟨false, .call 3 0x37f51⟩ ∧ decode 0x1B8C8080 = .ok ⟨false, .callr 3 4 true⟩ ∧
    decode 0x9C008080 = .ok ⟨true, .ret 4 true⟩ ∧ decode 0x1CAC8F2D = .ok ⟨false, .loop 5 true 4 0xf2d⟩ ∧
    decode 0x9D0FF9FB = .ok ⟨true, .loopi 1 true 0x3f9 251⟩ ∧ decode 0x9D8C07B0 = .ok ⟨true, .csrr 3 0x7b0⟩ := by decide +kernel

theorem test_decode_core_04 :
    decode 0x1E0084FE = .ok ⟨false, .csrw 4 0x4fe⟩ ∧ decode 0x1E8C8000 = .ok ⟨false, .waitfRead 3 4⟩ ∧
    decode 0x1E8C8001 = .ok ⟨false, .waitfTake 3 4⟩ ∧ decode 0x9E8C8002 = .ok ⟨true, .waitfPut 3 4⟩ ∧ decode 0x9E808003 = .ok ⟨true, .waitfEmpty 4⟩ ∧
    decode 0x1F000087 = .ok ⟨false, .fence 16 7⟩ ∧ decode 0x1F800000 = .ok ⟨false, .rdv⟩ ∧
    decode 0xA08C85B0 = .ok ⟨true, .ld 1 3 4 5 true false 6 false⟩ ∧ decode 0x238C856C = .ok ⟨false, .ldAcq 3 3 4 5 false true 5 true⟩ ∧
    decode 0x250C8570 = .ok ⟨false, .st 2 3 4 5 false true 6⟩ ∧ decode 0xA78C8538 = .ok ⟨true, .stRel 3 3 4 5 false false 7⟩ ∧
    decode 0x298C99B5 = .ok ⟨false, .ldo 3 3 4 0x19b5⟩ ∧ decode 0xAB0C8666 = .ok ⟨true, .ldoS 2 3 4 0x666⟩ ∧
    decode 0x2B8C8B61 = .ok ⟨false, .stoB 3 4 0xb61⟩ ∧ decode 0x2C0C9FAB = .ok ⟨false, .stoH 3 4 0x1fab⟩ ∧
    decode 0xAC8C9949 = .ok ⟨true, .stoW 3 4 0x1949⟩ ∧ decode 0xAD0C8F1D = .ok ⟨true, .sto 3 4 0xf1d⟩ ∧
    decode 0xAD8C8567 = .ok ⟨true, .aaddW 3 4 5 false true 4 3 true⟩ ∧ decode 0x2E0C850B = .ok ⟨false, .aadd 3 4 5 false false 1 1 true⟩ ∧
    decode 0xAE8C85A6 = .ok ⟨true, .afadd 3 4 5 true false 4 3 false⟩ := by decide +kernel

theorem test_decode_core_05 :
    decode 0xAF0C85BE = .ok ⟨true, .aandW 3 4 5 true false 7 3 false⟩ ∧ decode 0x2F8C8555 = .ok ⟨false, .aand 3 4 5 false true 2 2 true⟩ ∧
    decode 0x300C85E6 = .ok ⟨false, .aorW 3 4 5 true true 4 3 false⟩ ∧ decode 0x308C850B = .ok ⟨false, .aor 3 4 5 false false 1 1 true⟩ ∧
    decode 0x310C85D6 = .ok ⟨false, .axorW 3 4 5 true true 2 3 false⟩ ∧ decode 0xB18C852E = .ok ⟨true, .axor 3 4 5 false false 5 3 false⟩ ∧
    decode 0xB20C850C = .ok ⟨true, .aminW 3 4 5 false false 1 2 false⟩ ∧ decode 0x328C855F = .ok ⟨false, .amin 3 4 5 false true 3 3 true⟩ ∧
    decode 0x330C8567 = .ok ⟨false, .aminuW 3 4 5 false true 4 3 true⟩ ∧ decode 0x338C853C = .ok ⟨false, .aminu 3 4 5 false false 7 2 false⟩ ∧
    decode 0x340C8514 = .ok ⟨false, .amaxW 3 4 5 false false 2 2 false⟩ ∧ decode 0x348C85FA = .ok ⟨false, .amax 3 4 5 true true 7 1 false⟩ ∧
    decode 0x350C854B = .ok ⟨false, .amaxuW 3 4 5 false true 1 1 true⟩ ∧ decode 0xB58C855E = .ok ⟨true, .amaxu 3 4 5 false true 3 3 false⟩ ∧
    decode 0x360C85EB = .ok ⟨false, .axchgW 3 4 5 true true 5 1 true⟩ ∧ decode 0xB68C85A3 = .ok ⟨true, .axchg 3 4 5 true false 4 1 true⟩ ∧
    decode 0x370C85B3 = .ok ⟨false, .acasW 3 4 5 true false 6 1 true⟩ ∧ decode 0xB78C857A = .ok ⟨true, .acas 3 4 5 false true 7 1 false⟩ ∧
    decode 0x388C8556 = .ok ⟨false, .qrd 1 3 4 5 false true 2 6⟩ ∧ decode 0xBB088516 = .ok ⟨true, .qwr 2 2 4 5 false false 2 6⟩ := by decide +kernel

theorem test_decode_core_06 :
    decode 0x3C0C85DB = .ok ⟨false, .hinfo 3 4 5 true true 27⟩ ∧ decode 0xBC8C8080 = .ok ⟨true, .pub 3 4 true⟩ ∧
    decode 0xBD0C8500 = .ok ⟨true, .copy 3 4 5 false⟩ ∧ decode 0xBD0C8501 = .ok ⟨true, .send 3 4 5 false⟩ ∧
    decode 0xBD0C8582 = .ok ⟨true, .mcast 3 4 5 true⟩ ∧ decode 0xBD0C8503 = .ok ⟨true, .redw 3 4 5 false⟩ ∧
    decode 0x3D8085E8 = .ok ⟨false, .brarv 4 5 true true 5⟩ ∧ decode 0x3E000000 = .ok ⟨false, .mark⟩ ∧
    decode 0x3E8C8500 = .ok ⟨false, .waita 3 4 5 false false⟩ ∧ decode 0xBF0C8080 = .ok ⟨true, .waitc 3 4 true⟩ ∧
    decode 0xBF8C8500 = .ok ⟨true, .waitct 3 4 5 false false⟩ ∧ decode 0xC00C851B = .ok ⟨true, .vadd 3 4 5 false 27⟩ ∧
    decode 0x408C852D = .ok ⟨false, .vsub 3 4 5 true 13⟩ ∧ decode 0xC10C8537 = .ok ⟨true, .vmul 3 4 5 true 23⟩ ∧
    decode 0x418C8509 = .ok ⟨false, .vfma 3 4 5 false 9⟩ ∧ decode 0x420C850E = .ok ⟨false, .vfms 3 4 5 false 14⟩ ∧
    decode 0x428C853F = .ok ⟨false, .vfnma 3 4 5 true 31⟩ ∧ decode 0xC30C851A = .ok ⟨true, .vadds 3 4 5 false 26⟩ ∧
    decode 0x438C8514 = .ok ⟨false, .vsubs 3 4 5 false 20⟩ ∧ decode 0x440C8509 = .ok ⟨false, .vmuls 3 4 5 false 9⟩ := by decide +kernel

theorem test_decode_core_07 :
    decode 0xC48C8521 = .ok ⟨true, .vdiv 3 4 5 true 1⟩ ∧ decode 0xC50C803E = .ok ⟨true, .vabs 3 4 true 30⟩ ∧
    decode 0x458C8002 = .ok ⟨false, .vneg 3 4 false 2⟩ ∧ decode 0xC60C8506 = .ok ⟨true, .vmin 3 4 5 false 6⟩ ∧
    decode 0x468C8506 = .ok ⟨false, .vmax 3 4 5 false 6⟩ ∧ decode 0xC70C8535 = .ok ⟨true, .vclamp 3 4 5 true 21⟩ ∧
    decode 0xC78C800A = .ok ⟨true, .vrint 3 4 false 10⟩ ∧ decode 0x4B0C817A = .ok ⟨false, .vcvt 6 3 4 false true 3 26⟩ ∧
    decode 0x4C8C8221 = .ok ⟨false, .vcvtN 3 4 true false 1 1⟩ ∧ decode 0xCD0C8011 = .ok ⟨true, .vexp 3 4 17⟩ ∧
    decode 0xCD8C8008 = .ok ⟨true, .vexp2 3 4 8⟩ ∧ decode 0xCE0C8004 = .ok ⟨true, .vlog 3 4 4⟩ ∧ decode 0xCE8C8016 = .ok ⟨true, .vlog2 3 4 22⟩ ∧
    decode 0xCF0C8012 = .ok ⟨true, .vrcp 3 4 18⟩ ∧ decode 0xCF8C8011 = .ok ⟨true, .vrsqrt 3 4 17⟩ ∧ decode 0x500C8017 = .ok ⟨false, .vsqrt 3 4 23⟩ ∧
    decode 0xD08C8008 = .ok ⟨true, .vtanh 3 4 8⟩ ∧ decode 0x510C8007 = .ok ⟨false, .vsigm 3 4 7⟩ ∧ decode 0xD18C800D = .ok ⟨true, .vsin 3 4 13⟩ ∧
    decode 0x520C8002 = .ok ⟨false, .vcos 3 4 2⟩ := by decide +kernel

theorem test_decode_core_08 :
    decode 0xD28C8523 = .ok ⟨true, .vcmp 3 4 5 1 3⟩ ∧ decode 0x530C850E = .ok ⟨false, .vsel 3 4 5 14⟩ ∧
    decode 0x538C8502 = .ok ⟨false, .vand 3 4 5 2⟩ ∧ decode 0xD40C8516 = .ok ⟨true, .vor 3 4 5 22⟩ ∧ decode 0xD48C851C = .ok ⟨true, .vxor 3 4 5 28⟩ ∧
    decode 0x550C8514 = .ok ⟨false, .vandn 3 4 5 20⟩ ∧ decode 0xD58C8017 = .ok ⟨true, .vnot 3 4 23⟩ ∧ decode 0xD60C8502 = .ok ⟨true, .vsll 3 4 5 2⟩ ∧
    decode 0x568C8506 = .ok ⟨false, .vsrl 3 4 5 6⟩ ∧ decode 0xD70C8509 = .ok ⟨true, .vsra 3 4 5 9⟩ ∧ decode 0xD78C8001 = .ok ⟨true, .vrsum 3 4 1⟩ ∧
    decode 0xD80C800C = .ok ⟨true, .vrsumsq 3 4 12⟩ ∧ decode 0xD88C8012 = .ok ⟨true, .vrmax 3 4 18⟩ ∧ decode 0x590C8008 = .ok ⟨false, .vrmin 3 4 8⟩ ∧
    decode 0xD98C801F = .ok ⟨true, .vramax 3 4 31⟩ ∧ decode 0xDA0C8007 = .ok ⟨true, .vscan 3 4 7⟩ ∧
    decode 0x5A8C8006 = .ok ⟨false, .vscanmax 3 4 6⟩ ∧ decode 0xDB0C850B = .ok ⟨true, .vscanseg 3 4 5 11⟩ ∧
    decode 0xDB8C8503 = .ok ⟨true, .vperm 3 4 5 3⟩ ∧ decode 0x5C0C8509 = .ok ⟨false, .vrote 3 4 5 9⟩ := by decide +kernel

theorem test_decode_core_09 :
    decode 0x5C8C8508 = .ok ⟨false, .vbcast 3 4 5 8⟩ ∧ decode 0xDD0C8003 = .ok ⟨true, .vmov 3 4 3⟩ ∧
    decode 0xDD8C8503 = .ok ⟨true, .vget 3 4 5 false 3⟩ ∧ decode 0x5E0C8507 = .ok ⟨false, .vput 3 4 5 false 7⟩ ∧
    decode 0x5E800AA5 = .ok ⟨false, .vshp 5 10 5⟩ ∧ decode 0x5F008000 = .ok ⟨false, .vshpr 4 false⟩ ∧ decode 0xDF8C8016 = .ok ⟨true, .vpopc 3 4 22⟩ ∧
    decode 0x6090A035 = .ok ⟨false, .mseta true 4 5 6 true false true⟩ ∧ decode 0xE110A000 = .ok ⟨true, .msetac false 4 5⟩ ∧
    decode 0x6210A000 = .ok ⟨false, .minca false 4 5⟩ ∧ decode 0xE310A008 = .ok ⟨true, .msetb false 4 5 1 false false false⟩ ∧
    decode 0xE410A000 = .ok ⟨true, .msetbc false 4 5⟩ ∧ decode 0x6590A000 = .ok ⟨false, .mincb true 4 5⟩ ∧
    decode 0x66100015 = .ok ⟨false, .msetc false 4 false true 5⟩ ∧ decode 0x6790A000 = .ok ⟨false, .msetcc true 4 5⟩ ∧
    decode 0x6810A000 = .ok ⟨false, .mincc false 4 5⟩ ∧ decode 0x69900812 = .ok ⟨false, .mfmt true 4 0x812⟩ ∧
    decode 0x6A900000 = .ok ⟨false, .mstamp true 4⟩ ∧ decode 0x6B000000 = .ok ⟨false, .mmul false⟩ ∧
    decode 0xEC800008 = .ok ⟨true, .mzero true 8⟩ := by decide +kernel

theorem test_decode_core_10 :
    decode 0xED000000 = .ok ⟨true, .mdrain false⟩ ∧ decode 0x6E800000 = .ok ⟨false, .mwait true false⟩ ∧
    decode 0x6F100000 = .ok ⟨false, .mprog false 4⟩ ∧ decode 0xF0090409 = .ok ⟨true, .fork 2 0x10409⟩ ∧ decode 0x70800000 = .ok ⟨false, .done⟩ ∧
    decode 0xF10C8541 = .ok ⟨true, .spawn 3 4 5 false true 1⟩ ∧ decode 0x718C8586 = .ok ⟨false, .join 3 4 5 true false 6⟩ ∧
    decode 0xF20085C0 = .ok ⟨true, .phint 4 5 true true⟩ ∧ decode 0x728C85DE = .ok ⟨false, .svc 3 4 5 true true 30⟩ ∧
    decode 0xF3008000 = .ok ⟨true, .iinv 4 false⟩ ∧ decode 0x73800000 = .ok ⟨false, .commit⟩ ∧ decode 0xF4108001 = .ok ⟨true, .bset 4 4 1⟩ ∧
    decode 0x74808008 = .ok ⟨false, .barv 4 8⟩ ∧ decode 0xF500800E = .ok ⟨true, .bwait 4 14⟩ ∧ decode 0xF5808005 = .ok ⟨true, .bsync 4 5⟩ ∧
    decode 0x760C000F = .ok ⟨false, .bstat 3 false 15⟩ ∧ decode 0x768C8132 = .ok ⟨false, .csrs 3 4 306⟩ ∧
    decode 0xF70C8245 = .ok ⟨true, .csrc 3 4 581⟩ ∧ decode 0x778C8080 = .ok ⟨false, .waitd 3 4 true⟩ ∧
    decode 0xFECD3B17 = .ok ⟨true, .trap 13 0x4d3b17⟩ := by decide +kernel

theorem test_decode_core_11 :
    decode 0x7F80E30A = .ok ⟨false, .brk 0xe30a⟩ := by decide +kernel

theorem test_decode_sage_01 :
    decodeSage 0x04D0A000 = .ok (.gadd 3 4 5) ∧ decodeSage 0x04D3681C = .ok (.gaddI 3 4 0x1681c) ∧ decodeSage 0x08D0A000 = .ok (.gsub 3 4 5) ∧
    decodeSage 0x08D2BAFA = .ok (.gsubI 3 4 0xbafa) ∧ decodeSage 0x0CD0A000 = .ok (.gmul 3 4 5) ∧ decodeSage 0x0CD27678 = .ok (.gmulI 3 4 0x7678) ∧
    decodeSage 0x10D0A000 = .ok (.gand 3 4 5) ∧ decodeSage 0x10D2FEEC = .ok (.gandI 3 4 0xfeec) ∧ decodeSage 0x14D0A000 = .ok (.gor 3 4 5) ∧
    decodeSage 0x14D3CBA1 = .ok (.gorI 3 4 0x1cba1) ∧ decodeSage 0x18D0A000 = .ok (.gxor 3 4 5) ∧ decodeSage 0x18D3C097 = .ok (.gxorI 3 4 0x1c097) ∧
    decodeSage 0x1CD0A000 = .ok (.gsll 3 4 5) ∧ decodeSage 0x1CD2F8E8 = .ok (.gsllI 3 4 0xf8e8) ∧ decodeSage 0x20D0A000 = .ok (.gsrl 3 4 5) ∧
    decodeSage 0x20D2C9C5 = .ok (.gsrlI 3 4 0xc9c5) ∧ decodeSage 0x24D828B9 = .ok (.gli 3 1 0x28b9) ∧
    decodeSage 0x24D0F331 = .ok (.gliK 3 1 0xf331) ∧ decodeSage 0x2915F780 = .ok (.gbeq 4 5 0x1f780) ∧
    decodeSage 0x2D16B9F3 = .ok (.gbne 4 5 0x2b9f3) := by decide +kernel

theorem test_decode_sage_02 :
    decodeSage 0x3115CD95 = .ok (.gblt 4 5 0x1cd95) ∧ decodeSage 0x34D19F27 = .ok (.gjmp 3 4 0x19f27) ∧
    decodeSage 0x38D2C902 = .ok (.gld 3 4 true 3 0x902) ∧ decodeSage 0x3CD3943B = .ok (.gst 3 4 true true 2 0x143b) ∧
    decodeSage 0x40D00D72 = .ok (.gcsr 3 4 false 0xd72) ∧ decodeSage 0x44000000 = .ok (.gwait) ∧ decodeSage 0x48000000 = .ok (.gev) ∧
    decodeSage 0x4C114000 = .ok (.gsetw 4 5) ∧ decodeSage 0x50114000 = .ok (.gsetr 4 5) ∧ decodeSage 0x54114003 = .ok (.gwgt 4 5 3) ∧
    decodeSage 0x58100000 = .ok (.gportDown 4) ∧ decodeSage 0x58100001 = .ok (.gportRetrain 4) ∧ decodeSage 0x5C114000 = .ok (.gntfy 4 5) ∧
    decodeSage 0x60114000 = .ok (.gsvc 4 5) ∧ decodeSage 0x6411401D = .ok (.gsend 4 5 29) ∧
    decodeSage 0x68014000 = .ok (.gfree 5) := by decide +kernel

/-! Steps with results worked out from the spec's rules. -/

/-- The state after an instruction. -/
def after (i : Instr) (s : State) : State :=
  match exec i s with
  | .next t => t
  | _ => s

/-- What scalar `r` is once every change is seen. -/
def reads (t : State) (r : BitVec 5) : DWord × Bool := t.cur.view (t.dcc + 2) .C r

/-- Core 0 in cluster C with these scalars 3 and 4. -/
def two (x y : DWord) : State := ((task .C).setCur { (task .C).cur with scal := ⟨[(3, fullScalar x), (4, fullScalar y)]⟩ })

theorem test_add_word_wraps : reads (after (.add 5 3 4 false false true) (two 0x7FFFFFFF 1)) 5 = (0xFFFFFFFF80000000, true) := by decide +kernel

theorem test_sub_source_is_destination : reads (after (.sub 3 3 4 false false false) (two 0 1)) 3 = (0xFFFFFFFFFFFFFFFF, true) := by decide +kernel

theorem test_mulh_signs : reads (after (.mulh 5 3 4 false false false) (two (-1) 2)) 5 = (0xFFFFFFFFFFFFFFFF, true) ∧
    reads (after (.mulhu 5 3 4 false false false) (two (-1) 2)) 5 = (1, true) := by decide +kernel

theorem test_sll_word_wraps_amount : reads (after (.sll 5 3 4 false false true) (two 1 63)) 5 = (0xFFFFFFFF80000000, true) := by decide +kernel

theorem test_sra_word : reads (after (.sra 5 3 4 false false true) (two 0x80000000 4)) 5 = (0xFFFFFFFFF8000000, true) := by decide +kernel

theorem test_li_lih : reads (after (.lih 3 0x3FFFF) (two 0xFFFFFFFFFFFFFFFF 0)) 3 = (0xFFFFFFFFFFFFFFFF, true) ∧
    reads (after (.li 5 0x20000) (two 0 0)) 5 = (0xFFFFFFFFFFFE0000, true) := by decide +kernel

/-- A quotient is written by its own event. -/
theorem test_div_by_zero :
    let t := after (.div 5 3 4 false false false) (two 7 0)
    (reads t 5).2 = false ∧ reads (after (.producerResultWritten 0 5) t) 5 = (0xFFFFFFFFFFFFFFFF, true) ∧
    reads (after (.producerResultWritten 0 5) (after (.rem 5 3 4 false false false) (two 7 0))) 5 = (7, true) := by decide +kernel

theorem test_rem_sign : reads (after (.producerResultWritten 0 5) (after (.rem 5 3 4 false false false) (two (-7) 2))) 5 = (-1, true) := by
  decide +kernel

theorem test_cmp_signedness :
    ((after (.cmp 1 3 4 false false false 2) (two (-1) 1)).cl.pred, (after (.cmp 1 3 4 false false false 6) (two (-1) 1)).cl.pred) = (3, 1) := by
  decide +kernel

theorem test_branch_back : (after (.b 0 false (-2)) (taskCl .C fun x => { x with pc := 16 })).cl.pc = 8 := by decide +kernel

theorem test_call_links : reads (after (.call 1 4) (taskCl .C fun x => { x with pc := 16 })) 1 = (20, true) ∧
    (after (.call 1 4) (taskCl .C fun x => { x with pc := 16 })).cl.pc = 32 := by decide +kernel

/-- A store of a word, performed: the low byte lies lowest. -/
theorem test_store_byte_order :
    let s := withTable (task .A) 3 (recordBits 0x1000 0 64 8 0 0 0 0 0 0)
    let s := s.setCur { s.cur with scal := ⟨[(3, fullScalar 0x11223344), (4, fullScalar 0x0000300000000000)]⟩ }
    let t := after (.stoW 3 4 4) s
    (t.homeBytes 0x40004 4, (t.cur.accesses.length)) = ([0, 0, 0, 0], 1) := by decide +kernel

theorem test_store_performed :
    let x := { access (.store 0x11223344) .issued false with parts := [⟨.device 0x40004, 4, 0, 32, none⟩] }
    (State.homeBytes ((accessing x).performLine 0 x (0, 0x1000)) 0x40003 6) = [0, 0x44, 0x33, 0x22, 0x11, 0] := by decide +kernel

theorem test_trap_entry :
    let t := after (.trap 2 5) (taskCl .A fun x => { x with pc := 16 })
    t.cur.trapc = 0x000000100000000B ∧ t.cur.trapv = 0x1000005 ∧ t.cur.cr.state = .ended := by decide +kernel

theorem test_barrier_round :
    let s := withBarrier 5 2
    let s := s.setCur (s.cur.setBarrier 15 { s.cur.barrier 15 with exp := 2 })
    let s := s.setCur { s.cur with scal := ⟨[(3, fullScalar 5)]⟩ }
    let t := after (.barv 3 15) s
    ((t.cur.barrier 15).arr, (t.cur.barrier 15).compl) = (1, 5) := by decide +kernel

theorem test_notify_moves_tail : ((after (.notifyWrite (127 * 65536) 16) (queueState (slotIn .mapped 0 0))).queue 127).tail = 16 := by decide +kernel

/-- A row of FP32 1.0 and 2.0, summed by elements. -/
theorem test_vadd_fp32 :
    let s := taskCore .V fun c =>
      ({ c with shp := 0x100 } : Core).setTileRow 1 0 (BitVec.ofNat 4096 (0x3F800000 + 0x40000000 * 2 ^ 32)) |>.setTileRow 2 0 (BitVec.ofNat 4096 0x3F800000)
    ((after (.vadd 0 1 2 false 0) s).cur.tileRow 0 0).toNat = 0x40000000 + 0x40000000 * 2 ^ 32 := by decide +kernel

theorem test_step_coordinates_wrap :
    let s := (task .M).setCur { (task .M).cur with scal := ⟨[(3, fullScalar 0xFFFFFFFF), (4, fullScalar 0)]⟩ }
    let t := after (.minca true 3 4) (after (.msetac true 3 4) s)
    stepCoords t.cur.arrayY.regs.ma = [-2, 0, 0, 0] ∧ t.cur.arrayX = s.cur.arrayX := by decide +kernel

theorem test_gsll_gst :
    (after (.gsllI 3 1 65) (sage 0 7 0)).g 3 = 14 ∧
    ((after (.gst 2 1 false false 1 0) (sage 0 0x8000 0x12345)).curSage.dmem.read 0x8000 4) = 0x2345 ∧
    (after (.gadd 0 1 2) (sage 0 7 9)).g 0 = 0 ∧ (after (.gadd 3 1 2) (sage 8 7 9)).curSage.pc = 12 := by decide +kernel

/-- R130's table of conversions to E4M3: RNE, RNE with SAT, RTZ. -/
theorem test_fp32_to_e4m3 :
    [(0x42C80000, 0x6C, 0x6C, 0x6C), (0x42D00000, 0x6D, 0x6D, 0x6D), (0x43E80000, 0x7E, 0x7E, 0x7E), (0x43FA0000, 0x7F, 0x7E, 0x7E),
     (0x3A83126F, 0x01, 0x01, 0x00), (0x3A800000, 0x00, 0x00, 0x00), (0xFF800000, 0xFF, 0xFE, 0xFF), (0x80000000, 0x80, 0x80, 0x80)].all (fun e =>
      let f := Fmt.fp fp32
      let g := Fmt.fp e4m3
      decide (convertElement f g false false e.1 = e.2.1) && decide (convertElement f g false true e.1 = e.2.2.1) &&
        decide (convertElement f g true false e.1 = e.2.2.2)) = true := by decide +kernel

/-- R130's NaN payloads through E5M2. -/
theorem test_e5m2_nan :
    let f := Fmt.fp fp32
    let g := Fmt.fp (.ofDesc 0xD40F)
    [(0x7E, 0x7FE00000), (0x7D, 0x7FD00000)].all (fun e =>
      decide (convertElement g f false false e.1 = e.2) && decide (convertElement f g true true e.2 = e.1)) = true := by decide +kernel

/-- What step 1 runs after reset, a word being placed: of the cores and of a Sage core. -/
theorem test_step_runs_placed_word :
    nextAnd (fun t => decide ((t.coreAt 0).settled 3 = (0xFFFFFFFFFFFE0000, true))) (step (State.reset.withFetchWord 32 ((encodeCore false (.li 3 0x20000)).getD 0).toNat)) = true ∧
    nextAnd (fun t => decide ((t.sageAt 0).reg 5 = 0x12340000)) (step (State.reset.withFetchWord 32 0x25581234)) = true := by decide +kernel

end Sys2Proof.Tests
end

section
/-!
PROOFS. What reads at homes give after writes at homes, and what a write at a home leaves unchanged.
-/

namespace Sys2Proof.Machine

@[simp] theorem length_bytesOfNat (n v : Nat) : (bytesOfNat n v).length = n := by
  induction n generalizing v with
  | zero => rfl
  | succ n ih => simp [bytesOfNat, ih]

/-- The bytes of a value hold it as far as they reach (R3). -/
theorem natOfBytes_bytesOfNat (n v : Nat) : natOfBytes (bytesOfNat n v) = v % 256 ^ n := by
  induction n generalizing v with
  | zero => simp [bytesOfNat, natOfBytes, Nat.mod_one]
  | succ n ih => simp [bytesOfNat, natOfBytes, ih, Nat.pow_succ', Nat.mod_mul]

theorem Memory.bytes_setBytes_same (m : Memory) (a : Nat) (bs : List Byte) : (m.setBytes a bs).bytes a bs.length = bs := by
  induction bs generalizing m a with
  | nil => rfl
  | cons b r ih =>
    have head : ((m.setByte a b).setBytes (a + 1) r).byte a = b := by
      rw [Memory.byte_setBytes_ne _ _ _ (by omega), Memory.byte_setByte]
    simp [Memory.setBytes, Memory.bytes, head, ih]

theorem Memory.bytes_setBytes_apart (m : Memory) {a c n : Nat} (bs : List Byte) (h : c + n ≤ a ∨ a + bs.length ≤ c) :
    (m.setBytes a bs).bytes c n = m.bytes c n := by
  induction n generalizing c with
  | zero => rfl
  | succ n ih => rw [Memory.bytes, Memory.bytes, ih (by omega), m.byte_setBytes_ne a bs (by omega)]

theorem Memory.read_write_same (m : Memory) (a n v : Nat) : (m.write a n v).read a n = v % 256 ^ n := by
  have h := m.bytes_setBytes_same a (bytesOfNat n v)
  rw [length_bytesOfNat] at h
  rw [Memory.read, Memory.write, h, natOfBytes_bytesOfNat]

theorem Memory.read_write_apart (m : Memory) {a c k n : Nat} (v : Nat) (h : c + k ≤ a ∨ a + n ≤ c) :
    (m.write a n v).read c k = m.read c k := by
  rw [Memory.read, Memory.write, m.bytes_setBytes_apart _ (by simpa using h), Memory.read]

/-- Where no lock stands, a value's homes are its own addresses. -/
theorem State.homeRead_unlocked (s : State) (a n : Nat) (h : ∀ b, s.lockOn b = none) : s.homeRead a n = s.mem.read a n := by
  have bytes : s.homeBytes a n = s.mem.bytes a n := by
    induction n generalizing a with
    | zero => rfl
    | succ n ih => rw [State.homeBytes, ih, s.homeByte_unlocked a (h a), Memory.bytes]
  rw [State.homeRead, bytes, Memory.read]

theorem State.homeWrite_unlocked (s : State) (a n v : Nat) (h : ∀ b, s.lockOn b = none) :
    s.homeWrite a n v = { s with mem := s.mem.write a n v } := s.setHomeBytes_unlocked a _ h

/-- States with one memory and one set of frame locks read the same at every home (R168, R174). -/
theorem State.homeRead_congr {s t : State} (hm : t.mem = s.mem) (hl : ∀ i, (t.slice i).locks = (s.slice i).locks) (a n : Nat) :
    t.homeRead a n = s.homeRead a n := by
  have byte (c : Nat) : t.homeByte c = s.homeByte c := by
    simp only [State.homeByte, State.redirect, State.lockOn, hm, hl]
  have bytes : t.homeBytes a n = s.homeBytes a n := by
    induction n generalizing a with
    | zero => rfl
    | succ n ih => rw [State.homeBytes, State.homeBytes, ih, byte]
  rw [State.homeRead, bytes, State.homeRead]

/-- What writes at homes may change: memory, and of the slices anything but the interrupts of their service cores. -/
def State.WritesHomes (s t : State) : Prop :=
  t = { s with mem := t.mem, slices := t.slices } ∧ ∀ i, (t.slice i).interrupts = (s.slice i).interrupts

theorem State.WritesHomes.refl (s : State) : s.WritesHomes s := ⟨rfl, fun _ => rfl⟩

theorem State.WritesHomes.trans {s t u : State} (h : s.WritesHomes t) (h' : t.WritesHomes u) : s.WritesHomes u := by
  obtain ⟨ht, hi⟩ := h
  obtain ⟨hu, hi'⟩ := h'
  refine ⟨?_, fun i => (hi' i).trans (hi i)⟩
  rw [hu, ht]

/-- A slice whose locks alone change keeps every slice's interrupts. -/
theorem State.writesHomes_setLocks (s : State) (n : Nat) (ls : List FrameLock) : s.WritesHomes (s.setSlice n { s.slice n with locks := ls }) := by
  refine ⟨rfl, fun i => ?_⟩
  by_cases h : i = n
  · rw [h, State.slice_setSlice]
  · rw [s.slice_setSlice_ne h]

theorem State.writesHomes_setHomeByte (s : State) (a : Nat) (b : Byte) : s.WritesHomes (s.setHomeByte a b) := by
  unfold State.setHomeByte
  split
  · split
    · exact ⟨rfl, fun _ => rfl⟩
    · exact s.writesHomes_setLocks _ _
  · exact ⟨rfl, fun _ => rfl⟩

theorem State.writesHomes_setHomeBytes (s : State) (a : Nat) (bs : List Byte) : s.WritesHomes (s.setHomeBytes a bs) := by
  induction bs generalizing s a with
  | nil => exact .refl s
  | cons b r ih => exact (s.writesHomes_setHomeByte a b).trans (ih _ _)

end Sys2Proof.Machine
end

section
/-!
PROOFS. The era change (R205): what counting it in the race rings and signalling it to the service cores do.
-/

namespace Sys2Proof.Machine

theorem nodup_eraseDups {α : Type} [BEq α] [LawfulBEq α] : (l : List α) → l.eraseDups.Nodup
  | [] => by simp
  | a :: as => by
    rw [List.eraseDups_cons, List.nodup_cons]
    exact ⟨by simp [List.mem_eraseDups], nodup_eraseDups _⟩
termination_by l => l.length
decreasing_by exact Nat.lt_succ_of_le (List.length_filter_le _ _)

theorem State.writesHomes_countEras (s : State) (rs : List DWord) : s.WritesHomes (s.countEras rs) := by
  induction rs generalizing s with
  | nil => exact .refl s
  | cons r rs ih => exact (s.writesHomes_setHomeBytes _ _).trans (ih _)

/-- Where no lock stands, a ring's counter raised is a write to memory alone. -/
theorem State.bumpRing_unlocked (s : State) (ring : DWord) (off : Nat) (h : ∀ b, s.lockOn b = none) :
    s.bumpRing ring off = { s with mem := s.mem.write (ring.toNat + off) 4 ((s.homeRead (ring.toNat + off) 4 + 1) % 2 ^ 32) } :=
  s.homeWrite_unlocked _ _ _ h

theorem State.lockOn_bumpRing (s : State) (ring : DWord) (off : Nat) (h : ∀ b, s.lockOn b = none) (b : Nat) :
    (s.bumpRing ring off).lockOn b = none := by
  rw [s.bumpRing_unlocked ring off h]
  exact h b

/-- A ring's counter raised reads as one more, modulo 2^32 (R216). -/
theorem State.homeRead_bumpRing_same (s : State) (ring : DWord) (off : Nat) (h : ∀ b, s.lockOn b = none) :
    (s.bumpRing ring off).homeRead (ring.toNat + off) 4 = (s.homeRead (ring.toNat + off) 4 + 1) % 2 ^ 32 := by
  rw [State.homeRead_unlocked _ _ _ (s.lockOn_bumpRing ring off h), s.bumpRing_unlocked ring off h]
  exact (Memory.read_write_same _ _ _ _).trans (Nat.mod_mod _ _)

theorem State.homeRead_bumpRing_apart (s : State) (ring : DWord) (off : Nat) {a n : Nat} (h : ∀ b, s.lockOn b = none)
    (ha : a + n ≤ ring.toNat + off ∨ ring.toNat + off + 4 ≤ a) : (s.bumpRing ring off).homeRead a n = s.homeRead a n := by
  rw [State.homeRead_unlocked _ _ _ (s.lockOn_bumpRing ring off h), s.homeRead_unlocked a n h, s.bumpRing_unlocked ring off h]
  exact Memory.read_write_apart _ _ ha

/-- Rings whose bases lie at least 4 bytes from `x` leave the counter at its offset 24 as it was. -/
theorem State.homeRead_countEras_apart (s : State) (x : DWord) (rs : List DWord) (h : ∀ b, s.lockOn b = none)
    (apart : ∀ y ∈ rs, x.toNat + 4 ≤ y.toNat ∨ y.toNat + 4 ≤ x.toNat) :
    (s.countEras rs).homeRead (x.toNat + 24) 4 = s.homeRead (x.toNat + 24) 4 := by
  induction rs generalizing s with
  | nil => rfl
  | cons r rs ih =>
    have := apart r (by simp)
    rw [State.countEras, ih _ (s.lockOn_bumpRing r 24 h) (fun y hy => apart y (by simp [hy])),
      s.homeRead_bumpRing_apart r 24 h (by omega)]

/-- ERAS of a ring listed once, the others apart from it, is raised by one (R205). -/
theorem State.homeRead_countEras (s : State) (x : DWord) (rs : List DWord) (h : ∀ b, s.lockOn b = none) (once : rs.Nodup) (hx : x ∈ rs)
    (apart : ∀ y ∈ rs, y ≠ x → x.toNat + 4 ≤ y.toNat ∨ y.toNat + 4 ≤ x.toNat) :
    (s.countEras rs).homeRead (x.toNat + 24) 4 = (s.homeRead (x.toNat + 24) 4 + 1) % 2 ^ 32 := by
  induction rs generalizing s with
  | nil => simp at hx
  | cons r rs ih =>
    obtain ⟨hr, once⟩ := List.nodup_cons.mp once
    have later := s.lockOn_bumpRing r 24 h
    rw [State.countEras]
    by_cases e : x = r
    · subst e
      have others : ∀ y ∈ rs, x.toNat + 4 ≤ y.toNat ∨ y.toNat + 4 ≤ x.toNat := fun y hy =>
        apart y (by simp [hy]) (fun eq => hr (eq ▸ hy))
      rw [State.homeRead_countEras_apart _ _ _ later others, s.homeRead_bumpRing_same x 24 h]
    · have := apart r (by simp) (Ne.symm e)
      rw [ih _ later once ((List.mem_cons.mp hx).resolve_left e) (fun y hy => apart y (by simp [hy])),
        s.homeRead_bumpRing_apart r 24 h (by omega)]

/-- Value 0 signalled to the service cores of the first `n` slices, in `t`, and nothing else changed. -/
def State.Signals (n : Nat) (s t : State) : Prop :=
  t = { s with slices := t.slices } ∧ (∀ i, (t.slice i).locks = (s.slice i).locks) ∧
    (∀ i, (t.slice i).interrupts = (s.slice i).interrupts ++ if i < n then [0] else [])

theorem State.interrupt_eq (s : State) (n : Nat) (v : DWord) :
    s.interrupt n v = { s with slices := (s.interrupt n v).slices } := rfl

theorem State.slice_interrupt_same (s : State) (n : Nat) (v : DWord) :
    (s.interrupt n v).slice n = { s.slice n with interrupts := (s.slice n).interrupts ++ [v] } := State.slice_setSlice _ _ _

theorem State.slice_interrupt_ne (s : State) {i n : Nat} (h : i ≠ n) (v : DWord) : (s.interrupt n v).slice i = s.slice i :=
  s.slice_setSlice_ne h _

theorem State.signals_foldl (s : State) (n : Nat) : s.Signals n ((List.range n).foldl (fun s i => s.interrupt i 0) s) := by
  induction n with
  | zero => exact ⟨rfl, fun _ => rfl, fun i => by simp⟩
  | succ n ih =>
    rw [List.range_succ, List.foldl_append]
    generalize (List.range n).foldl (fun s i => s.interrupt i 0) s = t at ih ⊢
    obtain ⟨rest, locks, signalled⟩ := ih
    refine ⟨?_, fun i => ?_, fun i => ?_⟩
    · rw [List.foldl_cons, List.foldl_nil, t.interrupt_eq, rest]
    · rw [← locks i]
      by_cases e : i = n
      · simp [e, State.slice_interrupt_same]
      · simp [State.slice_interrupt_ne _ e]
    · by_cases e : i = n
      · simp [e, State.slice_interrupt_same, signalled]
      · simp [State.slice_interrupt_ne _ e, signalled, show i < n + 1 ↔ i < n by omega]

/-- A key of a list at which a table lists one value throughout reads as that value. -/
theorem findCell_map_const {α : Type} {i : Nat} {l : List Nat} (v : α) (h : i ∈ l) : findCell i (l.map fun j => (j, v)) = some v := by
  induction l with
  | nil => simp at h
  | cons j l ih =>
    by_cases e : j = i
    · simp [findCell, e]
    · simpa [findCell, e] using ih ((List.mem_cons.mp h).resolve_left (Ne.symm e))

/-- The state of a new era (R205), before it is counted and signalled. -/
def State.newEra (s : State) : State :=
  { s with
    eraNow := s.eraNow + 1
    clocks := ⟨((List.range 256) ++ [portGroup]).map fun i => (i, 1)⟩
    vclocks := .empty
    dclk := .empty
    commitVector := .empty
    cores := s.cores.mapValues Core.clearClocks
    ready := s.ready.map fun (r : ReadyCr) => { r with kept := r.kept.clearClocks } }

theorem State.newEra_clock (s : State) (i : Nat) (h : i < 256 ∨ i = portGroup) : s.newEra.clocks.get 0 i = 1 := by
  have listed : i ∈ List.range 256 ++ [portGroup] := by simpa using h
  rw [Tab.get, State.newEra, findCell_map_const 1 listed, Option.getD_some]

theorem State.newEra_clocks (s : State) : ∀ c ∈ s.newEra.clocks.cells, c.2 = 1 := by
  intro c hc
  obtain ⟨i, _, rfl⟩ := List.mem_map.mp hc
  rfl

/-- The state in which an era change that is due leaves the device: the new era counted in the race rings and signalled to the slices. -/
def State.eraChanged (s : State) : State :=
  (List.range 16).foldl (fun s i => s.interrupt i 0) (s.newEra.countEras (s.partitions.values.map ringOf).eraseDups)

theorem execEraChange_due (s : State) (h : s.eraDue = true) : execEraChange s = .next s.eraChanged := by
  rw [execEraChange, if_pos h]
  rfl

/-- Counting and signalling the new era change nothing but memory and the slices. -/
theorem State.eraChanged_rest (s : State) : s.eraChanged = { s.newEra with mem := s.eraChanged.mem, slices := s.eraChanged.slices } := by
  have counted := (s.newEra.writesHomes_countEras (s.partitions.values.map ringOf).eraseDups).1
  have signalled := (State.signals_foldl (s.newEra.countEras (s.partitions.values.map ringOf).eraseDups) 16).1
  rw [State.eraChanged, signalled, counted]

theorem State.interrupts_eraChanged (s : State) (i : Nat) (h : i < 16) :
    (s.eraChanged.slice i).interrupts = (s.slice i).interrupts ++ [0] := by
  obtain ⟨_, counted⟩ := s.newEra.writesHomes_countEras (s.partitions.values.map ringOf).eraseDups
  obtain ⟨_, _, signalled⟩ := State.signals_foldl (s.newEra.countEras (s.partitions.values.map ringOf).eraseDups) 16
  rw [State.eraChanged, signalled i, counted i, if_pos h]
  rfl

/-- ERAS of a race ring apart from the others is raised by one at an era change, however many partitions share the ring (R205). -/
theorem State.eras_eraChanged (s : State) (h : ∀ b, s.lockOn b = none) (x : DWord) (hx : x ∈ s.partitions.values.map ringOf)
    (apart : ∀ y ∈ s.partitions.values.map ringOf, y ≠ x → x.toNat + 4 ≤ y.toNat ∨ y.toNat + 4 ≤ x.toNat) :
    s.eraChanged.homeRead (x.toNat + 24) 4 = (s.homeRead (x.toNat + 24) 4 + 1) % 2 ^ 32 := by
  obtain ⟨rest, locks, _⟩ := State.signals_foldl (s.newEra.countEras (s.partitions.values.map ringOf).eraseDups) 16
  have counted := s.newEra.homeRead_countEras x (s.partitions.values.map ringOf).eraseDups h (nodup_eraseDups _)
    (List.mem_eraseDups.mpr hx) (fun y hy => apart y (List.mem_eraseDups.mp hy))
  have before : s.newEra.homeRead (x.toNat + 24) 4 = s.homeRead (x.toNat + 24) 4 := State.homeRead_congr rfl (fun _ => rfl) _ _
  rw [State.eraChanged, State.homeRead_congr (by rw [rest]) locks, counted, before]

end Sys2Proof.Machine
end

section
/-!
PROOFS. Uncorrectable errors, the watchdog of the Sage cores, time and the answers to service calls.
-/

namespace Sys2Proof.Machine

/-- An error of a code of R326: counted, met where it is no port's, and followed by what its code asks for. -/
theorem execUncorrectableError_coded (core : Nat) (e : StorageError) (s : State) (h : 1 ≤ e.unit.toNat) (h' : e.unit.toNat ≤ 10) :
    execUncorrectableError core e s =
      (let u := s.count (keyUncorrectable e.unit.toNat)
       let met := (if e.unit = 8 then u.dropHostAccess core else u).errorAt core e.unit.toNat e.site
       .next (if e.unit = 9 then u else met.afterError core e)) := by
  have coded : e.unit ≠ 0#8 := fun z => by simp [z] at h
  by_cases port : e.unit = 9#8
  · simp [execUncorrectableError, port]
  · simp [execUncorrectableError, coded, port, Nat.not_lt.mpr h']

theorem execFenceCore_lt (core : Nat) (s : State) (h : core < 64) :
    execFenceCore core s = .next ((s.fence core).uncorrectable core (Config.free s.steps).toNat).refill := by
  rw [execFenceCore, if_neg (Nat.not_le.mpr h)]

/-- A bridge fails once (R313). -/
theorem State.failBridge_first (s : State) (h : s.bridgeFailed = false) :
    s.failBridge = ((s.launches.cells.filter fun e => e.2.dieMask = 3 && decide (e.2.status = 0)).map Prod.fst).foldl State.cutLaunch
      { s with bridgeFailed := true } := by
  simp [State.failBridge, h]

/-- A Sage core that has stopped, or holds events for 10 ms without a GEV, is declared failed (R280, R286). -/
theorem execSageWatchdog_due (g : Nat) (s : State) (hg : g < 8) (hf : (s.sageAt g).failed = false)
    (h : (s.sageAt g).stopped = true ∨ ((s.sageAt g).running = true ∧ 0 < (s.sageAt g).evOcc ∧ (s.sageAt g).lastPop + 10000000 ≤ s.dcc)) :
    execSageWatchdog g s =
      .next (((s.setSageAt g { s.sageAt g with failed := true, running := false }).count keySageFail).downSage g) := by
  rcases h with stopped | ⟨running, waits, late⟩
  · simp [execSageWatchdog, hg, hf, stopped]
  · simp [execSageWatchdog, hg, hf, running, waits, late]

theorem execClockThrottle_inRange (mhz : Nat) (s : State) (h : 1 ≤ mhz) (h' : mhz ≤ 1000) :
    execClockThrottle mhz s = .next { s with clockMHz := mhz } := by
  rw [execClockThrottle, Nat.min_eq_left h', Nat.max_eq_right h]

section Steering

variable {msg : SyncMsg} (h : msg = .followUp ∨ msg = .delayResp) {ppm : Int} (s : State)
include h

/-- What a message that steers does (R81): the state counts where more than 10 ppm is asked for, and the servo is held to 10 ppm. -/
theorem execTimeSyncMessage_steers :
    execTimeSyncMessage msg ppm s =
      .next { (if ppm < -10 ∨ 10 < ppm then s.count keyUnsync else s) with servo := max (-10) (min 10 ppm) } := by
  rcases h with rfl | rfl <;> rfl

theorem execTimeSyncMessage_within (lo : -10 ≤ ppm) (hi : ppm ≤ 10) :
    execTimeSyncMessage msg ppm s = .next { s with servo := ppm } := by
  rw [execTimeSyncMessage_steers h, if_neg (by omega), min_eq_right hi, max_eq_right lo]

theorem execTimeSyncMessage_below (lo : ppm < -10) :
    execTimeSyncMessage msg ppm s = .next { s.count keyUnsync with servo := -10 } := by
  rw [execTimeSyncMessage_steers h, if_pos (.inl lo), max_eq_left (by omega)]

theorem execTimeSyncMessage_above (hi : 10 < ppm) :
    execTimeSyncMessage msg ppm s = .next { s.count keyUnsync with servo := 10 } := by
  rw [execTimeSyncMessage_steers h, if_pos (.inr hi), min_eq_left (by omega), max_eq_right (by omega)]

end Steering

theorem execTimeSyncMessage_other {msg : SyncMsg} (h : msg ≠ .followUp) (h' : msg ≠ .delayResp) (ppm : Int) (s : State) :
    execTimeSyncMessage msg ppm s = .next s := by
  cases msg with
  | followUp => exact absurd rfl h
  | delayResp => exact absurd rfl h'
  | sync => rfl
  | delayReq => rfl
  | announce => rfl

/-- A call without an answer yet goes on waiting (R321). -/
theorem execSvcReply_unanswered {s t : State} {core j : Nat} {w : SvcWait} {answer : DWord} (call : s.callOf core = some (j, w))
    (unanswered : s.answerCall j core w answer = (t, none)) : execSvcReply core answer s = .next t := by
  simp only [execSvcReply, call, unanswered]

/-- The last call of its kind, answered, leaves its mailbox, and its reply goes to the core (R319 to R321). -/
theorem execSvcReply_answered {s t : State} {core j : Nat} {w : SvcWait} {answer r : DWord} (call : s.callOf core = some (j, w))
    (answered : s.answerCall j core w answer = (t, some r)) (last : ((t.slice j).mailbox.erase (core, w)).contains (core, w) = false) :
    execSvcReply core answer s =
      (t.setSlice j { t.slice j with mailbox := (t.slice j).mailbox.erase (core, w) }).deliverReply core w r := by
  simp only [execSvcReply, call, answered, last, Bool.false_eq_true, if_false]

section Reply

variable {s : State} {n : Nat} {w : SvcWait} (r : DWord) (asks : (s.coreAt n).svc = some w) (waits : ((s.coreAt n).cl .C).stage = 3)
include asks waits

/-- A reply that reaches a core whose SVC is not about to issue is kept for it (R319). -/
theorem State.deliverReply_kept (word : (s.setCoreAt n { s.coreAt n with svc := some { w with answer := some r } }).waitingWord n .C = none) :
    s.deliverReply n w r = .next (s.setCoreAt n { s.coreAt n with svc := some { w with answer := some r } }) := by
  simp only [State.deliverReply, asks, waits, and_self, if_true, word]

/-- A reply that reaches the SVC that waits for it completes it (R319). -/
theorem State.deliverReply_completes {d a b : BitVec 5} {m f : Bool} {i : BitVec 6}
    (word : (s.setCoreAt n { s.coreAt n with svc := some { w with answer := some r } }).waitingWord n .C = some (.svc d a b m f i)) :
    s.deliverReply n w r = execSvc d a b m f i ((s.setCoreAt n { s.coreAt n with svc := some { w with answer := some r } }).at n .C) := by
  simp only [State.deliverReply, asks, waits, and_self, if_true, word]

end Reply

end Sys2Proof.Machine
end

section
namespace Sys2Proof.Machine

/-- Settles O42: one clause for each failure, service and era change of the device. -/
theorem deviceEventsComplete : Obligations.DeviceEventsComplete := by
  intro s t core g mhz j e ppm msg w answer r
  refine ⟨fun due => ?era, execFenceCore_lt core s, fun coded coded' => ?error, fun first => ?bridge, execSageWatchdog_due g s,
    execClockThrottle_inRange mhz s,
    fun steers => ⟨execTimeSyncMessage_within steers s, execTimeSyncMessage_below steers s, execTimeSyncMessage_above steers s⟩,
    fun noFollow noResp => execTimeSyncMessage_other noFollow noResp ppm s, execSvcReply_unanswered, ?reply⟩
  case era =>
    refine ⟨s.eraChanged, execEraChange_due s due, ?_, ?_, ?_, ?_, ?_, ?_, s.interrupts_eraChanged, s.eras_eraChanged⟩
    all_goals rw [s.eraChanged_rest]
    · rfl
    · exact s.newEra_clock
    · exact s.newEra_clocks
    all_goals rfl
  case error => exact execUncorrectableError_coded core e s coded coded'
  case bridge =>
    rw [exec_dieBridgeFailure, execDieBridgeFailure, s.failBridge_first first]
  case reply =>
    intro call answered _ last u c kept asks waits
    have delivered : exec (.svcReply core answer) s = u.deliverReply core w r := execSvcReply_answered call answered last
    rw [delivered]
    exact ⟨State.deliverReply_kept r asks waits, fun _ _ _ _ _ _ => State.deliverReply_completes r asks waits⟩

end Sys2Proof.Machine
end

section
/-!
PROOFS. The round trip of the encodings (R352 to R359, R365, R366): an encoded word decodes to its instruction, by the cluster that its OP is
valid in, and for Sage words.
-/

namespace Sys2Proof

open Machine

/-- Does every encoding of the instruction decode to it, with its S bit? -/
def RoundTrips (i : Instr) : Prop := ∀ s w, encodeCore s i = some w → decode w = .ok ⟨s, i⟩

/-- Does the lowest OP of the instruction's words lie from `lo` up to below `hi`? -/
def opWithin (lo hi : Nat) (i : Instr) : Bool := decide (lo ≤ opOf i ∧ opOf i < hi)

/-- A field across the border of a concatenation: the low bits of the high part, then the high bits of the low part. -/
theorem toNat_extract_append_across {n m k len : Nat} (x : BitVec n) (y : BitVec m) (h : k < m) (h' : m < k + len) :
    ((x ++ y).extractLsb' k len).toNat =
      (x.extractLsb' 0 (len - (m - k))).toNat <<< (m - k) ||| (y.extractLsb' k (m - k)).toNat := by
  have split : (x ++ y).extractLsb' k len =
      (x.extractLsb' 0 (len - (m - k)) ++ y.extractLsb' k (m - k)).cast (by omega) := by
    apply BitVec.eq_of_getLsbD_eq
    intro i hi
    simp only [BitVec.getLsbD_cast, BitVec.getLsbD_append, BitVec.getLsbD_extractLsb', hi, decide_true, Bool.true_and]
    by_cases low : i < m - k
    · rw [if_pos (by omega), if_pos low, decide_eq_true low, Bool.true_and]
    · have inside : i - (m - k) < len - (m - k) := by omega
      rw [if_neg (by omega), if_neg low, decide_eq_true inside, Bool.true_and]
      congr 1
      omega
  rw [split, BitVec.toNat_cast, BitVec.toNat_append]

/-- A field known to be at most `m` is one of the numbers up to `m`. -/
theorem eq_ofNat_of_le {k m : Nat} {v : BitVec k} (h : v.toNat ≤ m) : ∃ n ≤ m, v = BitVec.ofNat k n :=
  ⟨v.toNat, h, by simp⟩

theorem width_le (w : BitVec 2) : w.toNat ≤ 3 := Nat.le_of_lt_succ w.isLt

theorem toNat_le_of_wordOk_ldoS {w : BitVec 2} {d a : BitVec 5} {i : BitVec 13} (h : wordOk (.ldoS w d a i) = true) : w.toNat ≤ 2 :=
  of_decide_eq_true (Bool.and_eq_true_iff.mp h).2

theorem toNat_le_of_wordOk_vcvt {f : BitVec 4} {d a x : BitVec 5} {t r : Bool} {p : BitVec 3}
    (h : wordOk (.vcvt f d a t r p x) = true) : f.toNat ≤ 8 :=
  of_decide_eq_true (Bool.and_eq_true_iff.mp h).2

theorem toNat_le_of_wordOk_trap {v : BitVec 4} {c : BitVec 23} (h : wordOk (.trap v c) = true) : v.toNat ≤ 14 :=
  of_decide_eq_true (Bool.and_eq_true_iff.mp h).2

/-- A core word has an encoding (R359). -/
theorem encodeCore_isSome (s : Bool) (i : Instr) (h : decide (0 < opOf i) = true) : (encodeCore s i).isSome = true := by
  cases i
  all_goals cases h
  all_goals rfl

/-- A Sage word or an event has no encoding as a core word. -/
theorem encodeCore_eq_none (s : Bool) (i : Instr) (ok : wordOk i = true) (h : opOf i = 0) : encodeCore s i = none := by
  cases i
  case illegal => exact absurd ok Bool.false_ne_true
  all_goals cases h
  all_goals rfl

theorem roundTrips_any (i : Instr) (h : opWithin 0x01 0x40 i = true) : RoundTrips i := by
  intro s w e
  cases i
  all_goals cases h
  all_goals
    cases e
    simp (disch := decide) only [decode, decodeCore, decodeCore00, decodeCore01, decodeCore02, decodeCore03, decodeCore04, decodeCore05,
      decodeCore06, decodeCore07, extract_append_high, extract_append_low, extract_whole, bit_append_high, bit_append_low, bit_ofBool,
      Nat.reduceSub, BitVec.reduceExtractLsb', BitVec.reduceToNat, BitVec.reduceEq, and_self, if_true, if_false]

theorem roundTrips_A (i : Instr) (ok : wordOk i = true) (h : opWithin 0x40 0x80 i = true) : RoundTrips i := by
  intro s w e
  cases i
  case' ldoS v _ _ _ =>
    obtain ⟨n, hn, rfl⟩ := eq_ofNat_of_le (toNat_le_of_wordOk_ldoS ok)
    interval_cases n
  case' ld v _ _ _ _ _ _ _ | ldAcq v _ _ _ _ _ _ _ | st v _ _ _ _ _ _ | stRel v _ _ _ _ _ _ | ldo v _ _ _ | qrd v _ _ _ _ _ _ _
      | qwr v _ _ _ _ _ _ _ =>
    obtain ⟨n, hn, rfl⟩ := eq_ofNat_of_le (width_le v)
    interval_cases n
  all_goals cases h
  all_goals
    cases e
    simp (disch := decide) only [decode, decodeCore, decodeCore08, decodeCore09, decodeCore0A, decodeCore0B, decodeCore0C, decodeCore0D,
      decodeCore0E, decodeCore0F, extract_append_high, extract_append_low, extract_whole, bit_append_high, bit_append_low, bit_ofBool,
      Nat.reduceSub, Nat.reduceShiftLeft, Nat.reduceOr, toNat_extract_append_across,
      BitVec.reduceExtractLsb', BitVec.reduceToNat, BitVec.reduceEq, and_self, if_true, if_false]

theorem roundTrips_V (i : Instr) (ok : wordOk i = true) (h : opWithin 0x80 0xC0 i = true) : RoundTrips i := by
  intro s w e
  cases i
  case' vcvt f _ _ _ _ _ _ =>
    obtain ⟨n, hn, rfl⟩ := eq_ofNat_of_le (toNat_le_of_wordOk_vcvt ok)
    interval_cases n
  all_goals cases h
  all_goals
    cases e
    simp (disch := decide) only [decode, decodeCore, decodeCore10, decodeCore11, decodeCore12, decodeCore13, decodeCore14, decodeCore15,
      decodeCore16, decodeCore17, extract_append_high, extract_append_low, extract_whole, bit_append_high, bit_append_low, bit_ofBool,
      Nat.reduceSub, Nat.reduceShiftLeft, Nat.reduceOr, toNat_extract_append_across,
      BitVec.reduceExtractLsb', BitVec.reduceToNat, and_self, if_true]

theorem roundTrips_M (i : Instr) (h : opWithin 0xC0 0xE0 i = true) : RoundTrips i := by
  intro s w e
  cases i
  case' mseta y _ _ _ _ _ _ | msetb y _ _ _ _ _ _ | msetac y _ _ | msetbc y _ _ | msetcc y _ _ | minca y _ _ | mincb y _ _
      | mincc y _ _ | msetc y _ _ _ _ | mfmt y _ _ | mstamp y _ | mmul y | mzero y _ | mdrain y | mwait y _ | mprog y _ => cases y
  all_goals cases h
  all_goals
    cases e
    simp (disch := decide) only [decode, decodeCore, decodeCore18, decodeCore19, decodeCore1A, decodeCore1B, BitVec.toNat_ofBool,
      Bool.toNat_true, Bool.toNat_false,
      extract_append_high, extract_append_low, extract_whole, bit_append_high, bit_append_low, bit_ofBool,
      Nat.reduceSub, Nat.reduceShiftLeft, Nat.reduceOr, toNat_extract_append_across,
      BitVec.reduceExtractLsb', BitVec.reduceToNat, if_true]

theorem roundTrips_C (i : Instr) (ok : wordOk i = true) (h : decide (0xE0 ≤ opOf i) = true) : RoundTrips i := by
  intro s w e
  cases i
  case' trap v _ =>
    obtain ⟨n, hn, rfl⟩ := eq_ofNat_of_le (toNat_le_of_wordOk_trap ok)
    interval_cases n
  all_goals cases h
  all_goals
    cases e
    simp (disch := decide) only [decode, decodeCore, decodeCore1C, decodeCore1D, decodeCore1E, decodeCore1F,
      extract_append_high, extract_append_low, extract_whole, bit_append_high, bit_append_low, bit_ofBool,
      Nat.reduceSub, Nat.reduceShiftLeft, Nat.reduceOr, toNat_extract_append_across,
      BitVec.reduceExtractLsb', BitVec.reduceToNat, and_self, if_true]

theorem decodeSage_encodeSage (i : Instr) (w : Word) (e : encodeSage i = some w) : decodeSage w = .ok i := by
  cases i
  all_goals cases e
  all_goals
    simp (disch := decide) only [decodeSage,
      extract_append_high, extract_append_low, extract_whole, bit_append_high, bit_append_low, bit_ofBool,
      Nat.reduceSub, BitVec.reduceExtractLsb', BitVec.reduceToNat, BitVec.reduceEq,
      and_self, and_false, false_and, if_true, if_false]

theorem roundTrips_of_wordOk (i : Instr) (ok : wordOk i = true) : RoundTrips i := by
  intro s w e
  obtain none | any | a | v | m | c : opOf i = 0 ∨ (0x01 ≤ opOf i ∧ opOf i < 0x40) ∨ (0x40 ≤ opOf i ∧ opOf i < 0x80) ∨
      (0x80 ≤ opOf i ∧ opOf i < 0xC0) ∨ (0xC0 ≤ opOf i ∧ opOf i < 0xE0) ∨ 0xE0 ≤ opOf i := by omega
  · cases (encodeCore_eq_none s i ok none).symm.trans e
  · exact roundTrips_any i (decide_eq_true any) s w e
  · exact roundTrips_A i ok (decide_eq_true a) s w e
  · exact roundTrips_V i ok (decide_eq_true v) s w e
  · exact roundTrips_M i (decide_eq_true m) s w e
  · exact roundTrips_C i ok (decide_eq_true c) s w e

end Sys2Proof
end

section
namespace Sys2Proof

/-- Settles O45: the core words by the clusters of their OPs, and the Sage words. -/
theorem decodeUndoesEncode : Obligations.DecodeUndoesEncode :=
  ⟨fun i s ok => ⟨fun core => encodeCore_isSome s i (decide_eq_true core), roundTrips_of_wordOk i ok s⟩, fun i w e _ => decodeSage_encodeSage i w e⟩

end Sys2Proof
end

section
/-!
PROOFS. How the words that make tasks pass their checks and end (R46 to R49, R413, R457).
-/

namespace Sys2Proof.Machine

/-- A word that is valid in its cluster and sound in its fields passes the checks of R361. -/
theorem checkWord_allowed {k : Cluster} {i : Instr} (h : opAllowed (opOf i) k = true) (f : fieldCheck i = none) : checkWord k i = none := by
  rw [checkWord, if_pos h, f]

/-- A word of cluster C that a loop end and DXW admit passes the gate there when its fields are sound. -/
theorem State.gate_C {s : State} {i : Instr} (c : s.cluster = .C) (h : opAllowed (opOf i) .C = true) (f : fieldCheck i = none)
    (e : endForbidden i = false) (e' : dxwForbidden i = false) : s.gate i = .ok () :=
  s.gate_ok i (by rw [c]; exact checkWord_allowed h f) e e'

theorem badDomain_of_ne {o : BitVec 3} (h0 : o ≠ 0) (h6 : o ≠ 6) (h7 : o ≠ 7) : badDomain o = false := by
  simp only [badDomain, h0, h6, h7, decide_false, Bool.or_self]

/-- A trap of a cause other than UNCORR stops the task at its word (R288, R290). -/
theorem State.settle_trapOf (s : State) {k : Nat} (h : k ≠ 0x1A) :
    s.settle (.error (trapOf k)) = s.stopPrecise .trap false ⟨k, 0, 0, [], 0⟩ := by
  simp [State.settle, trapOf, h]

/-- A word through the gate whose plan ends in a trap of a cause other than UNCORR. -/
theorem runWord_trapOf {s : State} {i : Instr} {p : State → Except Hold State} {k : Nat} (h : s.gate i = .ok ()) (q : p s = .error (trapOf k))
    (hk : k ≠ 0x1A) : runWord i s p = .next (s.stopPrecise .trap false ⟨k, 0, 0, [], 0⟩) := by
  rw [runWord_gate h, q, s.settle_trapOf hk]

section Making

variable {s : State} {d a b : BitVec 5} {m n : Bool} {o : BitVec 3} {code x y : DWord}
  (cluster : s.cluster = .C) (hd : s.src d s.femodeDef = .ok code) (ha : s.src a m = .ok x) (hb : s.src b n = .ok y)
  (h0 : o ≠ 0) (h6 : o ≠ 6) (h7 : o ≠ 7)

include cluster h0 h6 h7

theorem State.gate_spawn : s.gate (.spawn d a b m n o) = .ok () :=
  State.gate_C cluster rfl (by simp [fieldCheck, firstFail, badDomain_of_ne h0 h6 h7]) rfl rfl

theorem State.gate_join : s.gate (.join d a b m n o) = .ok () :=
  State.gate_C cluster rfl (by simp [fieldCheck, firstFail, badDomain_of_ne h0 h6 h7]) rfl rfl

include hd ha hb

/-- The domain code 5 and reserved options trap before the buffer is asked (R457). -/
theorem execSpawn_taskseq (bad : o = 5 ∨ y.extractLsb' 5 59 ≠ 0) :
    execSpawn d a b m n o s = .next (s.stopPrecise .trap false ⟨0x04, 0, 0, [], 0⟩) := by
  refine runWord_trapOf (State.gate_spawn cluster h0 h6 h7) ?_ (by decide)
  simp only [State.srcDef, hd, ha, hb, bind, Except.bind, if_pos bad]

/-- A sound SPAWN holds an entry while the buffer has room (R49). -/
theorem execSpawn_holds (sound : ¬(o = 5 ∨ y.extractLsb' 5 59 ≠ 0)) :
    execSpawn d a b m n o s =
      if 64 ≤ s.cur.spawn.length then .next (s.stopPrecise .trap false ⟨0x05, 0, 0, [], 0⟩)
      else .next (s.setCur (s.cur.hold ⟨false, s.cur.child o (code.extractLsb' 0 32) x y, 0, 0⟩)).retire := by
  rw [execSpawn, runWord_gate (State.gate_spawn cluster h0 h6 h7)]
  simp only [State.srcDef, hd, ha, hb, bind, Except.bind, if_neg sound]
  split
  · rw [s.settle_trapOf (by decide)]
  · rfl

/-- The domain code 5 and a join already open trap before the slot is translated (R413). -/
theorem execJoin_taskseq (bad : o = 5 ∨ s.cur.openJoin.isSome = true) :
    execJoin d a b m n o s = .next (s.stopPrecise .trap false ⟨0x04, 0, 0, [], 0⟩) := by
  refine runWord_trapOf (State.gate_join cluster h0 h6 h7) ?_ (by decide)
  simp only [State.srcDef, hd, ha, hb, bind, Except.bind, if_pos bad]

/-- A JOIN on a slot that can hold a continuation opens it while the buffer has room (R49, R413). -/
theorem execJoin_opens {r : ObjRec} {p : Part} (sound : ¬(o = 5 ∨ s.cur.openJoin.isSome = true))
    (fresh : s.freshRecord s.here (handleOf x) 1 = .ok r) (slot : r.slotOk (indexOf x) = true)
    (found : s.lookup s.here (handleOf x) 1 = .ok r)
    (place : s.locate s.here r (handleOf x) 1 (r.linear (indexOf x)) false = .ok p) :
    execJoin d a b m n o s =
      if 64 ≤ s.cur.spawn.length then .next (s.stopPrecise .trap false ⟨0x05, 0, 0, [], 0⟩)
      else .next (s.setCur { s.cur.hold ⟨true, s.cur.continuation o (code.extractLsb' 0 32) y, handleOf x, x.extractLsb' 0 32⟩ with
        openJoin := some ⟨handleOf x, x.extractLsb' 0 32, false⟩ }).retire := by
  rw [handleOf] at *
  rw [indexOf] at slot place
  rw [execJoin, runWord_gate (State.gate_join cluster h0 h6 h7)]
  simp only [State.srcDef, hd, ha, hb, bind, Except.bind, if_neg sound, fresh, slot, Bool.not_true, Bool.false_eq_true, if_false, found,
    place]
  split
  · rw [s.settle_trapOf (by decide)]
  · rfl

end Making

end Sys2Proof.Machine
end

section
namespace Sys2Proof.Machine

/-- Settles O18: the words' conditions in their order, each its own case. -/
theorem taskMakingWordsComplete : Obligations.TaskMakingWordsComplete := by
  intro s d a b m n o code x y r p cluster hd ha hb h0 h6 h7 trap
  exact ⟨fun h5 opts => execSpawn_holds cluster hd ha hb h0 h6 h7 (not_or.mpr ⟨h5, not_not.mpr opts⟩),
    execSpawn_taskseq cluster hd ha hb h0 h6 h7,
    fun h5 none => execJoin_opens cluster hd ha hb h0 h6 h7 (not_or.mpr ⟨h5, by simp [none]⟩),
    execJoin_taskseq cluster hd ha hb h0 h6 h7⟩

end Sys2Proof.Machine
end

section
/-!
PROOFS. Which core the state is focused on stays through the application of held entries (R50).
-/

namespace Sys2Proof.Machine

@[simp] theorem State.core_homeWrite (s : State) (a n v : Nat) : (s.homeWrite a n v).core = s.core := s.setHomeBytes_core _ _

@[simp] theorem State.core_setDirty (s : State) (a : Nat) : (s.setDirty a).core = s.core := s.core_homeWrite _ _ _

@[simp] theorem State.core_placeWrite (s : State) (n len v : Nat) (p : Place) : (s.placeWrite n len v p).core = s.core := by
  cases p <;> simp [State.placeWrite]

@[simp] theorem State.core_putCr (s : State) (n : Nat) (p : Place × Option Nat) (cr : Cr) : (s.putCr n p cr).core = s.core := by
  obtain ⟨p, _ | a⟩ := p <;> simp [State.putCr]

@[simp] theorem State.core_writeJoin (s : State) (n : Nat) (e : HeldEntry) : (s.writeJoin n e).core = s.core := by
  unfold State.writeJoin
  split <;> simp

@[simp] theorem State.core_setCounter (s : State) (n : Nat) (h : HoldRef) (v : Nat) : (s.setCounter n h v).core = s.core := by
  unfold State.setCounter
  split <;> simp

@[simp] theorem State.core_schedWrite (s : State) (ctx : BitVec 16) (h : BitVec 32) (off n mask v : Nat) :
    (s.schedWrite ctx h off n mask v).core = s.core := by
  unfold State.schedWrite
  split
  · rfl
  · dsimp only
    split <;> simp

@[simp] theorem State.core_enqueueReady (s : State) (launch : Nat) (ctx : BitVec 16) (cr : Cr) (gang : Option (Nat × Nat)) (ref : DWord)
    (x : Bool) (kept : Kept) : (s.enqueueReady launch ctx cr gang ref x kept).core = s.core := by
  simp only [State.enqueueReady, apply_ite State.core, State.core_schedWrite, ite_self]
  split
  · split <;> rfl
  · rfl

@[simp] theorem State.core_setLive (s : State) (ctx q : BitVec 16) (n : Nat) : (s.setLive ctx q n).core = s.core := by
  unfold State.setLive
  dsimp only
  split <;> simp

/-- A fold of changes that keep the focus keeps it. -/
theorem foldl_core {α : Type} (f : State → α → State) (h : ∀ s e, (f s e).core = s.core) (l : List α) (s : State) :
    (l.foldl f s).core = s.core := by
  induction l generalizing s with
  | nil => rfl
  | cons e l ih => rw [List.foldl_cons, ih, h]

theorem State.core_performHeld (s : State) (n : Nat) (es : List HeldEntry) : (s.performHeld n es).core = s.core := by
  have launched (t : State) (k : Nat) (l : Launch) : (t.setLaunch k l).core = t.core := rfl
  unfold State.performHeld
  dsimp only
  split
  all_goals
    simp [launched, State.makeReady, foldl_core, apply_ite State.core]

theorem State.core_applyHeld {s t : State} {n : Nat} (h : s.applyHeld n = .ok t) : t.core = s.core := by
  unfold State.applyHeld at h
  dsimp only at h
  split at h
  · cases h
    rfl
  · split at h
    · cases h
    · split at h
      · cases h
      · split at h
        · cases h
        · cases h
          exact s.core_performHeld n _

end Sys2Proof.Machine
end

section
/-!
PROOFS. The words that stop their cluster or task (R58, R361, R384, R463), and those of a task's clusters and of its end (R49, R52, R57, R387, R396,
R399, R410, R440, R462).
-/

namespace Sys2Proof.Machine

/-- A word of cluster C that a loop end or DXW forbids passes the gate away from both when its fields are sound. -/
theorem State.gate_C_away {s : State} {i : Instr} (c : s.cluster = .C) (h : opAllowed (opOf i) .C = true) (f : fieldCheck i = none)
    (e : s.atLoopEnd = false) (e' : s.cur.dxw.getLsbD 34 = false) : s.gate i = .ok () :=
  s.gate_away i (by rw [c]; exact checkWord_allowed h f) e e'

theorem State.gate_rdv {s : State} (e : s.atLoopEnd = false) (e' : s.cur.dxw.getLsbD 34 = false) : s.gate .rdv = .ok () :=
  s.gate_away _ (checkWord_any _ _ rfl rfl) e e'

/-- RDV stops a cluster other than C whose words have completed (R58). -/
theorem execRdv_stops {s : State} (h : s.cluster ≠ .C) (e : s.atLoopEnd = false) (e' : s.cur.dxw.getLsbD 34 = false)
    (done : s.cur.completed s.cluster = true) : execRdv s = .next s.retire.stopRunning := by
  refine runWord_done (State.gate_rdv e e') ?_
  rw [if_neg h, if_pos done]

/-- RDV lets C pass once the other clusters have stopped (R58). -/
theorem execRdv_passes {s : State} (h : s.cluster = .C) (e : s.atLoopEnd = false) (e' : s.cur.dxw.getLsbD 34 = false)
    (stopped : ∀ c : Cluster, c ≠ .C → (s.cur.cl c).running = false) : execRdv s = .next s.retire := by
  refine runWord_done (State.gate_rdv e e') ?_
  simp [h, stopped]

@[simp] theorem State.running_stopRunning (s : State) : s.stopRunning.cl.running = false := by
  simp [State.stopRunning]

theorem execIllegal_stops (c : BitVec 23) (s : State) :
    execIllegal c s = .next (s.stopPrecise .trap false ⟨0x01, 0x01, 0, [], 0⟩) := by
  rw [execIllegal, runWord_gate (s.gate_ok _ (checkWord_any _ _ rfl rfl) rfl rfl)]
  rfl

theorem execTrap_stops (v : BitVec 4) (c : BitVec 23) (s : State) :
    execTrap v c s = .next (s.stopPrecise .trap false ⟨0x0B, 0, (v ++ c).setWidth 64, [], 0⟩) := by
  rw [execTrap, runWord_gate (s.gate_ok _ (checkWord_allowed (by cases s.cluster <;> rfl) rfl) rfl rfl)]
  rfl

theorem State.gate_brk {s : State} (i : BitVec 16) (e : s.cur.dxw.getLsbD 34 = false) : s.gate (.brk i) = .ok () := by
  have word : checkWord s.cluster (.brk i) = none := checkWord_allowed (by cases s.cluster <;> rfl) rfl
  have inner : endForbidden (.brk i) = false := rfl
  simp only [State.gate, word, inner, e, Bool.false_and, Bool.and_false, Bool.false_eq_true, if_false]

/-- BRK is a debug stop in a context that allows debugging, else a trap (R329, R384). -/
theorem execBrk_stops (i : BitVec 16) (s : State) (e : s.cur.dxw.getLsbD 34 = false) :
    execBrk i s = .next (if s.cur.ctx.dbg then s.stopPrecise .fault true ⟨0x0C, 0, i.setWidth 64, [], 0⟩
      else s.stopPrecise .trap false ⟨0x0C, 0, i.setWidth 64, [], 0⟩) := by
  rw [execBrk, runWord_gate (State.gate_brk i e)]
  dsimp only
  split <;> rfl

theorem execIllegalRsvd_stops {w : Word} (s : State) (h : decode w = .error .rsvd) :
    execIllegalRsvd w s =
      .next (s.stopPrecise .trap false ⟨0x01, if opAllowed (w.extractLsb' 23 8).toNat s.cluster then 0x04 else 0x02, 0, [], 0⟩) := by
  rw [execIllegalRsvd, h]
  rfl

section ClusterC

variable {s : State} (cluster : s.cluster = .C)
include cluster

/-- FORK starts a cluster that does not run at an offset within its section (R57, R399). -/
theorem execFork_starts {k : BitVec 2} {i : BitVec 18} (e : s.atLoopEnd = false) (e' : s.cur.dxw.getLsbD 34 = false)
    (other : clusterOf k ≠ .C) (idle : (s.cur.cl (clusterOf k)).running = false) (inside : 4 * i.toNat < s.cur.sectionLength s) :
    execFork k i s = .next (s.setCur (s.cur.setCl (clusterOf k) ((s.cur.cl (clusterOf k)).fork (4 * i.toNat)))).retire := by
  refine runWord_done (State.gate_C_away cluster rfl rfl e e') ?_
  simp [other, idle, Nat.not_le.mpr inside]

/-- COMMIT completes when its commit has, or at once in a task without a version (R387). -/
theorem execCommit_done (idle : s.cur.committing = none) (h : s.cl.stage ≠ 0 ∨ s.cur.vresLines = 0) : execCommit s = .next s.retire := by
  refine runWord_done (State.gate_C cluster rfl rfl rfl rfl) ?_
  by_cases first : s.cl.stage = 0
  · simp [first, idle, h.resolve_left (not_not.mpr first)]
  · simp [first, idle]

/-- SVC takes the answer that has reached its core (R319, R462). -/
theorem execSvc_answered {d a b : BitVec 5} {m n : Bool} {j : BitVec 6} {w : SvcWait} {v : DWord} (waits : s.cl.stage = 3)
    (dest : s.aluDest d = .ok ()) (call : s.cur.svc = some w) (answer : w.answer = some v) :
    execSvc d a b m n j s = .next ((s.setCur { s.cur with svc := none }).putScal d v).retire := by
  obtain ⟨id, service, arg, ctx, frame, _⟩ := w
  subst answer
  refine runWord_done (State.gate_C cluster rfl rfl rfl rfl) ?_
  simp [waits, call, dest, bind, Except.bind]

/-- PHINT completes, and where a request is pending the save begins (R297, R440). -/
theorem execPhint_done {a b : BitVec 5} {m n : Bool} {x y : DWord} (ha : s.src a m = .ok x) (hb : s.src b n = .ok y) :
    execPhint a b m n s = .next (if s.cur.preempt = none then s.retire else s.retire.beginSave s.core (s.phintSave s.core x y)) := by
  rw [execPhint, runWord_gate (State.gate_C cluster rfl rfl rfl rfl)]
  simp only [ha, hb, bind, Except.bind, Option.isNone_iff_eq_none]
  split <;> rfl

/-- IINV leaves no core a word of the object (R170, R410). -/
theorem execIinv_drops {a : BitVec 5} {m : Bool} {x : DWord} {r : ObjRec} (ha : s.src a m = .ok x)
    (found : s.lookup s.here (x.extractLsb' 0 32) 3 = .ok r) :
    execIinv a m s =
      (let key := objectKey s.here.root (x.extractLsb' 0 32)
       .next (if r.isScratch then s.setCur (s.cur.dropWords (s.fetchedFrom s.here r) key)
         else { s with cores := s.cores.mapValues fun c => c.dropWords (s.fetchedFrom s.here r) key }).retire) := by
  refine runWord_done (State.gate_C cluster rfl rfl rfl rfl) ?_
  simp only [ha, found, bind, Except.bind]

/-- DONE ends the task once its commit has completed and its held entries are applied (R49, R52, R396). -/
theorem execDone_ends {t : State} (e : s.atLoopEnd = false) (e' : s.cur.dxw.getLsbD 34 = false) (begun : s.cl.stage = 8)
    (idle : s.cur.committing = none) (reached : s.holdReached s.core = .ok ()) (held : s.applyHeld s.core = .ok t)
    (reached' : t.holdReached s.core = .ok ()) : execDone s = .next (t.retire.endTask t.core) := by
  have core : t.core = s.core := State.core_applyHeld held
  refine runWord_done (State.gate_C_away cluster rfl rfl e e') ?_
  simp [begun, idle, reached, held, core, reached', bind, Except.bind]

end ClusterC

end Sys2Proof.Machine
end

section
namespace Sys2Proof.Machine

/-- Settles O20: each word through its gate. -/
theorem stoppingWordsStop : Obligations.StoppingWordsStop := by
  intro s c v i w
  exact ⟨fun other e e' done => ⟨execRdv_stops other e e' done, s.retire.running_stopRunning⟩, execIllegal_stops c s, execTrap_stops v c s,
    execBrk_stops i s, execIllegalRsvd_stops s⟩

/-- Settles O19: the words of a task's clusters and of its end, each past its gate. -/
theorem taskWordsComplete : Obligations.TaskWordsComplete := by
  intro s t d a b m n k i j x y r e e' cluster ha hb
  exact ⟨execFork_starts cluster e e', execRdv_passes cluster e e', execCommit_done cluster,
    execDone_ends cluster e e',
    fun waits dest _ _ => execSvc_answered cluster waits dest,
    execPhint_done cluster ha hb, execIinv_drops cluster ha⟩

end Sys2Proof.Machine
end

section
/-!
PROOFS. The events of launches (R39, R45, R66, R71, R85, R87).
-/

namespace Sys2Proof.Machine

/-- A mapped slot without an error whose ring holds a next entry that can be read takes it (R66, R85). -/
theorem execLaunchAccept_takes {s : State} {slot a : Nat} (mapped : (s.queue slot).state = .mapped) (sound : (s.queue slot).err = 0)
    (more : (s.queue slot).head ≠ (s.queue slot).tail) (entry : s.ringEntry (s.queue slot) = .ok a) :
    execLaunchAccept slot s = .next (s.acceptRecord slot (BitVec.ofNat 1024 (s.homeRead a 128))) := by
  rw [execLaunchAccept, if_neg (by simp [mapped, sound, more])]
  simp only [entry]

section Known

variable {s : State} {launch : Nat} {l : Launch} (known : s.launch launch = some l)
include known

theorem execLaunchComplete_over (h : l.over = true) : execLaunchComplete launch s = .next (s.writeCompletion launch l) := by
  simp only [execLaunchComplete, known, h, if_true]

theorem execCompletionRecordTimeout_late {t : Nat} (held : l.heldSince = some t) (late : t + 10000000 ≤ s.dcc) :
    execCompletionRecordTimeout launch s = .next ((s.queueFails l.ctx l.qnum 0x03).forgetLaunch launch) := by
  simp only [execCompletionRecordTimeout, known, held, late, if_true]

variable {k : Nat} (slot : s.slotOf l.ctx l.qnum = some k) (mapped : (s.queue k).state = .mapped) (sound : l.status = 0)
  (left : l.expanded.length < l.total)
  (room : (s.ready.filter fun r => r.ctx = l.ctx && r.cr.qnum = l.qnum && r.fromExpansion).length < 64)
include slot mapped sound left room

/-- A launch without gangs expands one task while the ready area has room (R39, R71). -/
theorem execLaunchExpansion_task (alone : l.gangLevel = none) (space : s.liveOf l.ctx l.qnum < (s.queue k).readyn) :
    execLaunchExpansion launch s =
      .next (s.expandTask launch (s.queue k).basep none (l.nextTask (Config.pick (8 * s.steps + 4) % l.total))) := by
  simp only [execLaunchExpansion, known, slot, mapped, sound, Nat.not_le.mpr left, Nat.not_le.mpr room, ne_eq, not_true, or_self, if_false,
    alone, space, if_true]

/-- A launch of gangs expands a whole gang while the ready area has room for it (R39, R71). -/
theorem execLaunchExpansion_gang {g : Nat} (gang : l.gangLevel = some g) (space : s.liveOf l.ctx l.qnum + l.inner g ≤ (s.queue k).readyn) :
    let first := l.nextTask (Config.pick (8 * s.steps + 4) % l.total) / l.inner g * l.inner g
    execLaunchExpansion launch s =
      .next ((List.range (l.inner g)).foldl (fun t i =>
        t.expandTask launch (s.queue k).basep (some (launch * 2 ^ 32 + l.linearOf first / l.inner g, l.inner g)) (first + i)) s) := by
  simp only [execLaunchExpansion, known, slot, mapped, sound, Nat.not_le.mpr left, Nat.not_le.mpr room, ne_eq, not_true, or_self, if_false,
    gang, space, if_true]

end Known

end Sys2Proof.Machine
end

section
namespace Sys2Proof.Machine

/-- Settles O30: each event under what enables it. -/
theorem launchEventsComplete : Obligations.LaunchEventsComplete := by
  intro s slot launch k l a q
  exact ⟨execLaunchAccept_takes, fun known => ⟨execLaunchComplete_over known, fun _ => execCompletionRecordTimeout_late known,
    fun slot mapped sound left room => ⟨execLaunchExpansion_task known slot mapped sound left room,
      fun _ => execLaunchExpansion_gang known slot mapped sound left room⟩⟩⟩

end Sys2Proof.Machine
end

section
/-!
PROOFS. The events of the scheduler (R34, R43, R74 to R79, R260).
-/

namespace Sys2Proof.Machine

@[simp] theorem State.choose_nil (s : State) : s.choose [] = none := rfl

/-- Where no reservation is in the way of any candidate, none is chosen to have one released. -/
theorem State.choose_inTheWay_none {s : State} {cores : List Nat} {rs : List ReadyCr} (h : (rs.map (s.inTheWay cores)).flatten = []) :
    s.choose (rs.filter fun x => !(s.inTheWay cores x).isEmpty) = none := by
  have clear : ∀ x ∈ rs, s.inTheWay cores x = [] := by simpa using h
  have noneLeft : rs.filter (fun x => !(s.inTheWay cores x).isEmpty) = [] := by
    rw [List.filter_eq_nil_iff]
    intro x hx
    simp [clear x hx]
  rw [noneLeft, State.choose_nil]

section Pop

variable {s : State} {die : Nat} (small : die < 2) {r : ReadyCr}
include small

/-- A reservation in the way of the best candidate that has one is released (R78). -/
theorem execTaskPop_releases
    (best : s.refill.choose ((s.refill.ready.filter fun x => x.team.isNone && (s.refill.mappedSlot x).isSome).filter
      fun x => !(s.refill.inTheWay (dieCores die) x).isEmpty) = some r) :
    execTaskPop die s = .next (s.refill.release (s.refill.inTheWay (dieCores die) r)) := by
  simp only [execTaskPop, if_neg (Nat.not_le.mpr small), best]

/-- Where no reservation is in the way, the best candidate of a die is popped (R74). -/
theorem execTaskPop_pops
    (clear : ((s.refill.ready.filter fun x => x.team.isNone && (s.refill.mappedSlot x).isSome).map
      (s.refill.inTheWay (dieCores die))).flatten = [])
    (best : s.refill.choose (s.refill.ready.filter fun x =>
      if x.team.isNone then (s.refill.mappedSlot x).isSome && !(s.refill.placesFor (dieCores die) x).isEmpty
      else s.refill.mayReserve die x) = some r) :
    execTaskPop die s = .next (s.refill.popped die r) := by
  simp only [execTaskPop, if_neg (Nat.not_le.mpr small), State.choose_inTheWay_none clear, best]

/-- The best gang of a die without a reservation takes one (R78). -/
theorem execGangReservation_pops (best : s.refill.choose (s.refill.ready.filter (s.refill.mayReserve die)) = some r) :
    execGangReservation die s = .next (s.refill.popped die r) := by
  simp only [execGangReservation, if_neg (Nat.not_le.mpr small), best]

end Pop

theorem State.popped_alone {s : State} {die n : Nat} {r : ReadyCr} (alone : r.team = none)
    (core : s.bestCore (s.placesFor (dieCores die) r) = some n) : s.popped die r = s.startTask n r := by
  simp only [State.popped, alone, core]

theorem State.popped_gang {s : State} {die g : Nat} {r : ReadyCr} (gang : r.team = some g) : s.popped die r = s.reserve die r g := by
  simp only [State.popped, gang]

/-- A gang whose reservation holds a core for each member starts on them together (R43). -/
theorem execGangStart_starts {s : State} {g : Nat} {v : Reservation} {pairs : List (ReadyCr × Nat)}
    (held : (s.refill.reservations.find? fun w => w.gang = g) = some v)
    (fits : s.refill.assign v.cores (s.refill.members g) = some pairs) :
    execGangStart g s = .next (pairs.foldl (fun u e => u.startTask e.2 e.1) (s.refill.release [v])) := by
  simp only [execGangStart, held, fits]

/-- A task that has not started goes on where its code pointer passes (R34). -/
theorem execFirstFetch_starts {s : State} {core : Nat} (busy : (s.coreAt core).busy = true) (fresh : (s.coreAt core).started = false)
    (going : (s.coreAt core).stop = none) (kept : (s.coreAt core).save = none) (code : s.codeCheck core = .ok ()) :
    execFirstFetch core s = .next (s.setCoreAt core { s.coreAt core with started := true }) := by
  rw [execFirstFetch, if_neg (by simp [busy, fresh, going, kept])]
  simp only [code]

/-- The rate of a quad that has an unfenced core (R260). -/
theorem State.nextRate_of_unfenced {s : State} {quad : Nat} (h : ∃ i < 4, s.cfence.getLsbD (4 * quad + i) = false) :
    s.nextRate quad =
      if (s.throttle quad).delivered < 4 * (s.throttle quad).deflected ∨ (s.throttle quad).aged then max 1 ((s.throttle quad).rate / 2)
      else min 16 ((s.throttle quad).rate + 1) := by
  obtain ⟨i, hi, free⟩ := h
  have notAll : ¬ ((List.range 4).all fun i => s.cfence.getLsbD (4 * quad + i)) = true := by
    rw [List.all_eq_true]
    intro all
    exact absurd (all i (List.mem_range.mpr hi)) (by simp [free])
  simp only [State.nextRate, if_neg notAll, Throttle.crowded, decide_eq_true_eq]

/-- The update of a quad's throttle, told what became of its flits (R260). -/
theorem execThrottleUpdate_updates {s : State} {quad : Nat} (h : quad < 16) :
    execThrottleUpdate quad (s.throttle quad).crowded (s.throttle quad).aged s = .next (s.updateThrottle quad) := by
  rw [execThrottleUpdate, if_neg (by simpa using h)]

end Sys2Proof.Machine
end

section
namespace Sys2Proof.Machine

/-- Settles O31: each event under what enables it; TASK_POP by what the chosen candidate needs. -/
theorem schedulerEventsComplete : Obligations.SchedulerEventsComplete := by
  intro s die n g core quad r v pairs t
  refine ⟨fun small => ?pop, execGangStart_starts, execFirstFetch_starts, fun small => ?throttle⟩
  case pop =>
    intro cores rs
    refine ⟨fun clear best => ⟨fun alone place => ?_, fun gang => ?_⟩, execTaskPop_releases small, fun best gang => ?_⟩
    · rw [exec_taskPop, execTaskPop_pops small clear best, State.popped_alone alone place]
    · rw [exec_taskPop, execTaskPop_pops small clear best, State.popped_gang gang]
    · rw [exec_gangReservation, execGangReservation_pops small best, State.popped_gang gang]
  case throttle =>
    intro h free new
    exact (execThrottleUpdate_updates small).trans (by rw [State.updateThrottle, State.nextRate_of_unfenced free])

end Sys2Proof.Machine
end

section
/-!
PROOFS. The events that end waits (R61, R94, R475, R476).
-/

namespace Sys2Proof.Machine

/-- A block-mode wait of a running cluster that has lasted LIMIT cycles raises FEMPTY (R94). -/
theorem execFemodeLimitExpiry_due {s : State} {core t : Nat} {k : Cluster} (going : (s.coreAt core).stop = none)
    (running : ((s.coreAt core).cl k).running = true) (blocked : ((s.coreAt core).cl k).blocked = true)
    (limit : ((s.coreAt core).cl k).limit ≠ 0) (since : ((s.coreAt core).cl k).since = some t)
    (late : ((s.coreAt core).cl k).waitFrom + ((s.coreAt core).cl k).limit ≤ s.dcc) :
    execFemodeLimitExpiry core k s =
      .next (({ s with core := core, cluster := k } : State).stopPrecise .fault false ⟨0x02, 0, 0, [], 0⟩) := by
  rw [execFemodeLimitExpiry, if_pos ⟨by simp [going], running, by simp [since], blocked, limit, late⟩]

/-- The first cluster whose sync wait has reached LIMIT traps the task with SYNCTO (R61, R291). -/
theorem execSynctoExpiry_due {s : State} {core : Nat} {k : Cluster} (going : (s.coreAt core).stop = none)
    (busy : (s.coreAt core).busy = true) (limit : ((s.coreAt core).syncto.extractLsb' 0 32).toNat ≠ 0)
    (first : ([Cluster.C, .A, .V, .M].find? fun j => ((s.coreAt core).cl j).running &&
      decide (((s.coreAt core).syncto.extractLsb' 0 32).toNat ≤ ((s.coreAt core).cl j).syncWaited s.dcc)) = some k) :
    execSynctoExpiry core s = .next (({ s with core := core, cluster := k } : State).stopPrecise .trap false ⟨0x03, 0, 0, [], 0⟩) := by
  rw [execSynctoExpiry, if_neg (by simp only [going, busy, limit, Option.isSome_none, Bool.not_true, Bool.false_eq_true, or_self, not_false_iff])]
  simp only [first]

/-- WAITD whose target DCC has reached writes DCC (R476). -/
theorem execWaitd_reached {s : State} {d a : BitVec 5} {m : Bool} {v : DWord} (ha : s.src a m = .ok v) (dest : s.aluDest d = .ok ())
    (reached : v.toNat ≤ s.dcc) : execWaitd d a m s = .next ((s.putScal d (BitVec.ofNat 64 s.dcc)).retire) := by
  refine runWord_done (s.gate_ok _ (checkWord_allowed (by cases s.cluster <;> rfl) rfl) rfl rfl) ?_
  simp only [ha, dest, bind, Except.bind, if_neg (Nat.not_lt.mpr reached)]

/-- WAITCT that has waited its limit for a command in flight completes with TOUT (R475). -/
theorem execWaitct_late {s : State} {d a b : BitVec 5} {m n : Bool} {v limit : DWord} (cluster : s.cluster = .A) (ha : s.src a m = .ok v)
    (hb : s.src b n = .ok limit) (nonzero : limit ≠ 0) (dest : s.aluDest d = .ok ())
    (flying : s.cur.waitCommand (v.extractLsb' 0 16) = .ok none) (late : s.waitedFor limit.toNat = true) :
    execWaitct d a b m n s = .next ((s.putScal d 0x200).retire) := by
  refine runWord_done (s.gate_ok _ (by rw [cluster]; exact checkWord_allowed rfl rfl) rfl rfl) ?_
  simp only [ha, hb, bind, Except.bind, if_neg nonzero, flying, dest, late, if_true]

theorem execWaitdTargetReached_waiting {s : State} {core : Nat} {k : Cluster} {d a : BitVec 5} {m : Bool}
    (word : s.waitingWord core k = some (.waitd d a m)) : execWaitdTargetReached core k s = execWaitd d a m (s.at core k) := by
  simp only [execWaitdTargetReached, word]

theorem execWaitctTimeout_waiting {s : State} {core : Nat} {d a b : BitVec 5} {m n : Bool}
    (word : s.waitingWord core .A = some (.waitct d a b m n)) :
    execWaitctTimeout core s = execWaitct d a b m n (s.at core .A) := by
  simp only [execWaitctTimeout, allClusters, List.findSome?_cons, word]

end Sys2Proof.Machine
end

section
namespace Sys2Proof.Machine

/-- Settles O33: two limits raise their stops, and two waiting words complete as they would at their own issue. -/
theorem waitEventsComplete : Obligations.WaitEventsComplete := by
  intro s core t k d a b m n v limit x c at_
  refine ⟨execFemodeLimitExpiry_due, execSynctoExpiry_due, fun word ha dest reached => ?target, fun word => ?timeout⟩
  case target =>
    rw [exec_waitdTargetReached, execWaitdTargetReached_waiting word]
    exact execWaitd_reached ha dest reached
  case timeout =>
    intro u ha hb nonzero dest flying late
    rw [exec_waitctTimeout, execWaitctTimeout_waiting word]
    exact execWaitct_late rfl ha hb nonzero dest flying late

end Sys2Proof.Machine
end

section
/-!
PROOFS. How a step reaches the meaning of the word or event that its mover has next (R34, R55, R59, R275, R290).
-/

namespace Sys2Proof.Machine

/-- An outcome with its next state changed; a fault or a refusal stays. -/
def onNext (g : State → State) : Host.Outcome State Fault Refusal → Host.Outcome State Fault Refusal
  | .next t => .next (g t)
  | .fault f => .fault f
  | .refused r => .refused r

/-- The state after a word read at `a` has been attempted: a word of another node is not kept once it has issued. -/
def State.forgetFar (n : Nat) (k : Cluster) (a : Nat) (t : State) : State :=
  if a = farWord ∧ ((t.coreAt n).cl k).since.isNone then t.dropAsks n (askFetch k) else t

/-- A step is its mover's move, and then time goes on. -/
theorem step_eq_onNext_pass (s : State) : step s = onNext State.pass s.move := by
  unfold step
  cases s.move <;> rfl

theorem State.move_word {s : State} {n : Nat} {k : Cluster} (mover : s.mover = .word n k) : s.move = s.wordStep n k := by
  simp only [State.move, mover]

theorem State.move_sage {s : State} {g : Nat} (mover : s.mover = .sage g) : s.move = s.sageStep g := by
  simp only [State.move, mover]

theorem State.move_event {s : State} {e : Event} (mover : s.mover = .event e) : s.move = runEvent e s := by
  simp only [State.move, mover]

section Word

variable {s : State} {n a : Nat} {k : Cluster} {w : Word} (running : (s.coreAt n).executes k = false)
  (fetched : s.fetch n k ((s.coreAt n).cl k).pc = .ok (a, w))
include running fetched

theorem State.nextWord_fetched : s.nextWord n k = .ok (some a, w) := by
  simp only [State.nextWord, running, fetched, Bool.false_eq_true, if_false]

theorem State.syncNext_fetched : s.syncNext n k = w.getLsbD 31 := by
  simp only [State.syncNext, State.nextWord_fetched running fetched]

variable (free : ¬(k = .M ∧ (s.coreAt n).stampHeld = true))
include free

/-- A word behind an access that may still stop its task precisely waits (R290). -/
theorem State.attempt_behind (behind : s.behindFault n k w = true) : s.attempt n k = .next ((s.focus n k).waited 0 0) := by
  simp only [State.attempt, if_neg free, State.nextWord_fetched running fetched, behind, if_true]

/-- Any other word runs the instruction it decodes to (R55). -/
theorem State.attempt_issues {d : Decoded} (clear : s.behindFault n k w = false) (decoded : decode w = .ok d) :
    s.attempt n k = onNext (State.forgetFar n k a) (exec d.instr ((s.focus n k).cached n k (some a) w)) := by
  simp only [State.attempt, if_neg free, State.nextWord_fetched running fetched, clear, State.issue, decoded, Option.some.injEq,
    Bool.false_eq_true, if_false]
  cases exec d.instr ((s.focus n k).cached n k (some a) w) <;> rfl

end Word

section Step

variable {s : State} {n : Nat} {k : Cluster} (running : (s.coreAt n).executes k = false) (issues : (s.coreAt n).issues k = true)
  (free : ¬(k = .M ∧ (s.coreAt n).stampHeld = true)) (paid : (s.coreAt n).owedLate s.dcc = false)
include running issues free paid

/-- A cluster in no lockstep group whose next word has S clear moves alone (R55, R59). -/
theorem State.wordStep_alone (plain : s.syncNext n k = false) (unlocked : ((s.coreAt n).cl k).lock = false) :
    s.wordStep n k = s.attempt n k := by
  simp only [State.wordStep, running, issues, free, paid, plain, unlocked, Bool.not_true, Bool.false_eq_true, or_self, if_false]

/-- A cluster whose sync wait counts as satisfied moves alone at an S word (R291). -/
theorem State.wordStep_satisfied (sync : s.syncNext n k = true) (satisfied : ((s.coreAt n).cl k).satisfied = true) :
    s.wordStep n k = s.soloStep n k := by
  simp only [State.wordStep, running, issues, free, paid, sync, satisfied, Bool.not_true, Bool.false_eq_true, or_self, if_false, if_true]

end Step

/-- The step of a cluster that moves alone and issues, or stops its task, is the attempt of its word (R291). -/
theorem State.soloStep_issued {s t : State} {n : Nat} {k : Cluster}
    (h : (s.setCoreAt n ((s.coreAt n).setCl k { (s.coreAt n).cl k with syncWait := false })).attempt n k = .next t)
    (finished : (t.didIssue n k || t.didStop n) = true) : s.soloStep n k = .next t := by
  simp only [State.soloStep, h, finished, if_true]

/-- A running Sage core runs the G instruction at its program counter (R275). -/
theorem State.sageStep_runs {s : State} {g : Nat} {i : Instr} (running : (s.sageAt g).running = true) (low : 0 ≤ (s.sageAt g).pc)
    (high : (s.sageAt g).pc < 65536)
    (decoded : decodeSage (BitVec.ofNat 32 ((s.sageAt g).imem.read (s.sageAt g).pc.toNat 4)) = .ok i) :
    s.sageStep g = exec i { s with sage := g } := by
  have inside : ¬((s.sageAt g).pc < 0 ∨ 65536 ≤ (s.sageAt g).pc) := by omega
  simp only [State.sageStep, running, if_neg inside, decoded, Bool.not_true, Bool.false_eq_true, if_false]

end Sys2Proof.Machine
end

section
namespace Sys2Proof.Machine

/-- Settles O47: a step through its mover's move, and a word's move through its attempt. -/
theorem stepRunsTheDecodedInstruction : Obligations.StepRunsTheDecodedInstruction := by
  intro s n g a k w d i e f passed c forgets
  have passed_eq : passed = onNext State.pass := by
    funext r
    cases r <;> rfl
  have forgets_eq : forgets = onNext (State.forgetFar n k a) := by
    funext r
    cases r <;> rfl
  rw [passed_eq, forgets_eq, step_eq_onNext_pass]
  refine ⟨fun mover running issues free paid decoded => ⟨fun unlocked fetched plain => ?alone, ?solo⟩,
    fun mover running low high decoded => ?sage, fun mover event => ?event⟩
  case alone =>
    have alone := State.wordStep_alone running issues free paid ((State.syncNext_fetched running fetched).trans plain) unlocked
    rw [State.move_word mover, alone]
    exact ⟨fun clear => by rw [State.attempt_issues running fetched free clear decoded],
      fun behind => by rw [State.attempt_behind running fetched free behind, onNext]⟩
  case solo =>
    intro u sync satisfied fetched clear running' free' t next issued
    have attempt := (State.attempt_issues running' fetched free' clear decoded).trans next
    rw [State.move_word mover, State.wordStep_satisfied running issues free paid sync satisfied,
      State.soloStep_issued attempt issued, onNext]
  case sage =>
    rw [State.move_sage mover, State.sageStep_runs running low high decoded]
  case event =>
    rw [State.move_event mover, event]

end Sys2Proof.Machine
end

section
/-!
PROOFS. The events of the hardware queues (R68 to R70, R72).
-/

namespace Sys2Proof.Machine

/-- A notify write of an aligned doubleword reaches the slot of its page where the bridge to that slot's die works (R14, R69). -/
theorem execNotifyWrite_reaches {s : State} {slot offset : Nat} {v : DWord} (small : slot < 128) (page : offset / 65536 = slot)
    (aligned : offset % 8 = 0) (bridge : 64 ≤ slot → s.bridgeFailed = false) :
    execNotifyWrite offset v s = .next (s.notify slot v) := by
  have reached : slot < 64 ∨ (slot < 128 ∧ !s.bridgeFailed) := by
    by_cases near : slot < 64
    · exact .inl near
    · exact .inr ⟨small, by simp [bridge (Nat.le_of_not_lt near)]⟩
  simp only [execNotifyWrite, page, if_pos (And.intro aligned reached)]

section Notify

variable {s : State} {slot : Nat}

theorem State.notify_free {v : DWord} (free : (s.queue slot).state = .free) : s.notify slot v = s.count keyNotifyDrop := by
  simp only [State.notify, free]

theorem State.notify_mapped {v : DWord} (mapped : (s.queue slot).state = .mapped) :
    s.notify slot v = s.takeNotify slot (v.extractLsb' 0 32) := by
  simp only [State.notify, mapped]

theorem State.notify_unmapping {v : DWord} (unmapping : (s.queue slot).state = .unmapping) :
    s.notify slot v = s.pendNotify (s.queue slot).mappedAt (v.extractLsb' 0 32) := by
  simp only [State.notify, unmapping]

variable {v : BitVec 32}

theorem State.takeNotify_stale (stale : v = (s.queue slot).tail ∨ 2 ^ 31 ≤ (v - (s.queue slot).tail).toNat) : s.takeNotify slot v = s :=
  if_pos (stale.imp_left sub_eq_zero.mpr)

variable (differs : v ≠ (s.queue slot).tail) (ahead : (v - (s.queue slot).tail).toNat < 2 ^ 31)
include differs ahead

/-- A newer value is TAIL where it leaves at most a full ring, and else an error of the queue (R67, R69). -/
theorem State.takeNotify_newer :
    s.takeNotify slot v =
      if (v - (s.queue slot).head).toNat ≤ 2 ^ (s.queue slot).logn then s.setQueue slot { s.queue slot with tail := v }
      else s.queueError slot 0x01 :=
  if_neg (not_or.mpr ⟨mt sub_eq_zero.mp differs, Nat.not_le.mpr ahead⟩)

theorem State.takeNotify_moves (fits : (v - (s.queue slot).head).toNat ≤ 2 ^ (s.queue slot).logn) :
    s.takeNotify slot v = s.setQueue slot { s.queue slot with tail := v } := by
  rw [State.takeNotify_newer differs ahead, if_pos fits]

theorem State.takeNotify_overruns (overrun : 2 ^ (s.queue slot).logn < (v - (s.queue slot).head).toNat) :
    s.takeNotify slot v = s.queueError slot 0x01 := by
  rw [State.takeNotify_newer differs ahead, if_neg (Nat.not_le.mpr overrun)]

end Notify

section Mapping

variable {s : State} {slot : Nat} (small : slot < 128)
include small

/-- The map command is accepted in state FREE, for a descriptor in memory that is not mapped (R68). -/
theorem State.mapCommand_accepts {a : Nat} (free : (s.queue slot).state = .free) (offered : s.offered a 64 = true)
    (unmapped : s.homeRead (a + 24) 1 / 2 % 2 = 0) : s.mapCommand slot a = (s.mapSlot slot a).adoptReady slot := by
  rw [State.mapCommand, if_neg (Nat.not_le.mpr small)]
  exact if_pos ⟨free, offered, unmapped⟩

theorem State.mapCommand_refuses {a : Nat}
    (bad : (s.queue slot).state ≠ .free ∨ s.offered a 64 = false ∨ s.homeRead (a + 24) 1 / 2 % 2 = 1) :
    s.mapCommand slot a = s.setQueue slot { s.queue slot with merr := true } := by
  rw [State.mapCommand, if_neg (Nat.not_le.mpr small)]
  refine if_neg fun ⟨free, offered, unmapped⟩ => ?_
  rcases bad with taken | absent | mapped
  · exact taken free
  · exact absurd offered (by simp [absent])
  · omega

/-- The unmap command is accepted in state MAPPED (R70). -/
theorem State.unmapCommand_accepts {a : Nat} (mapped : (s.queue slot).state = .mapped) :
    s.unmapCommand slot a =
      (s.setQueue slot { s.queue slot with desca := a, merr := false, state := .unmapping, boost := 0 }).writeBack slot := by
  rw [State.unmapCommand, if_neg (Nat.not_le.mpr small)]
  exact if_pos mapped

theorem State.unmapCommand_refuses {a : Nat} (other : (s.queue slot).state ≠ .mapped) :
    s.unmapCommand slot a = s.setQueue slot { s.queue slot with merr := true } := by
  rw [State.unmapCommand, if_neg (Nat.not_le.mpr small)]
  exact if_neg other

end Mapping

/-- Once no notify translated before the command is under way, unmapping ends (R70). -/
theorem execUnmapComplete_ends {s : State} {slot : Nat} (unmapping : (s.queue slot).state = .unmapping)
    (arrived : s.notifyUnderWay slot = false) :
    execUnmapComplete slot s =
      (let q := s.queue slot
       let flags := s.homeRead (q.mappedAt + 24) 1
       .next (((s.writeBack slot).homeWrite (q.mappedAt + 24) 1 (flags / 4 * 4 + flags % 2)).setQueue slot { q with state := .free })) := by
  simp only [execUnmapComplete, if_pos unmapping, arrived, Bool.false_eq_true, if_false]

/-- An interval in which a mapped queue held a Ready record raises its boost (R72). -/
theorem execAgeingInterval_boosts {s : State} {slot : Nat} (mapped : (s.queue slot).state = .mapped)
    (held : ∃ r ∈ s.ready, r.ctx = (s.queue slot).ctx ∧ r.cr.qnum = (s.queue slot).qnum)
    (ended : (s.queue slot).intervalStart + (s.queue slot).ageus * 1000 ≤ s.dcc) :
    execAgeingInterval slot s =
      (let q := s.queue slot
       .next (s.setQueue slot { q with boost := min 31 (q.boost + 1), intervalStart := q.intervalStart + q.ageus * 1000 })) := by
  have someReady : (s.ready.any fun r => r.ctx = (s.queue slot).ctx && r.cr.qnum = (s.queue slot).qnum) = true := by
    simpa using held
  simp only [execAgeingInterval, if_pos (And.intro mapped (And.intro someReady ended))]

end Sys2Proof.Machine
end

section
namespace Sys2Proof.Machine

/-- Settles O29: a notify write by the state of its slot, the commands by whether they are accepted, the other events under what enables them. -/
theorem queueEventsComplete : Obligations.QueueEventsComplete := by
  intro s slot offset v small page aligned bridge q a value
  have notify : exec (.notifyWrite offset v) s = .next (s.notify slot v) := execNotifyWrite_reaches small page aligned bridge
  rw [notify, exec_mapQueue, execMapQueue, exec_unmapQueue, execUnmapQueue]
  refine ⟨fun free => ?dropped, fun mapped stale => ?stale, fun mapped differs ahead fits => ?moves, fun mapped differs ahead overrun => ?overruns,
    fun unmapping => ?pends, fun free offered unmapped => ?maps, fun bad => ?mapError, fun mapped => ?unmaps, fun other => ?unmapError,
    execUnmapComplete_ends, execAgeingInterval_boosts⟩
  case dropped => rw [State.notify_free free]
  case stale => rw [State.notify_mapped mapped, State.takeNotify_stale stale]
  case moves => rw [State.notify_mapped mapped, State.takeNotify_moves differs ahead fits]
  case overruns =>
    rw [State.notify_mapped mapped, State.takeNotify_overruns differs ahead overrun]
    rfl
  case pends => rw [State.notify_unmapping unmapping]
  case maps => rw [State.mapCommand_accepts small free offered unmapped]
  case mapError => rw [State.mapCommand_refuses small bad]
  case unmaps => rw [State.unmapCommand_accepts small mapped]
  case unmapError => rw [State.unmapCommand_refuses small other]

end Sys2Proof.Machine
end

section
/-!
PROOFS. The events of the arrays (R82, R157, R230 to R232, R234, R236).
-/

namespace Sys2Proof.Machine

/-- A pending MMUL without all its steps of B does not issue (R232). -/
theorem State.mayIssue_of_steps_lt {s : State} {n : Nat} {y : Bool} {p : PendingOp} (h : p.steps.length < 128) : s.mayIssue n y p = false := by
  simp only [State.mayIssue, State.operandsReady, decide_eq_false h.ne, Bool.false_and, Bool.and_false]

section Pending

variable {s : State} {core : Nat} {y : ArrayId} {p : PendingOp} (pend : ((s.coreAt core).array (isArrayY y)).pend = some p)
  (going : (s.coreAt core).stop = none) (kept : (s.coreAt core).save = none)
include pend going kept

/-- A pending MMUL whose stamp is due issues at its cycle alone (R82). -/
theorem execMmulArrayIssue_stampDue (stamped : p.stamp ≠ 0) (due : p.stamp.toNat ≤ s.dcc) :
    execMmulArrayIssue core y s =
      .next (if p.stamp.toNat = s.dcc ∧ s.mayIssue core (isArrayY y) p then s.arrayIssue core (isArrayY y) p
        else s.missStamp core (isArrayY y) p) := by
  simp only [execMmulArrayIssue, pend, going, kept, Option.isSome_none, Bool.false_eq_true, false_and, or_self, if_false,
    if_pos (And.intro stamped due)]

/-- A checked MMUL issues where the conditions of R232 hold, a stamped one at its cycle. -/
theorem execMmulArrayIssue_issues (checked : p.checked = true) (timely : p.stamp = 0 ∨ p.stamp.toNat = s.dcc)
    (ready : s.mayIssue core (isArrayY y) p = true) : execMmulArrayIssue core y s = .next (s.arrayIssue core (isArrayY y) p) := by
  by_cases unstamped : p.stamp = 0
  · simp only [execMmulArrayIssue, pend, going, kept, unstamped, checked, ready, Option.isSome_none, Bool.false_eq_true, Bool.not_true, ne_eq,
      not_true, false_and, or_self, if_false, and_self, if_true]
  · have now := timely.resolve_left unstamped
    rw [execMmulArrayIssue_stampDue pend going kept unstamped now.le, if_pos ⟨now, ready⟩]

/-- A stamp that is past, or reached without the conditions of R232, is missed (R82). -/
theorem execMmulArrayIssue_misses (stamped : p.stamp ≠ 0) (due : p.stamp.toNat ≤ s.dcc)
    (missed : p.stamp.toNat < s.dcc ∨ s.mayIssue core (isArrayY y) p = false) :
    execMmulArrayIssue core y s = .next (s.missStamp core (isArrayY y) p) := by
  rw [execMmulArrayIssue_stampDue pend going kept stamped due, if_neg]
  rintro ⟨now, ready⟩
  rcases missed with past | unready
  · exact past.ne now
  · exact absurd ready (by simp [unready])

/-- Until its stamp is due, a checked MMUL that may not stage a row reads the next step of B (R230). -/
theorem execMmulArrayIssue_reads (checked : p.checked = true) (early : p.stamp = 0 ∨ s.dcc < p.stamp.toNat) (left : p.steps.length < 128)
    (noRow : ((s.coreAt core).array (isArrayY y)).mayStage p = false) :
    execMmulArrayIssue core y s =
      .next (s.pendRead core (isArrayY y) p (fun x => { p with steps := p.steps ++ [x] })
        (s.fetchStep (p.reader core (isArrayY y) s.dcc) p.regs (.ofBits p.entry) p.steps.length)) := by
  have notDue : ¬(p.stamp ≠ 0 ∧ p.stamp.toNat ≤ s.dcc) := by
    rintro ⟨stamped, due⟩
    exact Nat.not_le.mpr (early.resolve_left stamped) due
  simp only [execMmulArrayIssue, pend, going, kept, if_neg notDue, checked, State.mayIssue_of_steps_lt left, noRow, left, Option.isSome_none,
    Bool.false_eq_true, Bool.not_true, false_and, and_false, or_self, if_false, if_true]

end Pending

/-- The first staged row of the MMUL in an array enters in its turn, where no further row is requested before it (R231, R232, R234). -/
theorem execMmulRowEntry_enters {s : State} {core : Nat} {y : ArrayId} {o : ArrayOp} {xs sa : List Nat} {rest : List (List Nat × List Nat)}
    (entering : ((s.coreAt core).array (isArrayY y)).entering = some o) (kept : (s.coreAt core).save = none) (latched : o.latched = true)
    (turn : ((s.coreAt core).array (isArrayY y)).rowBlocked o o.row = false) (rows : o.regs.queueA = false)
    (staged : o.staged = (xs, sa) :: rest)
    (noMore : 16 ≤ o.staged.length ∨ 128 ≤ o.row + o.staged.length ∨ Config.pick (8 * s.steps + 2) % 2 = 1) :
    execMmulRowEntry core y s = .next (s.enterRow core (isArrayY y) { o with staged := rest } xs sa) := by
  have entersNext : ¬((decide (o.staged.length < 16) && decide (o.row + o.staged.length < 128)) = true ∧
      (o.staged.isEmpty = true ∨ ((s.coreAt core).array (isArrayY y)).rowBlocked o o.row = true ∨ Config.pick (8 * s.steps + 2) % 2 = 0)) := by
    simp only [Bool.and_eq_true, decide_eq_true_eq, turn, Bool.false_eq_true, false_or, staged, List.isEmpty_cons] at noMore ⊢
    omega
  have entered : s.enterStaged core (isArrayY y) o = s.enterRow core (isArrayY y) { o with staged := rest } xs sa := by
    simp only [State.enterStaged, staged, turn, Bool.false_eq_true, if_false]
  simp only [execMmulRowEntry, entering, kept, latched, rows, if_neg entersNext, entered, Option.isSome_none, Bool.false_eq_true, Bool.not_true,
    false_and, and_false, or_self, if_false]

section Draining

variable {s : State} {core : Nat} {y : ArrayId} {o : ArrayOp} (draining : ((s.coreAt core).array (isArrayY y)).draining = some o)
include draining

/-- The next row of a drain, located in its turn, is written while no read of an array waits (R219, R234, R236). -/
theorem execDrainRow_drains {r : ObjRec} {ps : List Part} (turn : ((s.coreAt core).array (isArrayY y)).rowBlocked o o.row = false)
    (noRead : (s.coreAt core).arrayWaits = false) (place : s.drainPlaces core o = .ok (r, ps)) :
    execDrainRow core y s = .next (s.drainOne core (isArrayY y) o r (drainCoords o.regs.mc o.row) ps) := by
  simp only [execDrainRow, draining, turn, noRead, place, Bool.false_eq_true, or_self, if_false]

/-- A drain that waits at a unit that is not present can be ended by a trap of its array (R157, R236). -/
theorem execDrainResidTrap_traps {info : TrapInfo} (waits : o.waiting = true) (absent : s.drainPlaces core o = .error (.fault info)) :
    execDrainResidTrap core y s = .next (s.takeStop core .trap (arrayUnit (isArrayY y)) 0 true false info 0) := by
  simp only [execDrainResidTrap, draining, waits, absent, Bool.not_true, Bool.false_eq_true, if_false]

end Draining

end Sys2Proof.Machine
end

section
namespace Sys2Proof.Machine

/-- Settles O34: the pending MMUL by its stamp and its operands, then the rows that enter and drain. -/
theorem arrayEventsComplete : Obligations.ArrayEventsComplete := by
  intro s t core y p o xs sa rest r ps info c array e read
  refine ⟨fun pend checked going kept => ⟨execMmulArrayIssue_issues pend going kept checked, execMmulArrayIssue_misses pend going kept, ?reads⟩,
    execMmulRowEntry_enters, fun draining => ⟨execDrainRow_drains draining, execDrainResidTrap_traps draining⟩⟩
  case reads =>
    intro early left noRow fetched
    rw [exec_mmulArrayIssue, execMmulArrayIssue_reads pend going kept checked early left noRow, fetched]
    rfl

end Sys2Proof.Machine
end

section
/-!
PROOFS. s0, the words that write a scalar, and when a change of a scalar is seen (R90, R91).
-/

namespace Sys2Proof.Machine

@[simp] theorem State.src_zero (s : State) (m : Bool) : s.src 0 m = .ok 0 := rfl

@[simp] theorem Core.change_zero (c : Core) (now : Nat) (k : Cluster) (v : DWord) (g : Bool) : c.change now k 0 v g = c := rfl

@[simp] theorem Core.produce_zero (c : Core) (now : Nat) (k : Cluster) (divider : Bool) (r : Option DWord) : c.produce now k 0 divider r = c := rfl

@[simp] theorem State.putScal_zero (s : State) (v : DWord) : s.putScal 0 v = s.setCur s.cur := rfl

theorem State.aluDest_zero (s : State) : s.aluDest 0 = .ok () := rfl

/-- MOV writes its source to a destination that can be written (R429). -/
theorem execMov_done {s : State} {d a : BitVec 5} {m : Bool} {v : DWord} (ha : s.src a m = .ok v) (dest : s.aluDest d = .ok ()) :
    execMov d a m s = .next (s.putScal d v).retire := by
  refine runWord_done (s.gate_ok _ (checkWord_any _ _ rfl rfl) rfl rfl) ?_
  simp only [ha, dest, bind, Except.bind]

/-- LI writes its immediate, sign-extended, to a destination that can be written (R418). -/
theorem execLi_done {s : State} {d : BitVec 5} (i : BitVec 18) (dest : s.aluDest d = .ok ()) :
    execLi d i s = .next (s.putScal d (i.signExtend 64)).retire := by
  refine runWord_done (s.gate_ok _ (checkWord_any _ _ rfl rfl) rfl rfl) ?_
  simp only [planSet, dest, bind, Except.bind]

@[simp] theorem Core.halting_change (c : Core) (now : Nat) (k : Cluster) (r : BitVec 5) (v : DWord) (g : Bool) :
    (c.change now k r v g).halting = c.halting := by
  unfold Core.change
  split <;> rfl

theorem Core.reg_change_same (c : Core) (now : Nat) (k : Cluster) {r : BitVec 5} (h : r ≠ 0) (v : DWord) (g : Bool) :
    (c.change now k r v g).reg r = { c.reg r with hist := insertChange ⟨now, k, v, g⟩ (pruneHist now (c.reg r).hist) } := by
  rw [Core.change, if_neg h]
  exact Tab.get_put _ _ _ _

/-- A word that has not waited changes no scalar by retiring, in a core that is not halting. -/
theorem State.reg_retire_fresh (s : State) (h : s.cl.since = none) (hh : s.cur.halting = false) (r : BitVec 5) :
    s.retire.cur.reg r = s.cur.reg r := by
  rw [s.retire_fresh h hh, State.cur_setCur, Core.reg_dxwRetired]
  rfl

theorem mem_of_mem_pruneHist {now : Nat} {e : Change} {l : List Change} (h : e ∈ pruneHist now l) : e ∈ l := by
  induction l with
  | nil => exact h
  | cons t r ih =>
    unfold pruneHist at h
    split at h
    · exact List.mem_cons.mpr ((List.mem_cons.mp h).imp_right fun h => absurd h List.not_mem_nil)
    · exact List.mem_cons.mpr ((List.mem_cons.mp h).imp_right ih)

/-- A change of a later cycle than all others stands first (R96). -/
theorem insertChange_latest {e : Change} {l : List Change} (h : ∀ t ∈ l, t.cycle < e.cycle) : insertChange e l = e :: l := by
  cases l with
  | nil => rfl
  | cons t r =>
    have before : t.cycle < e.cycle := h t List.mem_cons_self
    have first : t.outlasts e = false := by
      simp only [Change.outlasts, decide_eq_false before.not_gt, decide_eq_false before.ne, Bool.false_and, Bool.or_false]
    rw [insertChange, first]
    rfl

/-- The changes dropped at a cycle are seen by no cluster from the next cycle on: one above them is (R91). -/
theorem readHist_pruneHist {now later : Nat} (h : now ≤ later) (k : Cluster) (l : List Change) :
    readHist later k (pruneHist now l) = readHist later k l := by
  induction l with
  | nil => rfl
  | cons e r ih =>
    unfold pruneHist
    split
    next old =>
      have seen : e.seenBy later k = true := by simp [Change.seenBy, Nat.le_trans old h]
      simp only [readHist, seen, if_true]
    next => rw [readHist, readHist, ih]

section Written

variable {c : Core} {now : Nat} {d : BitVec 5} (nonzero : d ≠ 0) (earlier : ∀ e ∈ (c.reg d).hist, e.cycle < now)
include nonzero earlier

/-- A scalar changed after all its other changes has the change first (R91). -/
theorem Core.hist_change (j : Cluster) (v : DWord) (g : Bool) :
    ((c.change now j d v g).reg d).hist = ⟨now, j, v, g⟩ :: pruneHist now (c.reg d).hist := by
  rw [Core.reg_change_same c now j nonzero]
  exact insertChange_latest fun t h => earlier t (mem_of_mem_pruneHist h)

variable {later : Nat} (j k : Cluster) (v : DWord) (g : Bool)

/-- The change is read by a cluster that sees it. -/
theorem Core.view_change_seen (seen : (⟨now, j, v, g⟩ : Change).seenBy later k = true) : (c.change now j d v g).view later k d = (v, g) := by
  rw [Core.view, if_neg nonzero, Core.hist_change nonzero earlier, readHist, if_pos seen]

/-- A cluster that does not see the change reads what it read before. -/
theorem Core.view_change_unseen (unseen : (⟨now, j, v, g⟩ : Change).seenBy later k = false) (h : now ≤ later) :
    (c.change now j d v g).view later k d = c.view later k d := by
  rw [Core.view, Core.view, if_neg nonzero, if_neg nonzero, Core.hist_change nonzero earlier, readHist, unseen, if_neg Bool.false_ne_true,
    readHist_pruneHist h]

/-- At the register the change is there from the next cycle on, whoever made it. -/
theorem Core.viewNow_change (also : Option Bool) (h : now < later) : (c.change now j d v g).viewNow later k also d = (v, g) := by
  have there : (⟨now, j, v, g⟩ : Change).atRegister later k also = true := by simp [Change.atRegister, h]
  rw [Core.viewNow, if_neg nonzero, Core.hist_change nonzero earlier, readHistNow, if_pos there]

end Written

/-- A scalar reads by its register alone. -/
theorem Core.view_congr {c c' : Core} {d : BitVec 5} (h : c'.reg d = c.reg d) (now : Nat) (k : Cluster) : c'.view now k d = c.view now k d := by
  rw [Core.view, Core.view, h]

theorem Core.viewNow_congr {c c' : Core} {d : BitVec 5} (h : c'.reg d = c.reg d) (now : Nat) (k : Cluster) (also : Option Bool) :
    c'.viewNow now k also d = c.viewNow now k also d := by
  rw [Core.viewNow, Core.viewNow, h]

end Sys2Proof.Machine
end

section
namespace Sys2Proof.Machine

/-- Settles O52: nothing is done to s0, and MOV to s0 is a MOV like any other. -/
theorem scalarZero : Obligations.ScalarZero := fun s _ _ _ _ _ _ v _ =>
  ⟨rfl, s.src_zero _, Core.change_zero .., Core.produce_zero .., s.putScal_zero v, fun _ ha => execMov_done ha s.aluDest_zero⟩

/-- Settles O53: the word's change stands first in its scalar's history, and each reader sees it or not by its cycle. -/
theorem scalarChangesSeen : Obligations.ScalarChangesSeen := by
  intro s t d i k now also nonzero earlier dest halting since done other
  obtain rfl : (s.putScal d (i.signExtend 64)).retire = t := Host.Outcome.next.inj ((execLi_done i dest).symm.trans done)
  have changed : (s.putScal d (i.signExtend 64)).cur = s.cur.change s.dcc s.cluster d (i.signExtend 64) true := s.cur_putScal _ _
  have written : (s.putScal d (i.signExtend 64)).retire.cur.reg d = (s.cur.change s.dcc s.cluster d (i.signExtend 64) true).reg d := by
    rw [State.reg_retire_fresh, changed]
    · show ((s.putScal d _).cur.cl s.cluster).since = none
      rw [changed, Core.cl_change]
      exact since
    · rw [changed, Core.halting_change]
      exact halting
  have seen (next : s.dcc < now) (j : Cluster) :
      (s.cur.change s.dcc s.cluster d (i.signExtend 64) true).viewNow now j also d = (i.signExtend 64, true) :=
    Core.viewNow_change nonzero earlier _ _ _ _ also next
  simp only [Core.view_congr written, Core.viewNow_congr written]
  refine ⟨fun next => ?own, fun next => ?others, ?notYet, fun next => ⟨seen next k, seen next s.cluster⟩⟩
  case own => exact Core.view_change_seen nonzero earlier _ _ _ _ (by simp [Change.seenBy, next])
  case others => exact Core.view_change_seen nonzero earlier _ _ _ _ (by simp [Change.seenBy, next])
  case notYet => exact Core.view_change_unseen nonzero earlier _ _ _ _ (by simp [Change.seenBy, other.symm]) (Nat.le_succ _)

end Sys2Proof.Machine
end

section
/-!
PROOFS. The registers of a hardware loop and the stage predicates, at LOOP and at the loop end action (R98 to R100).
-/

namespace Sys2Proof.Machine

section Fields

variable (ps pc : DWord) (i : BitVec 32) (act inner : Bool) (stg : BitVec 3)

@[simp] theorem Loop.iter_mkLpx : (⟨ps, pc, mkLpx i act inner stg⟩ : Loop).iter = i := by
  show (i ++ 0#24 ++ BitVec.ofBool act ++ BitVec.ofBool inner ++ 0#3 ++ stg).extractLsb' 32 32 = i
  simp (disch := decide) only [extract_append_high, Nat.reduceSub, extract_whole]

@[simp] theorem Loop.act_mkLpx : (⟨ps, pc, mkLpx i act inner stg⟩ : Loop).act = act := by
  show (i ++ 0#24 ++ BitVec.ofBool act ++ BitVec.ofBool inner ++ 0#3 ++ stg).getLsbD 7 = act
  simp (disch := decide) only [bit_append_high, bit_append_low, Nat.reduceSub, bit_ofBool]

@[simp] theorem Loop.inner_mkLpx : (⟨ps, pc, mkLpx i act inner stg⟩ : Loop).inner = inner := by
  show (i ++ 0#24 ++ BitVec.ofBool act ++ BitVec.ofBool inner ++ 0#3 ++ stg).getLsbD 6 = inner
  simp (disch := decide) only [bit_append_high, bit_append_low, Nat.reduceSub, bit_ofBool]

@[simp] theorem Loop.stg_mkLpx : (⟨ps, pc, mkLpx i act inner stg⟩ : Loop).stg = stg.toNat := by
  show ((i ++ 0#24 ++ BitVec.ofBool act ++ BitVec.ofBool inner ++ 0#3 ++ stg).extractLsb' 0 3).toNat = stg.toNat
  simp (disch := decide) only [extract_append_low, extract_whole]

variable (px : DWord) (x y : BitVec 32)

@[simp] theorem Loop.count_append : (⟨ps, x ++ y, px⟩ : Loop).count = x := by
  show (x ++ y).extractLsb' 32 32 = x
  simp (disch := decide) only [extract_append_high, Nat.reduceSub, extract_whole]

@[simp] theorem Loop.trip_append : (⟨ps, x ++ y, px⟩ : Loop).trip = y.toNat := by
  show ((x ++ y).extractLsb' 0 32).toNat = y.toNat
  simp (disch := decide) only [extract_append_low, extract_whole]

@[simp] theorem Loop.last_append : (⟨x ++ y, pc, px⟩ : Loop).last = x.toNat := by
  show ((x ++ y).extractLsb' 32 32).toNat = x.toNat
  simp (disch := decide) only [extract_append_high, Nat.reduceSub, extract_whole]

@[simp] theorem Loop.first_append : (⟨x ++ y, pc, px⟩ : Loop).first = y.toNat := by
  show ((x ++ y).extractLsb' 0 32).toNat = y.toNat
  simp (disch := decide) only [extract_append_low, extract_whole]

end Fields

/-- A loop with its INNER cleared, as a LOOP leaves the other one (R99). -/
def Loop.outer (l : Loop) : Loop := { l with lpx := l.lpx &&& 0xFFFFFFFFFFFFFFBF#64 }

/-- A mask of ones over a field leaves the field. -/
theorem extract_and_ones {w k len : Nat} (x m : BitVec w) (ones : ∀ i : Fin len, m.getLsbD (k + i) = true) :
    (x &&& m).extractLsb' k len = x.extractLsb' k len := by
  apply BitVec.eq_of_getLsbD_eq
  intro i hi
  simp only [BitVec.getLsbD_extractLsb', BitVec.getLsbD_and, ones ⟨i, hi⟩, Bool.and_true]

section Outer

variable (l : Loop)

@[simp] theorem Loop.inner_outer : l.outer.inner = false := by
  simp [Loop.outer, Loop.inner]

@[simp] theorem Loop.act_outer : l.outer.act = l.act := by
  simp [Loop.outer, Loop.act]

@[simp] theorem Loop.iter_outer : l.outer.iter = l.iter := extract_and_ones _ _ (by decide)

@[simp] theorem Loop.stg_outer : l.outer.stg = l.stg := congrArg BitVec.toNat (extract_and_ones _ _ (by decide))

end Outer

section Step

variable (l : Loop)

@[simp] theorem Loop.iter_step : l.step.1.iter = l.iter + 1 := Loop.iter_mkLpx ..

@[simp] theorem Loop.count_step : l.step.1.count = l.count - 1 := Loop.count_append ..

@[simp] theorem Loop.trip_step : l.step.1.trip = l.trip := Loop.trip_append ..

@[simp] theorem Loop.stg_step : l.step.1.stg = l.stg := Loop.stg_mkLpx ..

@[simp] theorem Loop.inner_step : l.step.1.inner = l.inner := Loop.inner_mkLpx ..

@[simp] theorem Loop.lps_step : l.step.1.lps = l.lps := rfl

@[simp] theorem Loop.first_step : l.step.1.first = l.first := rfl

@[simp] theorem Loop.last_step : l.step.1.last = l.last := rfl

/-- The body runs again while COUNT was not 1 (R100). -/
@[simp] theorem Loop.again_step : l.step.2 = decide (l.count ≠ 1) := by
  show decide (l.count - 1 ≠ 0) = decide (l.count ≠ 1)
  simp only [sub_ne_zero]

/-- An active loop stays active while its body runs again. -/
theorem Loop.act_step (act : l.act = true) : l.step.1.act = decide (l.count ≠ 1) := by
  have stepped : l.step.1.act = (l.act && l.step.2) := (Loop.act_mkLpx ..).trans (by simp [Loop.step])
  rw [stepped, act, Bool.true_and, Loop.again_step]

end Step

section Stages

/-- The bits of a byte from bit `k` on, kept at their places. -/
theorem bit_kept (p : Byte) (k : Nat) {j : Nat} (hj : j < 8) :
    (BitVec.ofNat 8 (p.toNat >>> k <<< k)).getLsbD j = (decide (k ≤ j) && p.getLsbD j) := by
  rw [BitVec.getLsbD_ofNat, decide_eq_true hj, Bool.true_and, Nat.testBit_shiftLeft, Nat.testBit_shiftRight]
  by_cases h : k ≤ j
  · rw [Nat.add_sub_cancel' h, BitVec.testBit_toNat]
  · simp [h]

/-- The stage predicates p2 to pk after a rotation: each is what the one before it was (R100). -/
theorem bit_moved (p : Byte) (k : Nat) {j : Nat} (hj : j < 8) :
    (BitVec.ofNat 8 ((p.toNat >>> 1 <<< 2) % 2 ^ (k + 1))).getLsbD j = (decide (2 ≤ j ∧ j ≤ k) && p.getLsbD (j - 1)) := by
  rw [BitVec.getLsbD_ofNat, decide_eq_true hj, Bool.true_and, Nat.testBit_mod_two_pow, Nat.testBit_shiftLeft, Nat.testBit_shiftRight]
  by_cases h : 2 ≤ j
  · rw [show 1 + (j - 2) = j - 1 by omega, BitVec.testBit_toNat]
    simp [h]
  · simp [h]

/-- Of p1 to p7, the constant that tells a start has p1 alone, and the other none. -/
theorem bit_starts : ∀ (starts : Bool) (j : Fin 8), 0 < j.val → (if starts then 3 else 1 : Byte).getLsbD j = (starts && decide (j.val = 1)) := by
  decide

/-- What the rotation makes of each predicate (R100). -/
theorem bit_rotatePreds (p : Byte) (k : Nat) (starts : Bool) {j : Nat} (low : 0 < j) (high : j < 8) :
    (rotatePreds p k starts).getLsbD j = if k < j then p.getLsbD j else if j = 1 then starts else p.getLsbD (j - 1) := by
  unfold rotatePreds
  split
  next unstaged => rw [unstaged, if_pos low]
  next staged =>
    simp only [BitVec.getLsbD_or, bit_moved p k high, bit_kept p (k + 1) high, bit_starts starts ⟨j, high⟩ low]
    by_cases above : k < j
    · simp [above, show ¬j ≤ k by omega, show ¬j = 1 by omega]
    · by_cases one : j = 1
      · simp [one, staged]
      · simp [above, one, show 2 ≤ j by omega, show j ≤ k by omega]

/-- The stage predicates of an armed loop: p1 set, those up to pk clear (R99). -/
theorem bit_armed (p : Byte) {k : Nat} (rotates : 0 < k) {j : Nat} (low : 0 < j) (high : j < 8) :
    (BitVec.ofNat 8 (p.toNat >>> (k + 1) <<< (k + 1)) ||| 3).getLsbD j = if j ≤ k then decide (j = 1) else p.getLsbD j := by
  have three : (3 : Byte).getLsbD j = decide (j = 1) := bit_starts true ⟨j, high⟩ low
  rw [BitVec.getLsbD_or, bit_kept p (k + 1) high, three]
  by_cases staged : j ≤ k
  · simp [staged, show ¬k + 1 ≤ j by omega]
  · simp [staged, show k + 1 ≤ j by omega, show ¬j = 1 by omega]

end Stages

end Sys2Proof.Machine
end

section
/-!
PROOFS. The loop end action and the arming of a loop (R99, R100, R420).
-/

namespace Sys2Proof.Machine

section Cluster

variable (x : ClusterState) (n : Bool) (l : Loop)

@[simp] theorem ClusterState.loop_setLoop : (x.setLoop n l).loop n = l := by cases n <;> rfl

@[simp] theorem ClusterState.loop_setLoop_not : (x.setLoop (!n) l).loop n = x.loop n := by cases n <;> rfl

@[simp] theorem ClusterState.loop_not_setLoop : (x.setLoop n l).loop (!n) = x.loop (!n) := by cases n <;> rfl

@[simp] theorem ClusterState.loop_withPc (p : Int) : ({ x with pc := p } : ClusterState).loop n = x.loop n := rfl

@[simp] theorem ClusterState.loop_issued : x.issued.loop n = x.loop n := rfl

@[simp] theorem ClusterState.pc_issued : x.issued.pc = x.pc := rfl

@[simp] theorem ClusterState.pred_issued : x.issued.pred = x.pred := rfl

variable (back : Bool)

/-- The landing of a halt changes no more than that it is due (R331). -/
theorem ClusterState.landed_eq : x.landed back = { x with haltDue := (x.landed back).haltDue } := by
  unfold ClusterState.landed
  split <;> rfl

@[simp] theorem ClusterState.loop_landed : (x.landed back).loop n = x.loop n := congrArg (·.loop n) (x.landed_eq back)

@[simp] theorem ClusterState.pc_landed : (x.landed back).pc = x.pc := congrArg (·.pc) (x.landed_eq back)

@[simp] theorem ClusterState.pred_landed : (x.landed back).pred = x.pred := congrArg (·.pred) (x.landed_eq back)

end Cluster

theorem State.cl_setCur (s : State) (c : Core) : (s.setCur c).cl = c.cl s.cluster := by
  show (s.setCur c).cur.cl s.cluster = c.cl s.cluster
  rw [State.cur_setCur]

section Fresh

variable {s : State} (since : s.cl.since = none) (halting : s.cur.halting = false)
include since halting

theorem State.cl_retire_fresh : s.retire.cl = s.cl.advance.1.issued.landed s.cl.advance.2 := by
  rw [s.retire_fresh since halting, State.cl_setCur, Core.cl_dxwRetired, Core.cl_setCl]

theorem State.cl_goTo_fresh (p : Int) : (s.goTo p).cl = ({ s.cl with pc := p } : ClusterState).issued.landed false := by
  rw [s.goTo_fresh p since halting, State.cl_setCur, Core.cl_dxwRetired, Core.cl_setCl]

end Fresh

section EndAction

/-- What an end action of loop `n` makes of a cluster's loops and predicates (R100). -/
def ClusterState.EndsTrip (x y : ClusterState) (n : Bool) : Prop :=
  let l := x.loop n
  let m := y.loop n
  m.iter = l.iter + 1 ∧ m.count = l.count - 1 ∧ m.trip = l.trip ∧ m.stg = l.stg ∧ m.lps = l.lps ∧ m.inner = l.inner ∧
  m.act = decide (l.count ≠ 1) ∧ y.loop (!n) = x.loop (!n) ∧
  (∀ j, 0 < j → j < 8 →
    y.pred.getLsbD j = if l.stg < j then x.pred.getLsbD j else if j = 1 then decide ((l.iter + 1).toNat < l.trip) else x.pred.getLsbD (j - 1))

/-- An end action is seen in the loops and the predicates alone. -/
theorem ClusterState.EndsTrip.congr {x y z : ClusterState} {n : Bool} (h : x.EndsTrip y n) (loops : ∀ i, z.loop i = y.loop i)
    (pred : z.pred = y.pred) : x.EndsTrip z n := by
  unfold ClusterState.EndsTrip
  rw [loops, loops, pred]
  exact h

variable (x : ClusterState) (n : Bool)

theorem ClusterState.endAction_eq :
    x.endAction n =
      ({ x.setLoop n (x.loop n).step.1 with
         pred := rotatePreds x.pred (x.loop n).stg (decide (((x.loop n).iter + 1).toNat < (x.loop n).trip))
         pc := if (x.loop n).count = 1 then ((x.loop n).last : Int) + 4 else (x.loop n).first },
       decide ((x.loop n).count ≠ 1)) := by
  have stepped : x.endAction n =
      if (x.loop n).step.2 then
        ({ x.setLoop n (x.loop n).step.1 with
           pred := rotatePreds x.pred (x.loop n).step.1.stg (decide ((x.loop n).step.1.iter.toNat < (x.loop n).step.1.trip))
           pc := (x.loop n).step.1.first }, true)
      else
        ({ x.setLoop n (x.loop n).step.1 with
           pred := rotatePreds x.pred (x.loop n).step.1.stg (decide ((x.loop n).step.1.iter.toNat < (x.loop n).step.1.trip))
           pc := (x.loop n).step.1.last + 4 }, false) := rfl
  rw [stepped]
  by_cases last : (x.loop n).count = 1
  · simp only [Loop.again_step, last, ne_eq, not_true, decide_false, Bool.false_eq_true, if_false, if_true, Loop.stg_step, Loop.iter_step,
      Loop.trip_step, Loop.last_step]
  · simp only [Loop.again_step, last, ne_eq, not_false_iff, decide_true, if_false, if_true, Loop.stg_step, Loop.iter_step, Loop.trip_step,
      Loop.first_step]

@[simp] theorem ClusterState.pc_endAction :
    (x.endAction n).1.pc = if (x.loop n).count = 1 then ((x.loop n).last : Int) + 4 else (x.loop n).first := by
  rw [ClusterState.endAction_eq]

@[simp] theorem ClusterState.again_endAction : (x.endAction n).2 = decide ((x.loop n).count ≠ 1) := by
  rw [ClusterState.endAction_eq]

@[simp] theorem ClusterState.loop_endAction : (x.endAction n).1.loop n = (x.loop n).step.1 := by
  rw [ClusterState.endAction_eq]
  exact x.loop_setLoop n _

@[simp] theorem ClusterState.loop_not_endAction : (x.endAction n).1.loop (!n) = x.loop (!n) := by
  rw [ClusterState.endAction_eq]
  exact x.loop_not_setLoop n _

theorem ClusterState.pred_endAction :
    (x.endAction n).1.pred = rotatePreds x.pred (x.loop n).stg (decide (((x.loop n).iter + 1).toNat < (x.loop n).trip)) := by
  rw [ClusterState.endAction_eq]

theorem ClusterState.endsTrip_endAction {x : ClusterState} {n : Bool} (act : (x.loop n).act = true) : x.EndsTrip (x.endAction n).1 n := by
  refine ⟨?_, ?_, ?_, ?_, ?_, ?_, ?_, x.loop_not_endAction n, fun j low high => ?rotated⟩
  case rotated => rw [ClusterState.pred_endAction, bit_rotatePreds _ _ _ low high]
  all_goals simp [Loop.act_step, act]

end EndAction

section Advance

variable {x : ClusterState} {n : Bool}

theorem ClusterState.act_of_atEnd (h : x.atEnd n = true) : (x.loop n).act = true := (Bool.and_eq_true_iff.mp h).1

/-- At the end of one loop its end action follows (R100). -/
theorem ClusterState.advance_one (h : x.atEnd n = true) (other : x.atEnd (!n) = false) : x.advance = x.endAction n := by
  cases n
  · simp [ClusterState.advance, h, show x.atEnd true = false from other]
  · simp [ClusterState.advance, h, show x.atEnd false = false from other]

/-- At the end of both, that with INNER acts first (R100). -/
theorem ClusterState.advance_both (h : x.atEnd n = true) (h' : x.atEnd (!n) = true) (inner : (x.loop n).inner = true)
    (outer : (x.loop !n).inner = false) :
    x.advance = if (x.loop n).count = 1 then (x.endAction n).1.endAction (!n) else ((x.endAction n).1, true) := by
  have first : x.loop1.inner = n := by
    cases n
    · exact outer
    · exact inner
  have both : x.atEnd false = true ∧ x.atEnd true = true := by
    cases n
    · exact ⟨h, h'⟩
    · exact ⟨h', h⟩
  by_cases last : (x.loop n).count = 1 <;> simp [ClusterState.advance, first, both, last]

end Advance

theorem execNop_done (s : State) : execNop s = .next s.retire :=
  runWord_done (s.gate_ok _ (checkWord_any _ _ rfl rfl) rfl rfl) rfl

/-- A word that may not stand at a loop's end traps there with LOOPEND (R100). -/
theorem runWord_atLoopEnd {s : State} {i : Instr} (p : State → Except Hold State) (forbidden : endForbidden i = true)
    (atEnd : s.atLoopEnd = true) (h : checkWord s.cluster i = none) :
    runWord i s p = .next (s.stopPrecise .trap false ⟨0x01, 0x07, 0, [], 0⟩) := by
  simp [runWord, State.gate, h, forbidden, atEnd, State.settle, ilg]

theorem State.atLoopEnd_of_atEnd {s : State} {n : Bool} (h : s.cl.atEnd n = true) : s.atLoopEnd = true := by
  cases n <;> simp [State.atLoopEnd, h]

section Arming

/-- A loop armed for `n` trips (R99). -/
def Loop.armed (start last n k : Nat) (inner : Bool) : Loop :=
  ⟨BitVec.ofNat 32 last ++ BitVec.ofNat 32 start, BitVec.ofNat 32 (if n = 0 then 0 else n + max k 1 - 1) ++ BitVec.ofNat 32 n,
    mkLpx 0 (decide (n ≠ 0)) inner (BitVec.ofNat 3 k)⟩

/-- The predicates of a cluster that arms such a loop (R99). -/
def armedPreds (p : Byte) (n k : Nat) : Byte := if n = 0 ∨ k = 0 then p else BitVec.ofNat 8 (p.toNat >>> (k + 1) <<< (k + 1)) ||| 3

/-- A cluster whose loop `l` is armed (R99). -/
def ClusterState.armed (x : ClusterState) (l : Bool) (start last n k : Nat) : ClusterState :=
  { (x.setLoop l (.armed start last n k (x.loop !l).act)).setLoop (!l) (x.loop !l).outer with pred := armedPreds x.pred n k }

section Cluster

variable (x : ClusterState) (l : Bool) (start last n k : Nat)

@[simp] theorem ClusterState.loop_armed : (x.armed l start last n k).loop l = .armed start last n k (x.loop !l).act :=
  (ClusterState.loop_setLoop_not ..).trans (ClusterState.loop_setLoop ..)

@[simp] theorem ClusterState.loop_not_armed : (x.armed l start last n k).loop (!l) = (x.loop !l).outer := ClusterState.loop_setLoop ..

@[simp] theorem ClusterState.pred_armed : (x.armed l start last n k).pred = armedPreds x.pred n k := rfl

end Cluster

variable (s : State) (l : Bool) (start last n k : Nat)

theorem State.armLoop_eq : s.armLoop l start last n k = (s.setCl (s.cl.armed l start last n k)).goTo (if n = 0 then (last : Int) + 4 else start) :=
  rfl

section Fresh

variable (since : s.cl.since = none) (halting : s.cur.halting = false)
include since halting

/-- What the arming makes of a cluster that has not waited, in a core that is not halting. -/
theorem State.cl_armLoop_fresh :
    (s.armLoop l start last n k).cl =
      ({ s.cl.armed l start last n k with pc := if n = 0 then (last : Int) + 4 else start } : ClusterState).issued.landed false := by
  have kept : (s.cl.armed l start last n k).since = none := by cases l <;> exact since
  rw [State.armLoop_eq, State.cl_goTo_fresh (by rw [State.cl_setCl]; exact kept) (by rw [State.cur_setCl]; exact halting), State.cl_setCl]

theorem State.loop_armLoop : (s.armLoop l start last n k).cl.loop l = .armed start last n k (s.cl.loop !l).act := by
  rw [s.cl_armLoop_fresh l start last n k since halting, ClusterState.loop_landed, ClusterState.loop_issued, ClusterState.loop_withPc,
    ClusterState.loop_armed]

theorem State.loop_not_armLoop : (s.armLoop l start last n k).cl.loop (!l) = (s.cl.loop !l).outer := by
  rw [s.cl_armLoop_fresh l start last n k since halting, ClusterState.loop_landed, ClusterState.loop_issued, ClusterState.loop_withPc,
    ClusterState.loop_not_armed]

theorem State.pc_armLoop : (s.armLoop l start last n k).cl.pc = if n = 0 then (last : Int) + 4 else start := by
  simp [s.cl_armLoop_fresh l start last n k since halting]

theorem State.pred_armLoop : (s.armLoop l start last n k).cl.pred = armedPreds s.cl.pred n k := by
  simp [s.cl_armLoop_fresh l start last n k since halting]

end Fresh

end Arming

section Armed

variable {start last n k : Nat} {inner : Bool}

theorem Loop.first_armed (h : start < 2 ^ 32) : (Loop.armed start last n k inner).first = start := by
  simpa [Loop.armed] using h

theorem Loop.last_armed (h : last < 2 ^ 32) : (Loop.armed start last n k inner).last = last := by
  simpa [Loop.armed] using h

theorem Loop.trip_armed (h : n + max k 1 - 1 < 2 ^ 32) : (Loop.armed start last n k inner).trip = n := by
  have small : n < 2 ^ 32 := by omega
  simpa [Loop.armed] using small

theorem Loop.count_armed (h : n + max k 1 - 1 < 2 ^ 32) :
    (Loop.armed start last n k inner).count.toNat = if n = 0 then 0 else n + max k 1 - 1 := by
  simp only [Loop.armed, Loop.count_append, BitVec.toNat_ofNat]
  split
  · rfl
  · exact Nat.mod_eq_of_lt h

theorem Loop.stg_armed (h : k < 8) : (Loop.armed start last n k inner).stg = k := by
  simp [Loop.armed, Nat.mod_eq_of_lt h]

@[simp] theorem Loop.iter_armed : (Loop.armed start last n k inner).iter = 0 := Loop.iter_mkLpx ..

@[simp] theorem Loop.act_armed : (Loop.armed start last n k inner).act = decide (n ≠ 0) := Loop.act_mkLpx ..

@[simp] theorem Loop.inner_armed : (Loop.armed start last n k inner).inner = inner := Loop.inner_mkLpx ..

/-- Of the predicates of an armed loop with trips, p1 is set and p2 to pk are clear (R99). -/
theorem bit_armedPreds (p : Byte) (trips : 0 < n) {j : Nat} (low : 0 < j) (high : j < 8) :
    (armedPreds p n k).getLsbD j = if j ≤ k then decide (j = 1) else p.getLsbD j := by
  unfold armedPreds
  by_cases staged : k = 0
  · rw [if_pos (.inr staged), if_neg (by omega)]
  · rw [if_neg (by omega), bit_armed p (Nat.pos_of_ne_zero staged) low high]

end Armed

section Words

variable {s : State} (away : s.atLoopEnd = false) (alone : s.cur.dxw.getLsbD 34 = false) (k : BitVec 3) (l : Bool)
include away alone

theorem execLoop_read {a : BitVec 5} (i : BitVec 13) {x : DWord} (ha : s.src a s.femodeDef = .ok x) :
    execLoop k l a i s = .next (s.settle (planLoop k l x.toNat (s.cl.pc + 4 * i.toInt) s)) := by
  rw [execLoop, runWord_gate (s.gate_away _ (checkWord_any _ _ rfl rfl) away alone)]
  simp only [State.srcDef, ha, bind, Except.bind, wordOffset]

theorem execLoopi_done (n : BitVec 10) (e : Byte) :
    execLoopi k l n e s = .next (s.settle (planLoop k l n.toNat (s.cl.pc + 4 * (e.toNat : Int)) s)) :=
  runWord_gate (s.gate_away _ (checkWord_any _ _ rfl rfl) away alone)

end Words

/-- LOOP's checks in their order, then the arming (R420). -/
theorem State.settle_planLoop (s : State) (k : BitVec 3) (l : Bool) (trip : Nat) (last : Int) :
    s.settle (planLoop k l trip last s) =
      (let other := s.cl.loop !l
       if last < s.cl.pc + 4 ∨ (s.cur.sectionLength s : Int) ≤ last then s.stopPrecise .trap false ⟨0x01, 0x07, 0, [], 0⟩
       else if k ≠ 0 ∧ other.act = true ∧ 0 < other.stg then s.stopPrecise .trap false ⟨0x01, 0x08, 0, [], 0⟩
       else if 2 ^ 32 - 1 < trip + max k.toNat 1 - 1 then s.stopPrecise .trap false ⟨0x01, 0x09, 0, [], 0⟩
       else s.armLoop l (s.cl.pc + 4).toNat last.toNat trip k.toNat) := by
  rw [planLoop]
  simp only [apply_ite s.settle]
  rfl

end Sys2Proof.Machine
end

section
namespace Sys2Proof.Machine

/-- Settles O5: the plan of both words, and what the arming leaves in the cluster, field by field. -/
theorem loopWordsComplete : Obligations.LoopWordsComplete := by
  intro s k l a i t e x away alone ha effect
  refine ⟨?loop, ?loopi, fun start last n since halting start32 last32 count32 => ?armed⟩
  case loop => rw [exec_loop, execLoop_read away alone k l i ha, State.settle_planLoop]
  case loopi => rw [exec_loopi, execLoopi_done away alone k l t e, State.settle_planLoop]
  case armed =>
    intro u this
    have armed : this = .armed start last n k.toNat (s.cl.loop !l).act := s.loop_armLoop l start last n k.toNat since halting
    have other : u.loop (!l) = (s.cl.loop !l).outer := s.loop_not_armLoop l start last n k.toNat since halting
    have pc : u.pc = if n = 0 then (last : Int) + 4 else start := s.pc_armLoop l start last n k.toNat since halting
    have pred : u.pred = armedPreds s.cl.pred n k.toNat := s.pred_armLoop l start last n k.toNat since halting
    have count : this.count.toNat = if n = 0 then 0 else n + max k.toNat 1 - 1 := armed ▸ Loop.count_armed count32
    rw [other, pc, pred]
    refine ⟨armed ▸ Loop.first_armed start32, armed ▸ Loop.last_armed last32, armed ▸ Loop.trip_armed count32, armed ▸ Loop.stg_armed k.isLt,
      armed ▸ Loop.iter_armed, armed ▸ Loop.inner_armed, Loop.inner_outer _, Loop.act_outer _, rfl, rfl, Loop.iter_outer _, Loop.stg_outer _,
      fun untripped => ?untripped, fun tripped => ?tripped⟩
    case untripped =>
      rw [if_pos untripped] at count ⊢
      exact ⟨by simp [armed, untripped], BitVec.eq_of_toNat_eq count, rfl, if_pos (.inl untripped)⟩
    case tripped =>
      have trips : n ≠ 0 := tripped.ne'
      rw [if_neg trips] at count ⊢
      exact ⟨by simp [armed, trips], count, rfl, fun j => bit_armedPreds _ tripped⟩

/-- Settles O54: one end action, or two in their order, or none; and the gate of the words that may not stand at the end. -/
theorem loopEndAction : Obligations.LoopEndAction := by
  intro s t n acts
  refine ⟨fun halting since done => ?retires, fun p j a d g m o i u q e f atEnd w listed checked => ?forbidden⟩
  case retires =>
    obtain rfl : s.retire = t := Host.Outcome.next.inj ((execNop_done s).symm.trans done)
    have loops (i : Bool) : s.retire.cl.loop i = s.cl.advance.1.loop i := by simp [State.cl_retire_fresh since halting]
    have pred : s.retire.cl.pred = s.cl.advance.1.pred := by simp [State.cl_retire_fresh since halting]
    have pc : s.retire.cl.pc = s.cl.advance.1.pc := by simp [State.cl_retire_fresh since halting]
    refine ⟨fun atEnd other => ?one, fun atEnd other inner outer => ⟨fun again => ?again, fun last => ?both⟩, fun no no' => ?plain⟩
    case one =>
      rw [ClusterState.advance_one atEnd other] at loops pred pc
      exact ⟨(ClusterState.endsTrip_endAction (ClusterState.act_of_atEnd atEnd)).congr loops pred, by rw [pc, ClusterState.pc_endAction]⟩
    case again =>
      rw [ClusterState.advance_both atEnd other inner outer, if_neg again] at loops pred pc
      exact ⟨(ClusterState.endsTrip_endAction (ClusterState.act_of_atEnd atEnd)).congr loops pred,
        by rw [pc, ClusterState.pc_endAction, if_neg again]⟩
    case both =>
      rw [ClusterState.advance_both atEnd other inner outer, if_pos last] at loops pred pc
      have act : ((s.cl.endAction n).1.loop !n).act = true := by
        rw [ClusterState.loop_not_endAction]
        exact ClusterState.act_of_atEnd other
      exact ⟨(s.cl.endAction n).1, ClusterState.endsTrip_endAction (ClusterState.act_of_atEnd atEnd),
        (ClusterState.endsTrip_endAction act).congr loops pred, by rw [pc, ClusterState.pc_endAction, ClusterState.loop_not_endAction]⟩
    case plain =>
      have neither : s.cl.atEnd false = false ∧ s.cl.atEnd true = false := by
        cases n
        · exact ⟨no, no'⟩
        · exact ⟨no', no⟩
      rw [s.cl.advance_plain neither.1 neither.2] at loops pred pc
      exact ⟨pc, pred, loops false, loops true⟩
  case forbidden =>
    have atLoopEnd := State.atLoopEnd_of_atEnd atEnd
    simp only [List.mem_cons, List.not_mem_nil, or_false] at listed
    rcases listed with rfl | rfl | rfl | rfl | rfl | rfl | rfl | rfl | rfl | rfl | rfl | rfl
    all_goals
      simp only [exec_b, exec_bz, exec_bnz, exec_jmp, exec_ret, exec_call, exec_callr, exec_loop, exec_loopi, exec_fork, exec_rdv, exec_done,
        execB, execBz, execBnz, execJmp, execRet, execCall, execCallr, execLoop, execLoopi, execFork, execRdv, execDone]
      exact runWord_atLoopEnd _ rfl atLoopEnd checked

end Sys2Proof.Machine
end

section
/-!
PROOFS. Accesses at their homes: the bytes a store and a load touch, the access that leaves its queue (R92, R150, R174, R186, R187).
-/

namespace Sys2Proof.Machine

section Bytes

/-- A value's bytes are those of its part within them (R3). -/
theorem bytesOfNat_mod (n v : Nat) : bytesOfNat n (v % 256 ^ n) = bytesOfNat n v := by
  induction n generalizing v with
  | zero => rfl
  | succ n ih =>
    have low : BitVec.ofNat 8 (v % 256 ^ (n + 1)) = BitVec.ofNat 8 v := by
      apply BitVec.eq_of_toNat_eq
      simp only [BitVec.toNat_ofNat]
      exact Nat.mod_mod_of_dvd v (Dvd.intro_left (256 ^ n) rfl)
    rw [bytesOfNat, bytesOfNat, low, Nat.pow_succ', Nat.mod_mul_right_div_self, ih]

/-- All ones are bytes of ones. -/
theorem bytesOfNat_ones (n : Nat) : bytesOfNat n (256 ^ n - 1) = List.replicate n 0xFF := by
  induction n with
  | zero => rfl
  | succ n ih =>
    have pos : 0 < 256 ^ n := Nat.pow_pos (by decide)
    have low : BitVec.ofNat 8 (256 ^ (n + 1) - 1) = 0xFF := by
      apply BitVec.eq_of_toNat_eq
      show (256 ^ (n + 1) - 1) % 256 = 255
      omega
    rw [bytesOfNat, low, show (256 ^ (n + 1) - 1) / 256 = 256 ^ n - 1 by omega, ih, List.replicate_succ]

theorem getElem_bytesOfNat (n v i : Nat) (h : i < (bytesOfNat n v).length) : (bytesOfNat n v)[i] = BitVec.ofNat 8 (v / 256 ^ i) := by
  induction n generalizing v i with
  | zero => exact absurd h (Nat.not_lt_zero _)
  | succ n ih =>
    cases i with
    | zero => simp [bytesOfNat]
    | succ i =>
      simp only [bytesOfNat, List.getElem_cons_succ, ih]
      rw [Nat.div_div_eq_div_mul, Nat.pow_succ']

theorem natOfBytes_lt (bs : List Byte) : natOfBytes bs < 256 ^ bs.length := by
  induction bs with
  | nil => exact Nat.one_pos
  | cons b r ih =>
    have := b.isLt
    simp only [natOfBytes, List.length_cons, Nat.pow_succ']
    omega

theorem zipWith_whole (bs : List Byte) : bs.zipWith VByte.mk (List.replicate bs.length 0xFF) = bs.map VByte.whole := by
  induction bs with
  | nil => rfl
  | cons b r ih => rw [List.length_cons, List.replicate_succ, List.zipWith_cons_cons, List.map_cons, ih, VByte.whole]

/-- An element of whole bytes is held in whole bytes (R150). -/
theorem Part.cells_bytes (p : Part) (n v : Nat) (start : p.bit = 0) (width : p.width = 8 * n) :
    p.cells v = (bytesOfNat n v).map VByte.whole := by
  have pow : 2 ^ (8 * n) = 256 ^ n := Nat.pow_mul 2 8 n
  have bytes : (0 + 8 * n + 7) / 8 = n := by omega
  have ones := zipWith_whole (bytesOfNat n v)
  rw [length_bytesOfNat] at ones
  simp only [Part.cells, start, width, bytes, pow, Nat.pow_zero, Nat.mul_one, bytesOfNat_mod, bytesOfNat_ones, ones]

/-- A whole byte stands in place of what was there. -/
@[simp] theorem VByte.over_whole (b c : Byte) : (VByte.whole b).over c = b := by
  show (b &&& BitVec.allOnes 8) ||| (c &&& ~~~BitVec.allOnes 8) = b
  rw [BitVec.and_allOnes, BitVec.not_allOnes, BitVec.and_zero, BitVec.or_zero]

@[simp] theorem VByte.over_merge_whole (b c : Byte) (old : Option VByte) : ((VByte.whole b).merge old).over c = b := by
  cases old with
  | none => exact VByte.over_whole b c
  | some o =>
    have merged : (VByte.whole b).merge (some o) = .whole b := by
      show (⟨(VByte.whole b).over o.val, BitVec.allOnes 8 ||| o.mask⟩ : VByte) = ⟨b, BitVec.allOnes 8⟩
      rw [VByte.over_whole, BitVec.allOnes_or]
    rw [merged, VByte.over_whole]

end Bytes

section Entered

/-- Bytes entered in a version at `a`, over what it holds of them (R187). -/
def enterCells (t : Tab VByte) (a : Nat) (l : List (Nat × VByte)) : Tab VByte :=
  l.foldl (fun t e => t.put (a + e.1) (e.2.merge (t.find (a + e.1)))) t

/-- Bytes entered change no other byte. -/
theorem find_enterCells_ne (t : Tab VByte) (a : Nat) {l : List (Nat × VByte)} {b : Nat} (h : ∀ e ∈ l, b ≠ a + e.1) :
    (enterCells t a l).find b = t.find b := by
  induction l generalizing t with
  | nil => rfl
  | cons e r ih =>
    rw [enterCells, List.foldl_cons]
    exact (ih _ fun f hf => h f (List.mem_cons_of_mem e hf)).trans (t.find_put_ne (h e List.mem_cons_self) _)

/-- A byte entered once is held over what was held of it. -/
theorem find_enterCells (t : Tab VByte) (a : Nat) {l : List (Nat × VByte)} (once : (l.map Prod.fst).Nodup) {e : Nat × VByte} (h : e ∈ l) :
    (enterCells t a l).find (a + e.1) = some (e.2.merge (t.find (a + e.1))) := by
  induction l generalizing t with
  | nil => exact absurd h List.not_mem_nil
  | cons f r ih =>
    obtain ⟨apart, once'⟩ := List.nodup_cons.mp once
    have others : ∀ g ∈ r, g.1 ≠ f.1 := fun g hg same => apart (same ▸ List.mem_map_of_mem hg)
    rw [enterCells, List.foldl_cons]
    rcases List.mem_cons.mp h with rfl | later
    · have kept := find_enterCells_ne (t.put (a + e.1) (e.2.merge (t.find (a + e.1)))) a (b := a + e.1) fun g hg same =>
        others g hg (Nat.add_left_cancel same).symm
      exact kept.trans (Tab.find_put _ _ _)
    · have ne : a + e.1 ≠ a + f.1 := fun same => others e later (Nat.add_left_cancel same)
      rw [← t.find_put_ne ne (f.2.merge (t.find (a + f.1)))]
      exact ih _ once' later

end Entered

section Leaving

variable (c : Core) (id : Nat)

/-- DXW's word changes no more than DXW by completing (R330). -/
theorem Core.dxwSettled_eq : c.dxwSettled = { c with dxw := c.dxwSettled.dxw, dxwIssued := c.dxwSettled.dxwIssued } := by
  unfold Core.dxwSettled
  split
  · split <;> rfl
  · rfl

/-- The access that leaves changes the queue, and DXW where that completes its word. -/
theorem Core.dropAccess_eq :
    c.dropAccess id =
      { c with
        accesses := ({ c with accesses := c.accesses.filter fun y => y.id ≠ id } : Core).tidy.accesses
        dxw := (c.dropAccess id).dxw
        dxwIssued := (c.dropAccess id).dxwIssued } := Core.dxwSettled_eq _

@[simp] theorem Core.scal_dropAccess : (c.dropAccess id).scal = c.scal := by rw [Core.dropAccess_eq]

@[simp] theorem Core.version_dropAccess : (c.dropAccess id).version = c.version := by rw [Core.dropAccess_eq]

@[simp] theorem Core.committing_dropAccess : (c.dropAccess id).committing = c.committing := by rw [Core.dropAccess_eq]

/-- An access that has left is found no more. -/
@[simp] theorem Core.findAccess_dropAccess : (c.dropAccess id).findAccess id = none := by
  have dropped : ∀ y ∈ (c.dropAccess id).accesses, y.id ≠ id := by
    intro y hy
    rw [Core.dropAccess_eq] at hy
    simp only [Core.tidy, List.mem_filter, decide_eq_true_eq] at hy
    exact hy.1.2
  simpa [Core.findAccess] using dropped

variable (d : BitVec 5) (v : DWord)

@[simp] theorem Core.accesses_deliver : (c.deliver d v).accesses = c.accesses := by
  unfold Core.deliver
  split <;> rfl

theorem Core.reg_deliver_ne {r : BitVec 5} (h : r ≠ d) : (c.deliver d v).reg r = c.reg r := by
  unfold Core.deliver
  split
  · rfl
  · exact Tab.get_put_ne _ _ (fun same => h (BitVec.eq_of_toNat_eq same)) _

/-- A result that arrives waits with the producer of its destination (R92). -/
theorem Core.pending_deliver {p : Producer} (h : (c.reg d).pending = some p) :
    ((c.deliver d v).reg d).pending = some { p with result := some v } := by
  have delivered : c.deliver d v = { c with scal := c.scal.put d.toNat { c.reg d with pending := some { p with result := some v } } } := by
    rw [Core.deliver, h]
  rw [delivered]
  exact congrArg Scalar.pending (Tab.get_put _ _ _ _)

end Leaving

end Sys2Proof.Machine
end

section
/-!
PROOFS. How an access is performed at its home, line by line (R174, R187, R495).
-/

namespace Sys2Proof.Machine

section Step

variable {s : State} {core id : Nat} {x : Access} (found : (s.coreAt core).findAccess id = some x)
  (may : x.mayPerform ((s.coreAt core).accessesBefore x.cluster id) = true)
  (issued : x.phase = .issued) (unchecked : x.checked = false) (noNotify : ∀ slot w, x.op ≠ .notify slot w)
  (noArrival : ∀ a b r l n, x.op ≠ .arrive a b r l n) (noCommand : ∀ f h i e, x.op ≠ .command f h i e)
  (placed : x.unplaced s.node.toNat = false) {key : Nat × Nat} (next : x.nextKey (Config.pick (8 * s.steps + 1)) = some key)
  (here : key.1 < 2) (free : s.homeHoldsFor (some (core, x.id)) key x.op.isStore = false)
  (linked : key.1 = 0 → s.cutOff core (64 * key.2) = false)

include issued unchecked noNotify noArrival placed next here free linked in
/-- An unchecked access that nothing holds performs the next of its local lines (R174, R187). -/
theorem State.stepAccess_performs : s.stepAccess core x = s.performLine core x key := by
  have uncut : ¬(key.1 = 0 ∧ s.cutOff core (64 * key.2) = true) := fun ⟨device, cut⟩ => by simp [linked device] at cut
  simp only [State.stepAccess, issued, reduceCtorEq, false_and, or_self, if_false, placed, unchecked, Bool.false_eq_true, next, free,
    if_neg uncut, if_pos here]
  split
  · exact absurd ‹_› (noNotify _ _)
  · exact absurd ‹_› (noArrival _ _ _ _ _)
  · exact absurd ‹_› (noArrival _ _ _ _ _)
  · rfl

include found may issued unchecked noNotify noArrival noCommand placed next here free linked in
theorem execAccessAtHome_performs : execAccessAtHome core id s = .next (s.performLine core x key) := by
  simp only [execAccessAtHome, found, may, if_true]
  rw [State.stepAccess_performs issued unchecked noNotify noArrival placed next here free linked]

end Step

section Leave

/-- An access of a core has been performed: it leaves its queue, and a release advances its cluster's clock (R92, R201). -/
def State.leave (s : State) (n : Nat) (x : Access) : State :=
  let t := s.setCoreAt n ((s.coreAt n).dropAccess x.id)
  if x.rel then t.released (agentId n x.cluster) else t

variable (s : State) (n : Nat) (x : Access)

/-- It changes its core and the clocks alone. -/
theorem State.leave_eq : s.leave n x = { s.setCoreAt n ((s.coreAt n).dropAccess x.id) with clocks := (s.leave n x).clocks } := by
  unfold State.leave
  cases x.rel <;> rfl

@[simp] theorem State.coreAt_leave : (s.leave n x).coreAt n = (s.coreAt n).dropAccess x.id := by
  rw [State.leave_eq]
  exact State.coreAt_setCoreAt _ _ _

@[simp] theorem State.mem_leave : (s.leave n x).mem = s.mem := by
  rw [State.leave_eq]
  rfl

@[simp] theorem State.homeByte_leave (b : Nat) : (s.leave n x).homeByte b = s.homeByte b := by
  rw [State.leave_eq]
  rfl

@[simp] theorem State.homeByte_setCoreAt (c : Core) (b : Nat) : (s.setCoreAt n c).homeByte b = s.homeByte b := rfl

/-- Access `y` of core `n` with its last element done: it stands so in its queue and leaves it. -/
def State.performed (s : State) (n : Nat) (y : Access) : State := (s.setCoreAt n ((s.coreAt n).putAccess y)).leave n y

@[simp] theorem State.coreAt_performed : (s.performed n x).coreAt n = ((s.coreAt n).putAccess x).dropAccess x.id := by
  rw [State.performed, State.coreAt_leave, State.coreAt_setCoreAt]

@[simp] theorem State.mem_performed : (s.performed n x).mem = s.mem := State.mem_leave _ _ _

@[simp] theorem State.homeByte_performed (b : Nat) : (s.performed n x).homeByte b = s.homeByte b := State.homeByte_leave _ _ _ b

@[simp] theorem Core.scal_putAccess (c : Core) : (c.putAccess x).scal = c.scal := rfl

@[simp] theorem Core.version_putAccess (c : Core) : (c.putAccess x).version = c.version := rfl

@[simp] theorem Core.committing_putAccess (c : Core) : (c.putAccess x).committing = c.committing := rfl

theorem State.finishAccess_store {x : Access} {v : Nat} (op : x.op = .store v) : s.finishAccess n x = s.leave n x := by
  simp only [State.finishAccess, op, State.leave]

theorem State.finishAccess_load {x : Access} {d : BitVec 5} {w : Nat} {signed : Bool} (op : x.op = .load d w signed) :
    s.finishAccess n x =
      (s.leave n x).setCoreAt n
        (((s.coreAt n).dropAccess x.id).deliver d (loadResult w signed ((s.leave n x).partsValue ((s.coreAt n).dropAccess x.id) false x.parts))) := by
  have finished : s.finishAccess n x =
      (s.leave n x).setCoreAt n
        (((s.leave n x).coreAt n).deliver d (loadResult w signed ((s.leave n x).partsValue ((s.leave n x).coreAt n) false x.parts))) := by
    simp only [State.finishAccess, op, State.leave]
  rw [finished, State.coreAt_leave]

/-- A byte as the task sees it depends on its version, its commit under way, and the byte's home (R187). -/
theorem State.taskByte_congr {s t : State} {c c' : Core} {b : Nat} (home : t.homeByte b = s.homeByte b)
    (version : c'.version.find b = c.version.find b) (committing : c'.committing = c.committing) : t.taskByte c' b = s.taskByte c b := by
  simp only [State.taskByte, home, version, committing]

end Leave

section One

/-- An element of `n` whole bytes of device memory. -/
abbrev Part.bytes (a off n : Nat) : Part := ⟨.device a, off, 0, 8 * n, none⟩

/-- An access whose one element is done has no line left. -/
theorem Access.isEmpty_keys_done {x : Access} {p : Part} (parts : x.parts = [p]) (done : p.key = none) : x.keys.isEmpty = true := by
  simp [Access.keys, parts, done]

variable {x : Access} {a off n : Nat} (parts : x.parts = [.bytes a off n])
include parts

theorem Access.keys_one : x.keys = [(0, a / 64)] := by
  rw [Access.keys, parts]
  rfl

theorem Access.nextKey_one (pick : Nat) : x.nextKey pick = some (0, a / 64) := by
  simp [Access.nextKey, Access.keys_one parts, Nat.mod_one]

theorem Access.placed_one (own : Nat) : x.unplaced own = false := by
  simp [Access.unplaced, parts]

/-- Its one line is what an access of one element performs (R176). -/
theorem execAccessAtHome_one {s : State} {core id : Nat} (found : (s.coreAt core).findAccess id = some x)
    (may : x.mayPerform ((s.coreAt core).accessesBefore x.cluster id) = true) (issued : x.phase = .issued) (unchecked : x.checked = false)
    (noNotify : ∀ slot w, x.op ≠ .notify slot w) (noArrival : ∀ a b r l n, x.op ≠ .arrive a b r l n)
    (noCommand : ∀ f h i e, x.op ≠ .command f h i e)
    (free : s.homeHoldsFor (some (core, x.id)) (0, a / 64) x.op.isStore = false) (linked : s.cutOff core (64 * (a / 64)) = false) :
    execAccessAtHome core id s = .next (s.performLine core x (0, a / 64)) :=
  execAccessAtHome_performs found may issued unchecked noNotify noArrival noCommand (Access.placed_one parts _) (Access.nextKey_one parts _)
    Nat.two_pos free fun _ => linked

variable {s : State} {core : Nat} {key : Nat × Nat} (hit : (Part.bytes a off n).key = some key)
include hit

/-- A store of one element is performed by its one write (R174). -/
theorem State.performLine_store {v : Nat} (op : x.op = .store v) {uses : Bool}
    (version : (x.versioned && decide ((s.coreAt core).vresLines ≠ 0) && decide (key.1 = 0)) = uses)
    (room : (uses && (s.coreAt core).overflows key) = false) :
    ∃ y : Access, y.id = x.id ∧
      s.performLine core x key =
        (s.writePart core (handleIndex x.handle) uses (.bytes a off n) (v % 2 ^ (8 * n))).performed core y := by
  refine ⟨{ x with parts := [{ Part.bytes a off n with place := .drop }] }, rfl, ?_⟩
  simp only [State.performLine, op, version, room, parts, State.writeLine, hit, Bool.false_eq_true, if_false, decide_true, if_true]
  rw [if_pos (Access.isEmpty_keys_done rfl rfl)]
  exact State.finishAccess_store _ _ rfl

end One

section Load

variable (s : State) (c : Core)

theorem State.length_taskBytes (a n : Nat) : (s.taskBytes c a n).length = n := by
  induction n generalizing a with
  | zero => rfl
  | succ n ih => rw [State.taskBytes, List.length_cons, ih]

/-- The value of such an element is that of its bytes as the task sees them (R187). -/
theorem State.partValue_bytes (a off n : Nat) :
    s.partValue c true (.bytes a off n) % 2 ^ (8 * n) = natOfBytes (s.taskBytes c a n) := by
  have bytes : (0 + 8 * n + 7) / 8 = n := by omega
  have small : natOfBytes (s.taskBytes c a n) < 2 ^ (8 * n) := by
    have bound := natOfBytes_lt (s.taskBytes c a n)
    rwa [s.length_taskBytes, show 256 ^ n = 2 ^ (8 * n) from (Nat.pow_mul 2 8 n).symm] at bound
  simp only [State.partValue, bytes, bitsOfBytes, if_true, Nat.pow_zero, Nat.div_one, Nat.mod_eq_of_lt small]

theorem State.partsValue_pad {p : Part} {v : Nat} (pad : p.place = .pad v) (versioned : Bool) : s.partsValue c versioned [p] = v % 2 ^ p.width := by
  simp only [State.partsValue, State.partValue, pad, Nat.mul_zero, Nat.add_zero]

/-- A load of one element delivers the bytes the task sees (R92, R187, R415). -/
theorem State.performLine_load {x : Access} {core a off n bits : Nat} {d : BitVec 5} {signed : Bool} {key : Nat × Nat}
    (op : x.op = .load d bits signed) (relaxed : x.acq = false) (parts : x.parts = [.bytes a off n])
    (hit : (Part.bytes a off n).key = some key) :
    ∃ y : Access, y.id = x.id ∧
      s.performLine core x key =
        (s.performed core y).setCoreAt core
          ((((s.coreAt core).putAccess y).dropAccess y.id).deliver d
            (loadResult bits signed (natOfBytes (s.taskBytes (s.coreAt core) a n)))) := by
  refine ⟨{ x with parts := [{ Part.bytes a off n with place := .pad (s.partValue (s.coreAt core) true (.bytes a off n)) }] }, rfl, ?_⟩
  have unjoined : s.acquireJoins core x = s := by simp [State.acquireJoins, relaxed]
  simp only [State.performLine, op, unjoined, State.readLine, parts, List.map_cons, List.map_nil, hit, if_true]
  rw [if_pos (Access.isEmpty_keys_done rfl rfl), State.finishAccess_load _ _ rfl, State.partsValue_pad _ _ rfl, State.partValue_bytes,
    State.coreAt_setCoreAt]
  rfl

end Load

section Store

variable (s : State) (core i a off n v : Nat)

theorem State.setHomeCells_whole (bs : List Byte) : s.setHomeCells a (bs.map VByte.whole) = s.setHomeBytes a bs := by
  induction bs generalizing s a with
  | nil => rfl
  | cons b r ih => exact ih (s.setHomeByte a b) (a + 1)

theorem Part.cells_stored : (Part.bytes a off n).cells (v % 2 ^ (8 * n)) = (bytesOfNat n v).map VByte.whole := by
  rw [Part.cells_bytes _ n _ rfl rfl, show 2 ^ (8 * n) = 256 ^ n from Nat.pow_mul 2 8 n, bytesOfNat_mod]

/-- A store outside the version writes its bytes at their homes (R174). -/
theorem State.writePart_home : s.writePart core i false (.bytes a off n) (v % 2 ^ (8 * n)) = s.homeWrite a n v := by
  have written : s.writePart core i false (.bytes a off n) (v % 2 ^ (8 * n)) = s.setHomeCells a ((Part.bytes a off n).cells (v % 2 ^ (8 * n))) := rfl
  rw [written, Part.cells_stored, State.setHomeCells_whole, State.homeWrite]

@[simp] theorem State.coreAt_homeWrite (m : Nat) : (s.homeWrite a n v).coreAt m = s.coreAt m := by
  rw [State.coreAt, State.homeWrite_cores, State.coreAt]

section Unlocked

variable {s} (unlocked : ∀ b, s.lockOn b = none)
include unlocked

theorem State.homeByte_homeWrite_unlocked (b : Nat) : (s.homeWrite a n v).homeByte b = (s.mem.write a n v).byte b := by
  rw [s.homeWrite_unlocked a n v unlocked]
  exact State.homeByte_unlocked _ b (unlocked b)

/-- Where no lock stands, what is written at the homes of some bytes is read there. -/
theorem State.homeByte_homeWrite {j : Nat} (inside : j < n) : (s.homeWrite a n v).homeByte (a + j) = BitVec.ofNat 8 (v / 256 ^ j) := by
  have within : j < (bytesOfNat n v).length := by simpa using inside
  rw [State.homeByte_homeWrite_unlocked a n v unlocked, Memory.write, Memory.byte_setBytes _ _ _ j within, getElem_bytesOfNat]

/-- Every other byte is as it was. -/
theorem State.homeByte_homeWrite_ne {b : Nat} (outside : ¬(a ≤ b ∧ b < a + n)) : (s.homeWrite a n v).homeByte b = s.homeByte b := by
  have apart : b < a ∨ a + (bytesOfNat n v).length ≤ b := by rw [length_bytesOfNat]; omega
  rw [State.homeByte_homeWrite_unlocked a n v unlocked, s.homeByte_unlocked b (unlocked b)]
  exact Memory.byte_setBytes_ne _ _ _ apart

end Unlocked

/-- The bytes of a store, by their place from its address. -/
def storedCells (n v : Nat) : List (Nat × VByte) := (List.range n).zip ((bytesOfNat n v).map VByte.whole)

theorem map_fst_storedCells : (storedCells n v).map Prod.fst = List.range n := List.map_fst_zip (by simp)

theorem mem_storedCells {j : Nat} (h : j < n) : (j, VByte.whole (BitVec.ofNat 8 (v / 256 ^ j))) ∈ storedCells n v := by
  have length : j < (storedCells n v).length := by simpa [storedCells] using h
  have cell : (storedCells n v)[j] = (j, VByte.whole (BitVec.ofNat 8 (v / 256 ^ j))) := by simp [storedCells, getElem_bytesOfNat]
  exact cell ▸ List.getElem_mem length

/-- A store into the version enters its bytes there (R186, R187). -/
theorem State.writePart_version :
    ∃ lines, s.writePart core i true (.bytes a off n) (v % 2 ^ (8 * n)) =
      s.setCoreAt core { s.coreAt core with version := enterCells (s.coreAt core).version a (storedCells n v), versionOf := lines } := by
  have bytes : (0 + 8 * n + 7) / 8 = n := by omega
  refine ⟨(s.coreAt core).versionOf.put (a / 64) (insertOnce i ((s.coreAt core).versionOf.get [] (a / 64))), ?_⟩
  simp only [State.writePart, if_true, bytes, Part.cells_stored]
  rfl

/-- The task sees the bytes that its store has entered, over whatever it saw before (R187). -/
theorem State.taskByte_entered {t : State} {c c' : Core} (version : c'.version = enterCells c.version a (storedCells n v)) {j : Nat} (h : j < n) :
    t.taskByte c' (a + j) = BitVec.ofNat 8 (v / 256 ^ j) := by
  have held : c'.version.find (a + j) = some ((VByte.whole (BitVec.ofNat 8 (v / 256 ^ j))).merge (c.version.find (a + j))) := by
    rw [version]
    exact find_enterCells _ a (by rw [map_fst_storedCells]; exact List.nodup_range) (mem_storedCells n v h)
  simp only [State.taskByte, held, VByte.over_merge_whole]

theorem find_entered_ne (t : Tab VByte) {b : Nat} (h : ¬(a ≤ b ∧ b < a + n)) : (enterCells t a (storedCells n v)).find b = t.find b := by
  refine find_enterCells_ne t a fun e he => ?_
  have small : e.1 < n := by
    have key : e.1 ∈ (storedCells n v).map Prod.fst := List.mem_map_of_mem he
    rw [map_fst_storedCells] at key
    exact List.mem_range.mp key
  omega

end Store

end Sys2Proof.Machine
end

section
/-!
PROOFS. The events of a task's own units (R92, R105, R187, R211).
-/

namespace Sys2Proof.Machine

/-- A producer's known result is written full, and the producer is done (R92). -/
theorem execProducerResultWritten_known {s : State} {core : Nat} {d : BitVec 5} {k : Cluster} {divider : Bool} {v : DWord}
    (known : ((s.coreAt core).reg d).pending = some ⟨k, divider, some v⟩) :
    execProducerResultWritten core d s =
      (let written := (s.coreAt core).change s.dcc k d v true
       .next (s.setCoreAt core { written with scal := written.scal.put d.toNat { written.reg d with pending := none } })) := by
  simp only [execProducerResultWritten, known]

/-- A row step runs when its queues allow (R105). -/
theorem execVectorRowStep_ready {s : State} {core : Nat} {op : VecOp} (held : (s.coreAt core).vop = some op)
    (ready : (s.coreAt core).rowReady op = true) :
    execVectorRowStep core s = .next (({ s with core := core, cluster := .V } : State).vectorStep op) := by
  simp only [execVectorRowStep, held, ready, if_true]

/-- An access that has waited 10 ms for its metadata goes on unchecked (R211). -/
theorem execMetadataWaitTimeout_late {s : State} {core id : Nat} {x : Access} (found : (s.coreAt core).findAccess id = some x)
    (waits : x.phase = .waiting) (checked : x.checked = true) (late : x.since + 10000000 ≤ s.dcc) :
    execMetadataWaitTimeout core id s = .next (s.goUnchecked core x) := by
  simp only [execMetadataWaitTimeout, found, if_pos (And.intro waits (And.intro checked late))]

/-- A commit performs one of its lines at its home, and is complete after the last (R187). -/
theorem execVersionCommitComplete_line {s : State} {core line : Nat} {version : Tab VByte}
    (commits : (s.coreAt core).committing = some version) (more : versionLines version ≠ [])
    (chosen : (versionLines version).getD (Config.pick (8 * s.steps + 2) % (versionLines version).length) 0 = line)
    (free : s.homeHolds (0, line) true = false) :
    execVersionCommitComplete core s =
      (let t := s.writeVersion (s.coreAt core).versionRu (lineCells version line)
       let rest := withoutLine version line
       let u := t.setCoreAt core { t.coreAt core with committing := some rest }
       .next (if rest.cells = [] then u.endCommit core else u)) := by
  have left : (versionLines version).isEmpty = false := List.isEmpty_eq_false_iff.mpr more
  simp only [execVersionCommitComplete, commits, left, chosen, free, Bool.false_eq_true, if_false, List.isEmpty_iff]

end Sys2Proof.Machine
end

section
namespace Sys2Proof.Machine

/-- Settles O32: each event under what enables it. -/
theorem taskEventsComplete : Obligations.TaskEventsComplete := by
  intro s core id d k divider v op x key version c
  refine ⟨execProducerResultWritten_known, execVectorRowStep_ready, fun found => ⟨?performs, execMetadataWaitTimeout_late found⟩,
    fun commits more => ?commits⟩
  case performs =>
    intro may issued unchecked noNotify noArrival noCommand placed next here free linked
    exact execAccessAtHome_performs found may issued unchecked noNotify noArrival noCommand placed next here free linked
  case commits =>
    intro line free
    exact execVersionCommitComplete_line commits more rfl free

/-- Settles O60: a store by where its one write goes, a load by the bytes it finds; both leave their queue. -/
theorem accessesPerformed : Obligations.AccessesPerformed := by
  intro s core id a off n v bits x d signed p c found _ issued unchecked relaxed may parts _ _ free unlocked linked
  obtain rfl : x.id = id := by simpa using List.find?_some found
  have performs (noNotify : ∀ slot w, x.op ≠ .notify slot w) (noArrival : ∀ a b r l n, x.op ≠ .arrive a b r l n)
      (noCommand : ∀ f h i e, x.op ≠ .command f h i e) : execAccessAtHome core x.id s = .next (s.performLine core x (0, a / 64)) :=
    execAccessAtHome_one parts found may issued unchecked noNotify noArrival noCommand free linked
  refine ⟨fun op outside => ?home, fun op inside reserved room => ?version, fun op pending => ?load⟩
  case home =>
    obtain ⟨y, same, performed⟩ := State.performLine_store parts (s := s) (core := core) rfl op (uses := false) (by simp [outside]) rfl
    rw [State.writePart_home] at performed
    refine ⟨_, (performs (by simp [op]) (by simp [op]) (by simp [op])).trans (congrArg _ performed), fun i inside => ?written, fun b out => ?others,
      ?scalars, ?left⟩
    case written => rw [State.homeByte_performed, State.homeByte_homeWrite a n v unlocked inside]
    case others => rw [State.homeByte_performed, State.homeByte_homeWrite_ne a n v unlocked out]
    case scalars => simp [c]
    case left => rw [State.coreAt_performed, ← same, Core.findAccess_dropAccess]
  case version =>
    obtain ⟨y, same, performed⟩ :=
      State.performLine_store parts (s := s) (core := core) rfl op (uses := true) (by simp [inside, reserved, c]) (by simpa using room)
    obtain ⟨lines, entered⟩ := s.writePart_version core (handleIndex x.handle) a off n v
    rw [entered] at performed
    refine ⟨_, (performs (by simp [op]) (by simp [op]) (by simp [op])).trans (congrArg _ performed), fun b => ?homes, fun i inside => ?seen,
      fun b out => ?others, ?scalars, ?left⟩
    case homes => rw [State.homeByte_performed, State.homeByte_setCoreAt]
    case seen => exact State.taskByte_entered a n v (c := c) (by simp [c]) inside
    case others =>
      refine State.taskByte_congr (by simp) ?_ (by simp [c])
      rw [← find_entered_ne a n v c.version out]
      simp [c]
    case scalars => simp [c]
    case left => rw [State.coreAt_performed, ← same, Core.findAccess_dropAccess]
  case load =>
    obtain ⟨y, same, performed⟩ := s.performLine_load op relaxed parts rfl
    have kept : (((s.coreAt core).putAccess y).dropAccess y.id).scal = c.scal := by simp [c]
    have regs (r : BitVec 5) : (((s.coreAt core).putAccess y).dropAccess y.id).reg r = c.reg r := by rw [Core.reg, kept, Core.reg]
    refine ⟨_, (performs (by simp [op]) (by simp [op]) (by simp [op])).trans (congrArg _ performed), State.mem_performed _ _ _, ?result,
      fun r other => ?others, ?left⟩
    case result =>
      rw [State.coreAt_setCoreAt]
      exact Core.pending_deliver _ _ _ (by rw [regs, pending])
    case others => rw [State.coreAt_setCoreAt, Core.reg_deliver_ne _ _ _ other, regs]
    case left => rw [State.coreAt_setCoreAt, Core.findAccess, Core.accesses_deliver, ← Core.findAccess, ← same, Core.findAccess_dropAccess]

end Sys2Proof.Machine
end

section
/-!
PROOFS. The events of the copy engine and of residency waits (R157, R192, R220, R249, R253, R256, R341).
-/

namespace Sys2Proof.Machine

section Found

variable {s : State} {core : Nat} {cmd : BitVec 16} {k : Command} (found : (s.coreAt core).findCommand cmd = some k)
include found

/-- A command that waits for no residency unit does a part of its transfer (R249). -/
theorem execEngineChunkWrite_goesOn (going : k.waits = false) : execEngineChunkWrite core cmd s = .next (s.stepCommand core k) := by
  simp only [execEngineChunkWrite, found, going, Bool.false_eq_true, if_false]

/-- A command that is over leaves its record in its ring slot and is in flight no longer (R192, R253). -/
theorem execEngineCompletion_over (ended : k.over = true) :
    execEngineCompletion core cmd s =
      (let c := s.coreAt core
       .next (s.setCoreAt core { c with
        scratch := c.scratch.write (ringSlot k.id) 32 (k.record s.dcc), commands := c.commands.filter fun y => y.id ≠ k.id,
        remoteReads := c.remoteReads.filter fun x => x.who ≠ askCommand k.id })) := by
  simp only [execEngineCompletion, found, ended, if_true]

/-- 10 ms at a residency unit end a transfer; a multicast without its member list fails at this node (R255, R256). -/
theorem execResidencyWaitTimeout_late (waits : k.waits = true) (late : k.since + 10000000 ≤ s.dcc) :
    execResidencyWaitTimeout core cmd s =
      (let members := if k.members = [] then [s.node.toNat] else k.members
       .next (s.putCommand core (({ k with members := members } : Command).fail (k.waiting.getD (0, 0, 0)).1 k.waiting
        (failureOf k.waitHandle .notReady)))) := by
  simp only [execResidencyWaitTimeout, found, if_pos (And.intro waits late)]
  by_cases unread : k.members = []
  · simp only [unread, if_true]
  · simp only [unread, if_false]

/-- A command that waits at a residency unit goes on (R157). -/
theorem execResidencyWaitResume_command (waits : k.waiting ≠ none) :
    execResidencyWaitResume core (.command cmd) s = .next (s.stepCommand core k) := by
  simp only [execResidencyWaitResume, found, Option.isSome_iff_ne_none.mpr waits, if_true]

end Found

/-- A stop that is owed is taken where nothing defers it and, once it is owed no longer, nothing discards it (R290, R291). -/
theorem State.takeOwed_taken {s : State} {n : Nat} {st : Stop} (owed : (s.coreAt n).pendingTrap = some st) (can : (s.coreAt n).canStop = true)
    (now : (s.coreAt n).defersStop st.kind true = false) (counts : (s.coreAt n).ignoresStop st.kind = false) :
    s.takeOwed n st.debug = (s.setCoreAt n { s.coreAt n with pendingTrap := none }).stopWith n st := by
  simp only [State.takeOwed, owed, can, now, counts, Bool.not_false, Bool.false_eq_true, and_self, if_true, if_false]

end Sys2Proof.Machine
end

section
namespace Sys2Proof.Machine

/-- Settles O35: a command by whether it waits or is over, what else waits at a unit, and the stop that is owed by its kind. -/
theorem engineEventsComplete : Obligations.EngineEventsComplete := by
  intro s core id cmd k st debug c
  refine ⟨fun found => ⟨execEngineChunkWrite_goesOn found, execEngineCompletion_over found, execResidencyWaitTimeout_late found,
    execResidencyWaitResume_command found⟩, rfl, rfl, ?owed⟩
  case owed =>
    intro owed kind can now _ counts t
    have taken : s.takeOwed core debug = t := kind ▸ State.takeOwed_taken owed can now counts
    rw [exec_engineRaceTrap, execEngineRaceTrap, exec_engineWatchStop, execEngineWatchStop]
    refine ⟨fun race => ?_, fun watch => ?_⟩
    · rw [← race, taken]
    · rw [← watch, taken]

end Sys2Proof.Machine
end

section
/-!
PROOFS. The events of the host, of bias, of invalidation and of frame locks (R165, R168, R196, R197, R314, R315).
-/

namespace Sys2Proof.Machine

section Host

variable {s : State} {a : Nat} (reached : s.bridgeFailed = true → homeOf a < 8)
include reached

/-- A host reads the bytes of host-visible frames, and poison from any other, which is counted (R196, R315). -/
theorem State.hostPerform_read (n : Nat) :
    s.hostPerform a (.read n) =
      if s.hostVisible (a / 65536) then s.respond (.data (s.homeBytes a n)) else (s.count keyHostRej).respond .poison := by
  rw [State.hostPerform, if_neg fun h => Nat.not_lt.mpr h.2 (reached h.1)]
  cases s.hostVisible (a / 65536) <;> rfl

/-- A host writes host-visible frames; a write to any other is dropped and counted (R196, R315). -/
theorem State.hostPerform_write (bs : List Byte) :
    s.hostPerform a (.write bs) = if s.hostVisible (a / 65536) then s.setHomeBytes a bs else s.count keyHostRej := by
  rw [State.hostPerform, if_neg fun h => Nat.not_lt.mpr h.2 (reached h.1)]
  cases s.hostVisible (a / 65536) <;> rfl

end Host

/-- A request of the host within one line of device memory, to a frame no flip of which is under way, is performed (R196, R197). -/
theorem execHostCxlMemAccess_performs {s : State} {addr : BitVec 43} {req : HostReq} (memory : ∀ r, req ≠ .control r)
    (inside : addr.toNat < 2 ^ 39) (booted : s.inRecovery = false) (settled : (s.slice (homeOf (addr.toNat / 65536 * 65536))).flipping = none)
    (covers : 0 < reqBytes req) (oneLine : addr.toNat / 64 = (addr.toNat + reqBytes req - 1) / 64) :
    execHostCxlMemAccess addr req s = .next (s.hostPerform addr.toNat req) := by
  have here : (decide (2 ^ 39 ≤ addr.toNat) || decide (reqBytes req = 0) ||
      decide (addr.toNat / 64 ≠ (addr.toNat + reqBytes req - 1) / 64)) = false := by
    simp only [Bool.or_eq_false_iff, decide_eq_false_iff_not]
    omega
  cases req with
  | control r => exact absurd rfl (memory r)
  | read n | write bs =>
    simp only [execHostCxlMemAccess, here, booted, settled, Option.any_none, Bool.or_self, Bool.false_eq_true, if_false]

/-- A control register of 64 bits reads as its 8 bytes (R314). -/
theorem execHostCxlMemAccess_control {s : State} {r : CtlReg} {v : DWord} (addr : BitVec 43) (booted : s.inRecovery = false)
    (holds : s.controlValue r = some (v.setWidth 256)) (short : ∀ n, r ≠ .dbuf n) :
    execHostCxlMemAccess addr (.control r) s = .next (s.respond (.data (bytesOfNat 8 v.toNat))) := by
  have whole : (v.setWidth 256).toNat = v.toNat := BitVec.toNat_setWidth_of_le (by decide)
  have bytes : s.hostReads r = s.respond (.data (bytesOfNat 8 (v.setWidth 256).toNat)) := by
    unfold State.hostReads
    rw [holds]
    cases r with
    | dbuf n => exact absurd rfl (short n)
    | _ => rfl
  simp only [execHostCxlMemAccess, booted, bytes, whole, Bool.false_eq_true, if_false]

/-- HBIAS once a write of `v` is taken: FRAME as written, CUR kept, and ERR and OVR where `v` does not clear them (R197). -/
def hbiasTaken (old v : DWord) : DWord := (v &&& 0xFFFFFFE000000000) ||| (old &&& 0x86 &&& ~~~(v &&& 0x84))

theorem hbiasCommand_frame (frame : BitVec 27) (cmd : BitVec 2) : (hbiasCommand frame cmd).extractLsb' 37 27 = frame := by
  simp (disch := decide) only [hbiasCommand, extract_append_high, extract_whole, Nat.reduceSub]

theorem hbiasCommand_cmd (frame : BitVec 27) (cmd : BitVec 2) : (hbiasCommand frame cmd).extractLsb' 4 2 = cmd := by
  simp (disch := decide) only [hbiasCommand, extract_append_high, extract_append_low, extract_whole, Nat.reduceSub]

section Bias

variable {s : State} {slice : Nat} {frame : BitVec 27} (real : slice < 16) (idle : (s.slice slice).hbias.getLsbD 0 = false)
  (home : homeOf (frame.toNat * 65536) = slice) (visible : s.hostVisible frame.toNat = true)
include real idle home visible

/-- A command of HBIAS for a host-visible frame at its home slice, no flip being in progress: 3 reads the bias, another begins a flip (R197). -/
theorem State.writeHbias_taken {cmd : BitVec 2} (asks : cmd.toNat ≠ 0) :
    s.writeHbias slice (hbiasCommand frame cmd) =
      (let x := s.slice slice
       let reg := hbiasTaken x.hbias (hbiasCommand frame cmd)
       if cmd.toNat = 3 then s.setSlice slice { x with hbias := (reg &&& ~~~2) ||| (if s.hostBias.get false frame.toNat then 0 else 2) }
       else s.setSlice slice { x with hbias := reg ||| 1, flipping := some (frame.toNat, decide (cmd.toNat = 1)) }) := by
  simp only [State.writeHbias, if_neg (Nat.not_le.mpr real), idle, hbiasCommand_frame, hbiasCommand_cmd, if_neg asks, home, visible, hbiasTaken,
    ne_eq, not_true, Bool.not_true, Bool.false_eq_true, or_self, if_false]

/-- Commands 1 and 2 of HBIAS begin a flip of a host-visible frame at its home slice (R197). -/
theorem State.writeHbias_flips {cmd : BitVec 2} (flips : cmd = 1 ∨ cmd = 2) :
    s.writeHbias slice (hbiasCommand frame cmd) =
      s.setSlice slice { s.slice slice with
        hbias := hbiasTaken (s.slice slice).hbias (hbiasCommand frame cmd) ||| 1, flipping := some (frame.toNat, decide (cmd = 1)) } := by
  rcases flips with rfl | rfl
  all_goals
    rw [State.writeHbias_taken real idle home visible (by decide)]
    rfl

/-- Command 3 of HBIAS reads a frame's bias into CUR (R197). -/
theorem State.writeHbias_reads :
    s.writeHbias slice (hbiasCommand frame 3) =
      s.setSlice slice { s.slice slice with
        hbias := (hbiasTaken (s.slice slice).hbias (hbiasCommand frame 3) &&& ~~~2) ||| (if s.hostBias.get false frame.toNat then 0 else 2) } := by
  rw [State.writeHbias_taken real idle home visible (by decide)]
  rfl

end Bias

/-- The end of a flip sets the bias and CUR, clears BUSY, and performs what the home held of the host's, in order (R197). -/
theorem execBiasFlipComplete_ends {s : State} {slice f : Nat} {toHost : Bool} (flips : (s.slice slice).flipping = some (f, toHost)) :
    execBiasFlipComplete slice s =
      (let x := s.slice slice
       let t := s.setSlice slice { x with flipping := none, hbias := (x.hbias &&& ~~~3) ||| (if toHost then 0 else 2), hostHeld := [] }
       .next (x.hostHeld.foldl (fun u e => u.hostPerform e.1 e.2) { t with hostBias := t.hostBias.set false f toHost })) := by
  simp only [execBiasFlipComplete, flips]

/-- A write of TINV while BUSY is 0 starts an invalidation (R165). -/
theorem State.writeTinv_starts {s : State} {slice : Nat} (real : slice < 16) (idle : (s.slice slice).tinv.getLsbD 0 = false) (v : DWord) :
    s.writeTinv slice v =
      s.setSlice slice { s.slice slice with tinv := (v &&& ~~~3) ||| ((s.slice slice).tinv &&& 2 &&& ~~~v) ||| 1 } := by
  simp only [State.writeTinv, if_neg (Nat.not_le.mpr real), idle, Bool.false_eq_true, if_false]

/-- An invalidation completes where no core has anything under way through what it names (R165). -/
theorem execInvalidationComplete_settled {s : State} {slice : Nat} (busy : (s.slice slice).tinv.getLsbD 0 = true)
    (settled : ∀ c ∈ s.cores.values, s.through (s.named (s.slice slice).tinv) c = false) :
    execInvalidationComplete slice s =
      (let x := s.slice slice
       .next ((s.setSlice slice { x with tinv := x.tinv &&& ~~~1 }).invalidate (s.named x.tinv))) := by
  have noneLeft : s.cores.values.any (s.through (s.named (s.slice slice).tinv)) = false := by simpa using settled
  simp only [execInvalidationComplete, busy, noneLeft, Bool.not_true, Bool.false_eq_true, if_false]

/-- A lock on a range of frames that none of the slice's locks meets is installed (R168). -/
theorem execFrameLockInstall_free {s : State} {slice frames : Nat} {old : BitVec 27} (new : BitVec 27) (real : slice < 16) (more : 0 < frames)
    (room : (s.slice slice).locks.length < 16)
    (apart : ∀ k ∈ (s.slice slice).locks, ¬(k.old < old.toNat + frames ∧ old.toNat < k.old + k.frames)) :
    execFrameLockInstall slice old new frames s =
      (let x := s.slice slice
       .next (s.setSlice slice { x with locks := x.locks ++ [⟨old.toNat, new.toNat, frames, false, [], []⟩] })) := by
  have free : ((s.slice slice).locks.any fun k => decide (k.old < old.toNat + frames ∧ old.toNat < k.old + k.frames)) = false := by
    rw [List.any_eq_false]
    exact fun k member => by simpa only [decide_eq_true_eq] using apart k member
  simp only [execFrameLockInstall, real, room, free, more, Bool.not_false, and_self, if_true]

/-- A lock turns into a redirection, through which the writes it held are performed (R168). -/
theorem execFrameLockRelease_locked {s : State} {slice : Nat} {old : BitVec 27} {l : FrameLock}
    (locked : ((s.slice slice).locks.find? fun k => k.old = old.toNat && !k.released) = some l) :
    execFrameLockRelease slice old s =
      (let x := s.slice slice
       .next ((s.setSlice slice { x with locks := x.locks.map (FrameLock.release old.toNat) }).performWrites l.held)) := by
  simp only [execFrameLockRelease, locked]

/-- A redirection is removed while no invalidation of its slice is under way (R168). -/
theorem execRedirectionRemove_idle {s : State} {slice : Nat} (old : BitVec 27) (idle : (s.slice slice).tinv.getLsbD 0 = false) :
    execRedirectionRemove slice old s =
      (let x := s.slice slice
       .next (s.setSlice slice { x with locks := x.locks.filter fun k => !(k.old = old.toNat && k.released) })) := by
  simp only [execRedirectionRemove, idle, Bool.false_eq_true, if_false]

end Sys2Proof.Machine
end

section
namespace Sys2Proof.Machine

/-- Settles O43: the host's requests by what they reach, then HBIAS, TINV and the frame locks of a slice. -/
theorem memorySystemEventsComplete : Obligations.MemorySystemEventsComplete := by
  intro s addr n slice frames bs frame old new toHost ctx index ru l a x
  refine ⟨fun inside booted reached settled => ⟨?read, ?write⟩, fun booted => ⟨?devcmd, ?tinv, ?hbias⟩,
    fun real => ⟨?bias, ?invalidations, execFrameLockInstall_free new real⟩, execBiasFlipComplete_ends, execInvalidationComplete_settled,
    execFrameLockRelease_locked, execRedirectionRemove_idle old⟩
  case read =>
    intro covers oneLine
    rw [exec_hostCxlMemAccess, execHostCxlMemAccess_performs (req := .read n) (by simp) inside booted settled covers oneLine,
      State.hostPerform_read reached]
  case write =>
    intro covers oneLine
    rw [exec_hostCxlMemAccess, execHostCxlMemAccess_performs (req := .write bs) (by simp) inside booted settled covers oneLine,
      State.hostPerform_write reached]
  case devcmd | tinv | hbias => exact execHostCxlMemAccess_control addr booted rfl (by simp)
  case bias =>
    intro reg idle home visible
    exact ⟨congrArg _ (State.writeHbias_flips real idle home visible (.inl rfl)),
      congrArg _ (State.writeHbias_flips real idle home visible (.inr rfl)), congrArg _ (State.writeHbias_reads real idle home visible)⟩
  case invalidations =>
    intro idle start
    have starts (v : DWord) : Host.Outcome.next (s.writeTinv slice v) = start v := congrArg _ (State.writeTinv_starts real idle v)
    exact ⟨starts _, starts _, starts _, starts _⟩

end Sys2Proof.Machine
end

section
/-!
PROOFS. The issue of an engine command whose descriptor is watched (R248, R341, R390): the read is performed as the command issues, and its strike is
recorded at the home, by a core of the home's quad.
-/

namespace Sys2Proof.Machine

section Reads

variable {s : State} {d : Deliverer} {who : Nat} {r : ObjRec} {h : BitVec 32} {late : Bool}

/-- The state in which an engine reads elements: what it had asked other nodes for is given up, and its translations are cached (R154, R164). -/
def State.readState (s : State) (d : Deliverer) (who : Nat) (h : BitVec 32) (ps : List Part) : State :=
  (s.dropAsks d.viewer.core who).cacheUse d.viewer h ps

/-- An unchecked engine's read of elements of this device that nothing holds gives their values, and records its strikes (R190, R341). -/
theorem State.engineRead_here {cs : List (List Int)} {ps : List Part} (located : s.locateRun d.viewer r h 0 false cs = .ok ps)
    (near : ps.any (s.partCut d.viewer.core) = false) (free : s.runHeld false ps = false) (unchecked : d.who.checked = false)
    (own : (ps.filterMap Part.group).eraseDups = []) :
    s.engineRead d who r h late cs =
      (let u := s.readState d who h ps
       .ok (u.watchRun d.who.report false ps) (u.engineValues d.viewer.core ps) none (u.strike false ps)) := by
  simp [State.engineRead, State.checkBlocked, State.fetchRemote, State.peekRemote, State.checkRun, State.readState, located, near, free, unchecked, own]

/-- The coordinates of the 64 elements of a descriptor (R248). -/
def ObjRec.descriptorElements (r : ObjRec) (x : Nat) : List (List Int) := (List.range 64).map fun j => r.linear (x + j)

/-- An object holds a descriptor at an element: its 64 elements are in shape, and are 64 bytes in a row (R248). -/
structure ObjRec.HoldsDescriptor (r : ObjRec) (x : Nat) : Prop where
  small : x < 2 ^ 32
  aligned : x % 64 = 0
  bytes : r.eb = 8
  inShape : (r.descriptorElements x).filter (fun c => (r.outside c).isNone) = r.descriptorElements x
  inRow : ∀ j < 64, r.linearBit (x + j) = 8 * (r.linearBit x / 8 + j)

/-- A descriptor that is read goes on with its 64 bytes (R248, R389). -/
theorem State.readDescriptor_done {u t : State} {ib : DWord} {goOn : State → BitVec 512 → Except Hold State} {ps : List Part} {vs : List Nat}
    {race : Option DWord} {strike : Option Nat} (found : s.lookupAt d.viewer h 0 ib.toNat = .ok r) (holds : r.HoldsDescriptor ib.toNat)
    (located : s.locateRun d.viewer r h 0 false (r.descriptorElements ib.toNat) = .ok ps)
    (read : s.engineRead d who r h late (r.descriptorElements ib.toNat) = .ok u vs race strike)
    (goes : goOn (u.engineReports u.core u.raceMode race strike) (BitVec.ofNat 512 (natOfBytes (vs.map fun v => BitVec.ofNat 8 v))) = .ok t) :
    s.readDescriptor d who h ib late goOn = .done t := by
  obtain ⟨small, aligned, bytes, inShape, inRow⟩ := holds
  have below : ¬4294967296 ≤ ib.toNat := Nat.not_le.mpr small
  have row : ¬∃ j < 64, ¬r.linearBit (ib.toNat + j) = 8 * (r.linearBit ib.toNat / 8 + j) := fun ⟨j, lt, ne⟩ => ne (inRow j lt)
  unfold ObjRec.descriptorElements at *
  unfold State.readDescriptor
  simp [found, inShape, below, located, aligned, bytes, row, read, goes, Bind.bind, Except.bind]

/-- A strike of an engine read stops nothing in a context without DBG (R341). -/
theorem State.engineReports_undebugged (undebugged : s.cur.ctx.dbg = false) (mode : BitVec 2) (strike : Option Nat) :
    s.engineReports s.core mode none strike = s := by
  have here : (s.coreAt s.core).ctx.dbg = false := undebugged
  cases strike with
  | none => rfl
  | some a => simp only [State.engineReports, here, Bool.false_eq_true, if_false]

/-- The records of the scratchpad are in no translation cache (R147, R164). -/
theorem State.cacheUse_scratch {v : Viewer} (scratch : 0xFFF00 ≤ handleIndex h) : s.cacheUse v h [] = s := by
  simp [State.cacheUse, scratch]

/-- A command between scratchpad objects, and without a member list, brings no record into them (R164). -/
theorem State.cacheHandles_scratch {v : Viewer} {fn : Nat} {x : BitVec 512} (single : fn ≠ 2) (source : 0xFFF00 ≤ handleIndex (descSrch x))
    (dest : 0xFFF00 ≤ handleIndex (descDsth x)) : s.cacheHandles v fn x none = s := by
  simp [State.cacheHandles, single, State.cacheUse_scratch source, State.cacheUse_scratch dest]

end Reads

/-- Who reads the descriptor of a command of cluster A: its copy engine, through what the issuing word sees (R248). -/
abbrev State.commandParty (s : State) : Deliverer :=
  let me := agentId s.core .A
  { s.engineParty s.core (s.clockOf me) (s.vectorOf me) s.raceMode with viewer := s.here }

/-- A descriptor that passes its checks, and whose handles pass theirs, is accepted (R248, R252). -/
theorem State.tryCommand_accepts {s t : State} {fn : BitVec 7} {h : BitVec 32} {ib : DWord} {late : Bool} {x : BitVec 512} {source dest : ObjRec}
    (read : ∀ goOn u, goOn t x = .ok u → s.readDescriptor s.commandParty askCommandWord h ib late goOn = .done u) (ok : descOk fn.toNat x = true)
    (handles : t.checkHandles s.here fn.toNat x = .ok (source, dest)) :
    s.tryCommand fn h ib late = .done ((t.cacheHandles s.here fn.toNat x none).accept fn x source dest) := by
  dsimp only [State.tryCommand]
  rw [read _ _ ?goes]
  simp only [ok, handles, Bool.not_true, Bool.false_eq_true, if_false]

/-- A command of cluster A without a reply, which nothing holds back, issues once it has been accepted (R390). -/
theorem planCommand_done {s t : State} {fn : BitVec 7} {a b : BitVec 5} {ha ib : DWord} (d : BitVec 5) (hha : s.srcDef a = .ok ha)
    (hib : s.srcDef b = .ok ib) (room : s.cur.commandsFull = false) (free : s.cur.commandsHeld = false)
    (done : s.tryCommand fn (ha.extractLsb' 0 32) ib false = .done t) : planCommand fn d a b false s = .ok t.retire := by
  simp [planCommand, hha, hib, room, free, done, Bind.bind, Except.bind]

end Sys2Proof.Machine
end

section
/-!
PROOFS. A COPY that writes a record into memory as it issues: the watchpoint DWP0 watches its descriptor, and the cores of the quad where that has its home
write WATCH records. Which of the four writes it is the model's free choice, so that what follows is evaluated for each.
-/

namespace Sys2Proof.Machine

/-- A task of core 0 at a COPY with the descriptor at 0x1000, whose first byte is watched for reads (R340): WATCH records are off in core 0, and on in the
cores 4 to 7, the quad of that byte's home (R26, R335). Their buffers begin at address 0. -/
def watchedCopy : State :=
  let record := packFields [(0x40, 37), (0, 37), (64, 20), (1, 20), (1, 20), (1, 20), (0, 124), (8, 4), (0, 26), (15, 4), (0, 167), (1, 1)]
  let descriptor := packFields [(0xFFFFF000, 32), (0xFFFFF000, 32), (0, 256), (1, 16), (1, 16), (1, 16), (1, 16), (0, 48), (1, 8)]
  let issuer : Core :=
    { Core.start with busy := true, ctx := { ContextData.none with root := 0x8000200000010000 }, scal := ⟨[(1, ⟨[⟨0, .A, 0x1000, true⟩], none⟩)]⟩ }
  { State.reset with
    cluster := .A
    dcc := 10
    cores := ⟨(0, issuer) :: [4, 5, 6, 7].map fun n => (n, { Core.start with dctl := 8 })⟩
    mem := (Memory.write .empty 0x10040 64 record).write 0x1000 64 descriptor
    dwp := .put .empty 0 0x8000400000001000 }

/-- The record of the object that holds its descriptor. -/
def watchedRecord : ObjRec := watchedCopy.record watchedCopy.here 1

/-- The elements of its descriptor. -/
def watchedParts : List Part := (List.range 64).map fun j => ⟨.device (0x1000 + j), j, 0, 8, none⟩

/-- Its descriptor. -/
def watchedDescriptor : BitVec 512 := BitVec.ofNat 512 (watchedCopy.homeRead 0x1000 64)

/-- The state in which its descriptor is read. -/
def watchedRead : State := watchedCopy.readState watchedCopy.commandParty askCommandWord 0x1000 watchedParts

/-- The state after that read, the strike recorded by core `n`. -/
def watchedBy (n : Nat) : State := watchedRead.logWatch n 0x1000 0x100 false false

/-- The state after the word, the strike recorded by core `n`. -/
def copyWatchedBy (n : Nat) : State := ((watchedBy n).accept 0 watchedDescriptor .scratchpad .scratchpad).retire

/-- The core of quad 1 that the model chooses to record the strike (R341). -/
def watchedRecorder : Nat := 4 + Config.pick (8 * watchedRead.steps + 3) % 4

theorem watchedRecorder_mem : watchedRecorder ∈ [4, 5, 6, 7] := by
  have four : Config.pick (8 * watchedRead.steps + 3) % 4 < 4 := Nat.mod_lt _ (by decide)
  simp only [watchedRecorder, List.mem_cons, List.not_mem_nil, or_false]
  omega

theorem watchedCopy_found : watchedCopy.lookupAt watchedCopy.here 0x1000 0 0 = .ok watchedRecord := by decide +kernel

theorem watchedRecord_holds : watchedRecord.HoldsDescriptor 0 where
  small := by decide
  aligned := by decide
  bytes := by decide +kernel
  inShape := by decide +kernel
  inRow := by decide +kernel

theorem watchedCopy_located :
    watchedCopy.locateRun watchedCopy.here watchedRecord 0x1000 0 false (watchedRecord.descriptorElements 0) = .ok watchedParts := by decide +kernel

theorem watchedRead_values :
    BitVec.ofNat 512 (natOfBytes ((watchedRead.engineValues 0 watchedParts).map fun v => BitVec.ofNat 8 v)) = watchedDescriptor := by decide +kernel

/-- The read strikes once, and the chosen core records it (R341). -/
theorem watchedRead_recorded : watchedRead.watchRun 0x100 false watchedParts = watchedBy watchedRecorder := by
  have strikes : watchedRead.strikes false watchedParts = [0x1000] := by decide +kernel
  simp only [State.watchRun, strikes, List.foldl]
  rfl

theorem watchedCopy_read :
    watchedCopy.engineRead watchedCopy.commandParty askCommandWord watchedRecord 0x1000 false (watchedRecord.descriptorElements 0) =
      .ok (watchedBy watchedRecorder) (watchedRead.engineValues 0 watchedParts) none (watchedRead.strike false watchedParts) := by
  have near : watchedParts.any (watchedCopy.partCut 0) = false := by decide +kernel
  have free : watchedCopy.runHeld false watchedParts = false := by decide +kernel
  have unchecked : watchedCopy.commandParty.who.checked = false := by decide +kernel
  rw [State.engineRead_here (d := watchedCopy.commandParty) watchedCopy_located near free unchecked (by decide +kernel), ← watchedRead_recorded]
  rfl

/-- Whichever core has recorded the strike, the descriptor's handles pass (R248), and the strike stops nothing. -/
theorem watchedBy_passes : ∀ n ∈ [4, 5, 6, 7],
    (watchedBy n).cur.ctx.dbg = false ∧
    (watchedBy n).checkHandles watchedCopy.here 0 watchedDescriptor = .ok (.scratchpad, .scratchpad) := by decide +kernel

/-- Whichever core has recorded the strike, the record's first byte stands in memory (R337), and the task goes on. -/
theorem copyWatchedBy_records : ∀ n ∈ [4, 5, 6, 7], (copyWatchedBy n).cur.stop = none ∧ (copyWatchedBy n).homeByte 0 = 0xA5 := by decide +kernel

theorem tryCommand_watchedCopy :
    watchedCopy.tryCommand 0 0x1000 0 false = .done ((watchedBy watchedRecorder).accept 0 watchedDescriptor .scratchpad .scratchpad) := by
  obtain ⟨undebugged, handles⟩ := watchedBy_passes _ watchedRecorder_mem
  rw [State.tryCommand_accepts (s := watchedCopy) (fn := 0) (x := watchedDescriptor) (fun goOn u goes => ?read) (by decide +kernel) handles,
    State.cacheHandles_scratch (by decide) (by decide +kernel) (by decide +kernel)]
  case read =>
    refine State.readDescriptor_done (d := watchedCopy.commandParty) watchedCopy_found watchedRecord_holds watchedCopy_located watchedCopy_read ?_
    rw [State.engineReports_undebugged undebugged, watchedRead_values, goes]

/-- The COPY issues, and the chosen core has recorded the strike of its descriptor's read. -/
theorem exec_copy_watchedCopy : exec (.copy 0 1 0 false) watchedCopy = .next (copyWatchedBy watchedRecorder) := by
  have gate : watchedCopy.gate (.copy 0 1 0 false) = .ok () := State.gate_ok _ _ (by decide +kernel) rfl rfl
  have handle : watchedCopy.srcDef 1 = .ok 0x1000 := by decide +kernel
  have index : watchedCopy.srcDef 0 = .ok 0 := by decide +kernel
  rw [exec_copy, execCopy]
  exact runWord_done gate (planCommand_done 0 handle index (by decide +kernel) (by decide +kernel) tryCommand_watchedCopy)

/-- Refutes O57: WATCH records are assumed to be off in the issuing core alone, but the strike of an engine command's descriptor read is recorded at the home
(R341), in the buffer of a core of the home's quad. Where that is another quad whose cores write WATCH records, the issue of a COPY changes bytes of memory. -/
theorem not_accessWordsFrame : ¬ Obligations.AccessWordsFrame := by
  intro frame
  obtain ⟨noStop, written⟩ := copyWatchedBy_records _ watchedRecorder_mem
  obtain ⟨leaves, -⟩ :=
    frame watchedCopy _ (.copy 0 1 0 false) 0 0 false 0 (by decide +kernel) (by decide +kernel) exec_copy_watchedCopy noStop
  have off : watchedCopy.cur.dctl.getLsbD 3 = false := by decide +kernel
  have unraced : watchedCopy.raceMode = 0 := by decide +kernel
  obtain ⟨kept, -⟩ := leaves rfl off fun _ => unraced
  have unwritten : watchedCopy.homeByte 0 = 0 := by decide +kernel
  have same : (0xA5 : Byte) = 0 := by rw [← written, kept 0, unwritten]
  exact absurd same (by decide)

end Sys2Proof.Machine
end

section
/-!
PROOFS. The acting words of an array (R82, R226 to R228, R235 to R237, R425, R427, R436, R437).
-/

namespace Sys2Proof.Machine

/-- A trap of a cause other than UNCORR stops the task at its word, with what it reports (R288, R290). -/
theorem State.settle_trap (s : State) {info : TrapInfo} (h : info.cause ≠ 0x1A) :
    s.settle (.error (.trap info)) = s.stopPrecise .trap false info := by
  rw [State.settle, if_neg h]

/-- A word of cluster M that a loop end and DXW admit passes the gate there when its fields are sound. -/
theorem State.gate_M {s : State} {i : Instr} (c : s.cluster = .M) (h : opAllowed (opOf i) .M = true) (f : fieldCheck i = none)
    (e : endForbidden i = false) (e' : dxwForbidden i = false) : s.gate i = .ok () :=
  s.gate_ok i (by rw [c]; exact checkWord_allowed h f) e e'

/-- The reading of the format table entry of array `y` for a word of cluster M succeeds: with `bits`, in state `t` (R138). -/
def State.EntryRead (s t : State) (y : Bool) (bits : BitVec 128) : Prop :=
  ∀ goOn, s.withEntry (s.entryIndex y) (askWord .M) (fun t => t.waited 0 0) goOn = goOn t bits

/-- The MMUL that array `y` of `s` takes into its pending slot when its entry has been read in state `t`, as the `seq`-th operation (R227, R427). -/
def State.issuedMmul (s t : State) (y : Bool) (bits : BitVec 128) (seq : Nat) : PendingOp :=
  { regs := (s.cur.array y).regs, entry := bits, stamp := (s.cur.array y).ms, seq := seq, pc := t.cl.pc, index := some (s.entryIndex y), checked := true,
    entered := t.dcc, mode := t.raceMode, steps := [], staged := [], waiting := false, since := 0 }

/-- The drain that an MDRAIN of array `x` puts into the drain slot when its entry has been read in state `t`: an accumulator that is FRESH drains with
scales of 1.0 (R226, R425). -/
def State.issuedDrain (t : State) (x : ArrayState) (bits : BitVec 128) : ArrayOp :=
  let st := t.cur.accState x.regs.accumulator
  { isDrain := true, regs := x.regs, entry := bits, seq := t.cur.seq, row := 0, b := [], bScale := [], ta := if st.fresh then oneBits else st.ta,
    tb := if st.fresh then oneBits else st.tb, waiting := false, since := 0, latched := true, pc := t.cl.pc, mode := t.raceMode, steps := [],
    staged := [] }

section ClusterM

variable {s : State} {y : Bool} (cluster : s.cluster = .M)
include cluster

theorem State.gate_mmul : s.gate (.mmul y) = .ok () := State.gate_M cluster rfl rfl rfl rfl

/-- An MMUL without a stamp, or stamped no more than 2^32 cycles ahead, enters the free pending slot once its checks pass (R82, R227, R427). -/
theorem execMmul_enters {t : State} {bits : BitVec 128} {e : MatEntry} (free : (s.cur.array y).pend = none)
    (timely : (s.cur.array y).ms = 0 ∨ s.dcc < (s.cur.array y).ms.toNat ∧ (s.cur.array y).ms.toNat ≤ s.dcc + 2 ^ 32)
    (sources : sourceCheck y (s.cur.array y).regs = .ok ()) (read : s.EntryRead t y bits)
    (passes : t.checkMmul (s.cur.array y).regs bits = .ok e) :
    let g := (s.cur.array y).regs
    let c := t.cur.openAcc g.accumulator e.ak (stepField g.ma 224 32) (stepField g.mb 224 32)
    execMmul y s = .next ((t.setCur ({ c with seq := c.seq + 1 } : Core)).setArray y
      { s.cur.array y with pend := some (s.issuedMmul t y bits c.seq) }).retire := by
  have inTime : ¬((s.cur.array y).ms ≠ 0 ∧ (s.dcc + 2 ^ 32 < (s.cur.array y).ms.toNat ∨ (s.cur.array y).ms.toNat ≤ s.dcc)) := by
    rintro ⟨stamped, late⟩
    have window := timely.resolve_left stamped
    omega
  refine runWord_done (State.gate_mmul cluster) ?_
  simp only [free, Option.isSome_none, Bool.false_eq_true, if_false, if_neg inTime, sources, Bind.bind, Except.bind]
  rw [read, passes]
  rfl

/-- A stamp that is past or too far ahead is missed before anything is checked (R82, R427). -/
theorem execMmul_misses (free : (s.cur.array y).pend = none) (stamped : (s.cur.array y).ms ≠ 0)
    (untimely : (s.cur.array y).ms.toNat ≤ s.dcc ∨ s.dcc + 2 ^ 32 < (s.cur.array y).ms.toNat) :
    execMmul y s = .next (s.stopPrecise .trap false ⟨0x0D, 0, (s.cur.array y).ms, [], 0⟩) := by
  rw [execMmul, runWord_gate (State.gate_mmul cluster)]
  simp only [free, Option.isSome_none, Bool.false_eq_true, if_false, if_pos (And.intro stamped untimely.symm)]
  rw [s.settle_trap (show 0x0D ≠ 0x1A by decide)]

/-- An MDRAIN whose checks pass enters the free drain slot and leaves its accumulator FRESH (R226, R236, R425). -/
theorem execMdrain_enters {t : State} {bits : BitVec 128} (free : ∀ o ∈ (s.cur.array y).ops, o.isDrain = false)
    (own : otherArray y (BitVec.ofNat 4 (s.cur.array y).regs.accumulator) = false) (read : s.EntryRead t y bits)
    (passes : t.checkDrain (s.cur.array y).regs bits = .ok ()) :
    let x := s.cur.array y
    let k := x.regs.accumulator
    execMdrain y s =
      .next ((t.setCur (({ t.cur with seq := t.cur.seq + 1 } : Core).setAccState k { t.cur.accState k with fresh := true })).setArray y
        { x with ops := x.ops ++ [t.issuedDrain x bits] }).retire := by
  have noDrain : ((s.cur.array y).ops.any fun o => o.isDrain) = false := by
    simpa only [List.any_eq_false, Bool.not_eq_true] using free
  refine runWord_done (State.gate_M cluster rfl rfl rfl rfl) ?_
  simp only [noDrain, own, Bool.false_eq_true, if_false]
  rw [read, passes]
  rfl

/-- MZERO zeroes an accumulator of its array that no operation uses (R235, R437). -/
theorem execMzero_zeroes {n : BitVec 4} (own : n.getLsbD 3 = y) (unused : (s.cur.array y).uses n.toNat = false) :
    execMzero y n s = .next (s.setCur ((s.cur.zeroAcc n.toNat).setAccState n.toNat .start)).retire := by
  have same : otherArray y n = false := by rw [otherArray, own, bne_self_eq_false]
  have fields : fieldCheck (.mzero y n) = none := by simp [fieldCheck, firstFail, same]
  refine runWord_done (State.gate_M cluster rfl fields rfl rfl) ?_
  simp only [unused, Bool.false_eq_true, if_false]

/-- MWAIT passes when the arrays it names have finished (R237, R436). -/
theorem execMwait_passes {both : Bool} (assigned : ¬(y = true ∧ both = true)) (done : s.cur.arrayDone y = true)
    (other : both = true → s.cur.arrayDone (!y) = true) : execMwait y both s = .next s.retire := by
  have fields : fieldCheck (.mwait y both) = none := by simp [fieldCheck, firstFail, assigned]
  have finished : (s.cur.arrayDone y && (!both || s.cur.arrayDone (!y))) = true := by
    cases both
    case false => simp [done]
    case true => simp [done, other rfl]
  refine runWord_done (State.gate_M cluster rfl fields rfl rfl) ?_
  rw [if_pos finished]

end ClusterM

end Sys2Proof.Machine
end

section
namespace Sys2Proof.Machine

/-- Settles O24: each word past its gate, MMUL by its stamp. -/
theorem matrixActingWordsComplete : Obligations.MatrixActingWordsComplete := by
  intro s t y both n bits e cluster
  exact ⟨execMmul_enters cluster, execMmul_misses cluster, execMdrain_enters cluster, execMzero_zeroes cluster, execMwait_passes cluster⟩

end Sys2Proof.Machine
end

section
/-!
PROOFS. The engine words of cluster A (R246, R248, R390, R453).
-/

namespace Sys2Proof.Machine

theorem checkXc_sound {d : BitVec 5} {reply : Bool} (unused : reply = false → d = 0) : checkXc d reply = none := by
  cases reply with
  | false => simp [checkXc, firstFail, unused rfl]
  | true => rfl

/-- A word of cluster A that a loop end and DXW allow passes the gate there when its fields are sound. -/
theorem State.gate_A {s : State} {i : Instr} (c : s.cluster = .A) (h : opAllowed (opOf i) .A = true) (f : fieldCheck i = none)
    (e : endForbidden i = false) (e' : dxwForbidden i = false) : s.gate i = .ok () :=
  s.gate_ok i (by rw [c]; exact checkWord_allowed h f) e e'

/-- An engine word, whose destination is 0 where it has no reply, passes the gate of cluster A and does what its function's plan says (R388, R452). -/
theorem exec_engineWord {s : State} {d a b : BitVec 5} {reply : Bool} {fn : BitVec 7} {word : BitVec 5 → BitVec 5 → BitVec 5 → Bool → Instr}
    (engine : (word, fn) ∈ [(Instr.copy, (0 : BitVec 7)), (.send, 1), (.mcast, 2), (.redw, 3)]) (cluster : s.cluster = .A)
    (unused : reply = false → d = 0) : exec (word d a b reply) s = .next (s.settle (planCommand fn d a b reply s)) := by
  simp only [List.mem_cons, Prod.mk.injEq, List.not_mem_nil, or_false] at engine
  rcases engine with ⟨rfl, rfl⟩ | ⟨rfl, rfl⟩ | ⟨rfl, rfl⟩ | ⟨rfl, rfl⟩
  all_goals exact runWord_gate (State.gate_A cluster rfl (checkXc_sound unused) rfl rfl)

section Plan

variable {s : State} {a b : BitVec 5} {ha ib : DWord} (handle : s.srcDef a = .ok ha) (index : s.srcDef b = .ok ib)
  (room : s.cur.commandsFull = false)
include handle index room

/-- A command with a reply, which nothing holds back, issues once it has been accepted, and its destination takes its number (R390, R453). -/
theorem planCommand_replies {t : State} {fn : BitVec 7} {d : BitVec 5} (dest : s.destFree d = .ok ()) (free : s.cur.commandsHeld = false)
    (done : s.tryCommand fn (ha.extractLsb' 0 32) ib false = .done t) :
    planCommand fn d a b true s = .ok (t.produce d false (some (s.cur.cmdn.setWidth 64))).retire := by
  simp [planCommand, handle, index, room, dest, free, done, Bind.bind, Except.bind]

/-- A command without a reply that a MARK, an acquire or a FENCE holds waits in the queue of cluster A (R390, R421). -/
theorem planCommand_queues (fn : BitVec 7) (d : BitVec 5) (held : s.cur.commandsHeld = true) :
    planCommand fn d a b false s = .ok (s.queueCommand fn (ha.extractLsb' 0 32) ib none).retire := by
  simp [planCommand, handle, index, room, held, Bind.bind, Except.bind]

end Plan

end Sys2Proof.Machine
end

section
namespace Sys2Proof.Machine

/-- Settles O16: a command that nothing holds is accepted, with or without a reply; one that is held waits. -/
theorem engineWordsComplete : Obligations.EngineWordsComplete := by
  intro s t d a b reply ha ib x src dst fn word engine cluster handle index room dest unused me p h
  rw [exec_engineWord engine cluster unused]
  refine ⟨?accepted, ?queued⟩
  case accepted =>
    intro free read ok handles u
    have done : s.tryCommand fn h ib false = .done u := State.tryCommand_accepts read ok handles
    cases reply with
    | false => rw [planCommand_done d handle index room free done]; rfl
    | true => rw [planCommand_replies handle index room dest free done]; rfl
  case queued =>
    intro held silent
    rw [silent, planCommand_queues handle index room fn d held]
    rfl

end Sys2Proof.Machine
end

section
/-!
PROOFS. Packets that arrive at a port: what becomes of each (R265, R266, R283).
-/

namespace Sys2Proof.Machine

section Arrival

variable {s : State} {p : Packet} {opc : Nat} {f : BitVec 16 → State}

/-- A packet at a port that is down is lost (R283). -/
theorem State.arrival_down (down : (s.port p.port).down = true) : s.arrival p opc f = s := by rw [State.arrival, if_pos down]

/-- A load request is served again when it is repeated (R264). -/
theorem State.answered_loadRequest (request : p.opc = 3) : s.answered p = none := by rw [State.answered, if_pos request]

variable (up : (s.port p.port).down = false) (assigned : opc < 10) (code : p.opc.toNat = opc)
include up assigned code

/-- A packet that has been answered is answered again (R265). -/
theorem State.arrival_again {a : Answer} (again : s.answered p = some a) : s.arrival p opc f = s.answer p a := by
  simp [State.arrival, up, code, Nat.not_le.mpr assigned, again]

variable (first : s.answered p = none)
include first

/-- A packet of a job that the node does not run is answered so (R266). -/
theorem State.arrival_noJob (unknown : s.jobs.find p.job.toNat = none) : s.arrival p opc f = s.answer p .noJob := by
  simp [State.arrival, up, code, Nat.not_le.mpr assigned, first, unknown]

/-- A packet of a job that the node runs is handled in its context (R266). -/
theorem State.arrival_handled {ctx : BitVec 16} (job : s.jobs.find p.job.toNat = some ctx) : s.arrival p opc f = f ctx := by
  simp [State.arrival, up, code, Nat.not_le.mpr assigned, first, job]

end Arrival

/-- PLACE, REDU and REDO place their elements as they arrive (R267 to R269). -/
theorem exec_placementPacket {s : State} {p : Packet} {shd : Bool} {opc : BitVec 4} {word : Packet → Bool → Instr}
    (places : (word, opc) ∈ [((fun p b => Instr.place p b), (0 : BitVec 4)), ((fun p b => .redu p b), 1), ((fun p b => .redo p b), 2)]) :
    opc.toNat < 10 ∧ exec (word p shd) s = .next (s.arrival p opc.toNat (s.placePacket p shd)) := by
  simp only [List.mem_cons, Prod.mk.injEq, List.not_mem_nil, or_false] at places
  rcases places with ⟨rfl, rfl⟩ | ⟨rfl, rfl⟩ | ⟨rfl, rfl⟩
  all_goals exact ⟨by decide, rfl⟩

end Sys2Proof.Machine
end

section
namespace Sys2Proof.Machine

/-- Settles O36: the three packets by what their arrival comes to. -/
theorem placementPacketsComplete : Obligations.PlacementPacketsComplete := by
  intro s p shd ctx a opc word places code
  obtain ⟨assigned, arrives⟩ := exec_placementPacket (s := s) (p := p) (shd := shd) places
  have code : p.opc.toNat = opc.toNat := by rw [code]
  rw [arrives]
  exact ⟨fun down => congrArg _ (State.arrival_down down), fun up =>
    ⟨fun first job => congrArg _ (State.arrival_handled up assigned code first job),
      fun again => congrArg _ (State.arrival_again up assigned code again),
      fun first unknown => congrArg _ (State.arrival_noJob up assigned code first unknown)⟩⟩

end Sys2Proof.Machine
end

section
/-!
PROOFS. Accesses that other nodes forward (R154, R164, R199, R202, R203, R270).
-/

namespace Sys2Proof.Machine

/-- A forwarded access of `n` bytes can be performed now: its handle resolves to a record, its bytes lie in the object at this node, no lock or flip
holds them, and Sorrel's check, which leaves `t`, lets it go on. -/
structure State.ForwardedReady (s t : State) (p : Packet) (ctx : BitVec 16) (r : ObjRec) (ps : List Part) (acc code n : Nat) : Prop where
  found : s.forwardedRecord (s.portParty p ctx).viewer p.handle acc = .ok r
  placed : s.forwardedParts (s.portParty p ctx).viewer r p.handle acc (packetOffset p) n = .ok ps
  free : s.runHeld (decide (code ≠ 12)) ps = false
  passes : ∃ race, s.checkRun (s.portParty p ctx) r p.handle code (decide (code ≠ 12)) (p.acq || p.rel || decide (code = 14)) (s.heldLong p)
    (r.linear ((packetOffset p) * 8 / r.eb)) ps = .ok t race

/-- The state in which a checked access of a port's party is performed: its translations are cached, its strikes recorded, and an acquire that reads a
map's set bit has joined (R164, R203, R341). -/
def State.forwardedBegun (t : State) (party : Deliverer) (p : Packet) (write : Bool) (ps : List Part) : State :=
  let u := (t.cacheUse party.viewer p.handle ps).watchRun party.who.report write ps
  if p.acq && ps.any (u.readsMap 0) then u.joinMap portGroup else u

/-- The state with a forwarded access done: a release steps the port group's clock (R202). -/
def State.forwardedDone (u : State) (p : Packet) : State := (if p.rel then u.tick portGroup else u).settleWith p .done

section Forwarded

variable {s t : State} {p : Packet} {ctx : BitVec 16} {r : ObjRec} {ps : List Part} {acc code n : Nat}

/-- A forwarded access that is ready is performed (R270). -/
theorem State.performForwarded_ready (ready : s.ForwardedReady t p ctx r ps acc code n) (f : State → List Part → State × Answer)
    (g : State → List Part → State) (does : ∀ u ps, f u ps = (g u ps, .done)) :
    s.performForwarded p ctx acc code n f = (g (t.forwardedBegun (s.portParty p ctx) p (decide (code ≠ 12)) ps) ps).forwardedDone p := by
  obtain ⟨found, placed, free, race, passes⟩ := ready
  simp only [State.performForwarded, found, placed, free, Bool.false_eq_true, if_false, passes, does]
  rfl

variable (up : (s.port p.port).down = false) (job : s.jobs.find p.job.toNat = some ctx)
include up job

/-- A load request of at most 512 bytes sends them back (R270). -/
theorem execLoadRequest_ready {len : Nat} (code : p.opc = 3) (ready : s.ForwardedReady t p ctx r ps 0 12 (min len 512)) :
    execLoadRequest p len s =
      (let u := t.forwardedBegun (s.portParty p ctx) p false ps
       .next ((u.sendBack p 4 (ps.map fun q => BitVec.ofNat 8 (u.elementAt (u.schedViewer ctx) q))).forwardedDone p)) := by
  rw [execLoadRequest, State.arrival_handled up (by decide) (by rw [code]; rfl) (State.answered_loadRequest code) job,
    State.performForwarded_ready ready _ _ fun _ _ => rfl]
  rfl

variable (first : s.answered p = none)
include first

/-- A store into an object other than a doorbell writes its elements (R150, R270). -/
theorem execStore_ready (code : p.opc = 5) (data : r.kind ≠ 2) (found : s.forwardedRecord (s.schedViewer ctx) p.handle 1 = .ok r)
    (ready : s.ForwardedReady t p ctx r ps 1 13 (min (storeBytes p r) 512)) :
    execStore p s =
      (let w := s.schedViewer ctx
       let u := t.forwardedBegun (s.portParty p ctx) p true ps
       .next ((u.putRun w false (nibbleParts p (u.record w (handleIndex p.handle)) ps)).forwardedDone p)) := by
  rw [execStore, State.arrival_handled up (by decide) (by rw [code]; rfl) first job]
  simp only [found, data, decide_false, Bool.false_eq_true, if_false]
  rw [State.performForwarded_ready ready _ _ fun _ _ => rfl]
  rfl

/-- An atomic writes its new value and sends the old one back (R184, R270). -/
theorem execAtomic_ready {op : AtomOp} {wide : Bool} {v cmp : DWord} (code : p.opc = 6)
    (ready : s.ForwardedReady t p ctx r ps 2 14 (if wide then 8 else 4)) :
    execAtomic p op wide v cmp s =
      (let u := t.forwardedBegun (s.portParty p ctx) p true ps
       let n := if wide then 8 else 4
       let old := natOfBytes (ps.map fun q => BitVec.ofNat 8 (u.elementAt (u.schedViewer ctx) q))
       let new := atomicNew op wide old (v.toNat % 2 ^ (8 * n)) (cmp.toNat % 2 ^ (8 * n))
       .next (((u.putRun (u.schedViewer ctx) false (ps.zip ((bytesOfNat n new).map BitVec.toNat))).sendBack p 7 (bytesOfNat n old)).forwardedDone p)) := by
  rw [execAtomic, State.arrival_handled up (by decide) (by rw [code]; rfl) first job]
  rw [State.performForwarded_ready ready _ _ fun _ _ => rfl]
  rfl

/-- A remote arrival reaches the barrier that it names (R382). -/
theorem execRarrive_arrives (code : p.opc = 8) :
    execRarrive p s =
      .next ((s.remoteArrival p.port (p.uoff.toNat % 64) (p.aux.extractLsb' 0 4) (p.coord.extractLsb' 32 32) (p.coord.extractLsb' 0 32)).answer
        p .done) := by
  rw [execRarrive, State.arrival_handled up (by decide) (by rw [code]; rfl) first job]

end Forwarded

end Sys2Proof.Machine
end

section
namespace Sys2Proof.Machine

/-- Settles O37: each access once it is ready, and the arrival. -/
theorem forwardedAccessesComplete : Obligations.ForwardedAccessesComplete := by
  intro s t p ctx r ps len op wide v cmp up fresh job w party ready begun settled
  have first : s.answered p = none := fresh.elim State.answered_loadRequest id
  have isReady {acc code n : Nat} : ready acc code n → s.ForwardedReady t p ctx r ps acc code n :=
    fun ⟨found, placed, free, passes⟩ => ⟨found, placed, free, passes⟩
  exact ⟨fun code h => execLoadRequest_ready up job code (isReady h),
    fun code data found h => execStore_ready up job first code data found (isReady h),
    fun code h => execAtomic_ready up job first code (isReady h), execRarrive_arrives up job first⟩

end Sys2Proof.Machine
end

section
/-!
PROOFS. The answers that come back to a core's remote accesses, and arrivals at barriers (R261, R270, R379).
-/

namespace Sys2Proof.Machine

section Answered

variable {s : State} {core id : Nat} {x : Access} (found : (s.coreAt core).findAccess id = some x) (sent : x.phase = .sent)
include found sent

/-- Load data settles the request of the load that is out, and fills its elements (R261, R270). -/
theorem execLoadData_load {d : BitVec 5} {w : Nat} {signed : Bool} (load : x.op = .load d w signed) (data : List Byte) :
    execLoadData core id data s = .next ((s.requestAnswered core id).loadAnswered core x data) := by
  simp [execLoadData, found, sent, load]

/-- The reply of an atomic that is out ends it, and its destination takes the old value; a release steps its cluster's clock (R270). -/
theorem execAtomicReply_atomic {op : AtomOp} {wide signed : Bool} {v cmp : DWord} {d : BitVec 5}
    (atomic : x.op = .atomic op wide v cmp (some d) signed) (old : DWord) :
    execAtomicReply core id old s =
      (let t := s.requestAnswered core id
       let u := t.setCoreAt core (((t.coreAt core).freeSlot id).dropAccess id)
       let w := if x.rel then u.released (agentId core x.cluster) else u
       .next (w.setCoreAt core ((w.coreAt core).deliver d (atomicOld wide signed old.toNat)))) := by
  simp only [execAtomicReply, found, atomic, sent, ne_eq, not_true, if_false]

end Answered

/-- A load with a request out takes the bytes that answer it, sends its flits on their way, and is complete where nothing is left to read and no slot
waits for flits (R261). -/
theorem State.loadAnswered_group {s : State} {n : Nat} {x : Access} {g : Nat × Nat} (out : x.remoteGroup = some g) (data : List Byte) :
    s.loadAnswered n x data =
      (let y := { x with parts := answerParts g (remoteSpan g x.parts).1 data x.parts, phase := .issued }
       let u := (s.setCoreAt n ((s.coreAt n).putAccess y)).sendFlits n (sagePos (Config.choice s.steps 1026 % 8)) x y
       if y.keys.isEmpty && ((u.coreAt n).slotOf x.id).isNone then u.finishAccess n y else u) := by
  simp only [State.loadAnswered, out]

/-- A flit that leaves parts of its slot still to come fills its part (R261). -/
theorem State.takeFlit_part {s : State} {core k : Nat} {f : Flit} {slot : Slot32} {x : Access}
    (waits : ((s.coreAt core).slots.cells.find? fun e => e.2.msg = f.msg) = some (k, slot)) (found : (s.coreAt core).findAccess f.msg = some x)
    (more : slot.mask ||| (1 <<< f.index) ≠ 0xFF) :
    s.takeFlit core f =
      (let sl := { slot with mask := slot.mask ||| (1 <<< f.index), data := slot.data.put f.index f.data }
       s.setCoreAt core { s.coreAt core with slots := (s.coreAt core).slots.put k sl }) := by
  simp only [State.takeFlit, waits, found, if_neg more]

/-- A flit that Chervil has delivered at its core, with its data, is taken in (R259, R261). -/
theorem execFlitDelivery_delivered {s : State} {core msg : Nat} {flit : BitVec 3} {f : Flit}
    (delivered : s.deliveredFlit core msg flit.toNat = some f) :
    execFlitDelivery core msg flit f.data s = .next ({ s with flits := s.flits.erase f }.takeFlit core f) := by
  simp only [execFlitDelivery, delivered, if_true]

/-- The arrival of a core's access reaches its barrier once nothing before it holds it (R379). -/
theorem execBarrierArrival_local {s : State} {n id core : Nat} {x : Access} {bar : BitVec 4} {round l : BitVec 32}
    (found : (s.coreAt n).findAccess id = some x) (arrives : x.op = .arrive core bar round l none)
    (may : x.mayPerform ((s.coreAt n).accessesBefore x.cluster id) = true) :
    execBarrierArrival core bar round (some l) (.local n id) s = .next (s.localArrival n x core bar round l) := by
  simp only [execBarrierArrival, found, arrives, may, and_self, if_true]

/-- The arrival of the GNTFY at which a Sage core stands is that word's (R379, R407). -/
theorem execBarrierArrival_sage {s : State} {n core : Nat} {bar : BitVec 4} {round : BitVec 32} {a b : BitVec 4}
    (stands : s.notifying n core bar round = some (a, b)) (launch : Option (BitVec 32)) :
    execBarrierArrival core bar round launch (.sage n) s = execGntfy a b { s with sage := n } := by
  simp only [execBarrierArrival, stands]

end Sys2Proof.Machine
end

section
namespace Sys2Proof.Machine

/-- Settles O38: the answers to a load and to an atomic, a flit, and the arrivals by where they come from. -/
theorem remoteAnswersComplete : Obligations.RemoteAnswersComplete := by
  intro s core id x g data old op wide signed v cmp d bar round l port n k flit f slot a b c
  refine ⟨fun found sent => ⟨fun w load out => ?load, fun atomic => execAtomicReply_atomic found sent atomic old⟩,
    fun waits found delivered more => (execFlitDelivery_delivered delivered).trans (congrArg _ ?flit), rfl, execBarrierArrival_local, fun stands => execBarrierArrival_sage stands none⟩
  case load => rw [exec_loadData, execLoadData_load found sent load data, State.loadAnswered_group out]
  case flit => exact State.takeFlit_part (s := { s with flits := s.flits.erase f }) waits found more

end Sys2Proof.Machine
end

section
/-!
PROOFS. The events of packets that are out, of trimmed packets, and of debug packets (R256, R264, R265, R277, R285).
-/

namespace Sys2Proof.Machine

section Out

variable {s : State} {pdc : Nat} {psn : BitVec 32} {o : OutPacket} (out : s.outPacket pdc psn = some o)
include out

/-- An acknowledgement that shows no gap and no congestion mark settles its packet alone (R265). -/
theorem execAcknowledgement_plain (delay : BitVec 32) :
    execAcknowledgement pdc psn [] false delay s = .next ((s.dropPacket pdc o).packetEnded o .done) := by
  simp [execAcknowledgement, out, State.resend, State.raiseResent]

/-- A NACK resends its packet at once, and raises RETX and TRIM (R265, R277). -/
theorem execNack_resends :
    execNack pdc psn s = .next (((s.resend pdc [psn]).1.raiseResent pdc (s.resend pdc [psn]).2).raiseFor pdc o 4 1) := by
  simp only [execNack, out]

/-- The timeout of a packet that has gone out and waits for no unit resends it with twice the timeout, of at most 1,024 µs, and raises TMOUT (R265, R277). -/
theorem execRetransmissionTimeout_late (gone : o.due = false) (ready : o.notReady = none) (late : o.sentAt + 1000 * o.timeout ≤ s.dcc) :
    execRetransmissionTimeout pdc psn s =
      (let o' := { o with timeout := min (2 * o.timeout) 1024 }
       .next ((s.retransmit pdc o').raiseFor pdc o 3 o'.timeout)) := by
  simp only [execRetransmissionTimeout, out, gone, ready, Option.isSome_none, Bool.false_eq_true, Nat.not_lt.mpr late, or_self, if_false]

/-- A packet that has gone out and is not acknowledged within 4 ms fails (R265). -/
theorem execPacketFail_overdue (ready : o.notReady = none) (late : o.firstSent + 4000000 ≤ s.dcc) (counted : o.counted = true) :
    execPacketFail pdc psn .timeout s = .next ((s.dropPacket pdc o).packetEnded o .timeout) := by
  simp [execPacketFail, out, State.overdue, ready, late, counted]

/-- A packet of a job that its node does not run fails (R266). -/
theorem execPacketFail_noJob : execPacketFail pdc psn .noJob s = .next ((s.dropPacket pdc o).packetEnded o .noJob) := by
  simp only [execPacketFail, out, if_true]

/-- A command's packet that meets a unit which is not present is kept, to be sent again (R256). -/
theorem execNotReadyReply_command (command : o.isCommand = true) :
    execNotReadyReply pdc psn s = .next (s.putPacket pdc { o with notReady := some (o.notReady.getD s.dcc), sentAt := s.dcc }) := by
  simp only [execNotReadyReply, out, command, if_true]

/-- An access's packet that meets such a unit ends (R270). -/
theorem execNotReadyReply_access (access : o.isCommand = false) :
    execNotReadyReply pdc psn s = .next ((s.dropPacket pdc o).packetEnded o .notReady) := by
  simp only [execNotReadyReply, out, access, Bool.false_eq_true, if_false]

/-- 10 ms without progress end a packet that waits for its unit (R255, R256). -/
theorem execNotReadyRetransmit_late {t : Nat} (waits : o.notReady = some t) (late : t + 10000000 ≤ s.dcc) :
    execNotReadyRetransmit pdc psn s = .next ((s.dropPacket pdc o).packetEnded o .notReady) := by
  simp only [execNotReadyRetransmit, out, waits, late, if_true]

/-- Until then it is sent again 50 µs after it was last sent (R256). -/
theorem execNotReadyRetransmit_again {t : Nat} (waits : o.notReady = some t) (early : s.dcc < t + 10000000) (again : o.sentAt + 50000 ≤ s.dcc) :
    execNotReadyRetransmit pdc psn s = .next (s.retransmit pdc { o with firstSent := s.dcc }) := by
  simp only [execNotReadyRetransmit, out, waits, Nat.not_le.mpr early, again, if_true, if_false]

/-- A stale reply ends its packet, and raises STALE with its handle (R267, R277). -/
theorem execStaleReply_ends :
    execStaleReply pdc psn s = .next (((s.dropPacket pdc o).packetEnded o .stale).raiseFor pdc o 7 o.packet.handle.toNat) := by
  simp only [execStaleReply, out]

end Out

/-- What is left of a packet whose payload was trimmed: where it arrived, its sender, its context and its number (R264). -/
def trimmedPacket (port pdc : Nat) (node : BitVec 11) (psn : BitVec 32) : Packet :=
  { port := port, pdc := pdc, psn := psn, ent := 0, via := 0x7FF, srcn := node, aux := 0, rank := 0, nc := 0, nelem := 0, uoff := 0, coord := 0,
    handle := 0, job := 0, acq := false, rel := false, opc := 0, payload := [], ecn := false }

/-- A trimmed packet that arrives at a port that is up is answered with a NACK, and raises TRIM (R264, R277). -/
theorem execTrimmedPacket_up {s : State} {port : Nat} (up : (s.port port).down = false) (pdc : Nat) (node : BitVec 11) (psn : BitVec 32) :
    execTrimmedPacket port pdc node psn s =
      .next ((s.answer (trimmedPacket port pdc node psn) .nack).raise (sageOfPort port) ⟨4, port, pdc % 16384, node.toNat, psn.toNat, 0⟩) := by
  simp only [execTrimmedPacket, up, Bool.false_eq_true, if_false, trimmedPacket]

section Debug

variable {s : State} {p : Packet} (up : (s.port p.port).down = false) (code : p.opc = 9) (first : s.answered p = none)
include up code first

/-- A debug packet of a job that the node does not run is answered so (R266). -/
theorem execDebugForwarding_noJob (unknown : s.jobs.find p.job.toNat = none) : execDebugForwarding p s = .next (s.answer p .noJob) := by
  rw [execDebugForwarding, State.arrival_noJob up (by decide) (by rw [code]; rfl) first unknown]

/-- A debug packet takes a free buffer of its port's Sage core, and raises DEBUG, while there is room for 25 events (R277, R279, R285). -/
theorem execDebugForwarding_buffered {ctx : BitVec 16} {b : Nat} (job : s.jobs.find p.job.toNat = some ctx)
    (buffer : (s.sageAt (sageOfPort p.port)).freeBuffers[Config.pick (8 * s.steps + 6) % (s.sageAt (sageOfPort p.port)).freeBuffers.length]? = some b)
    (room : (s.sageAt (sageOfPort p.port)).evOcc + 25 ≤ 1024) :
    execDebugForwarding p s =
      (let g := sageOfPort p.port
       let x := s.sageAt g
       .next ((((s.setSageAt g { x with
        dmem := x.dmem.setBytes (0x8000 + 1024 * b) (p.payload.take 1024), dbgAlloc := x.dbgAlloc.put b true }).raise g
          ⟨8, p.port, p.pdc % 16384, p.srcn.toNat, p.psn.toNat, b⟩)).answer p .done)) := by
  rw [execDebugForwarding, State.arrival_handled up (by decide) (by rw [code]; rfl) first job]
  simp only [buffer, if_neg (Nat.not_lt.mpr room)]

end Debug

end Sys2Proof.Machine
end

section
namespace Sys2Proof.Machine

/-- Settles O39: each event of a packet that is out, then trimmed packets, then debug packets by their job. -/
theorem transportEventsComplete : Obligations.TransportEventsComplete := by
  intro s pdc psn o port node t delay p b
  refine ⟨fun out => ?out, fun up => execTrimmedPacket_up up pdc node psn, execDebugForwarding_noJob, fun up code first known => ?debug⟩
  case out =>
    exact ⟨execAcknowledgement_plain out delay, execNack_resends out, execRetransmissionTimeout_late out, execPacketFail_overdue out,
      execPacketFail_noJob out, execNotReadyReply_command out, execNotReadyReply_access out, execNotReadyRetransmit_late out,
      execNotReadyRetransmit_again out, execStaleReply_ends out⟩
  case debug =>
    obtain ⟨ctx, job⟩ := Option.ne_none_iff_exists'.mp known
    exact execDebugForwarding_buffered up code first job

end Sys2Proof.Machine
end

section
/-!
PROOFS. Packets in transit, lanes and ports (R263, R274, R277, R278, R283).
-/

namespace Sys2Proof.Machine

section Transit

variable {s : State} {t : Transit}

/-- A packet of lesser age leaves by its path's next port where that is free (R274). -/
theorem State.transitPath_next {next : Option Nat} {via : BitVec 11} {q : Nat} (isNext : next = some q) (free : s.slotFree q = true) :
    s.transitPath t via next = s.departs q t via := by
  simp only [State.transitPath, isNext, Option.filter_some, free, if_true]

/-- Where its path's next port is not free, it leaves by the free fabric port that is chosen, and minimally from then on (R274). -/
theorem State.transitPath_deflected {next : Option Nat} {via : BitVec 11} {q : Nat} (taken : ∀ p, next = some p → s.slotFree p = false)
    (chosen : ((List.range 48).filter s.slotFree)[Config.pick (8 * s.steps + 7) % ((List.range 48).filter s.slotFree).length]? = some q) :
    s.transitPath t via next = s.departs q t 0x7FF := by
  have noNext : next.filter s.slotFree = none := by
    rw [Option.filter_eq_none_iff]
    exact fun p isNext => by simp [taken p isNext]
  simp only [State.transitPath, noNext, chosen]

/-- A packet of age 16 or more leaves by its minimal port where that is free (R274). -/
theorem State.transitMinimal_free {m : Nat} (free : s.slotFree m = true) : s.transitMinimal t (some m) = s.departs m t 0x7FF := by
  simp only [State.transitMinimal, free, if_true]

/-- Where another such packet has that port's slot, it waits in the port's escape store (R274). -/
theorem State.transitMinimal_escapes {m : Nat} (taken : s.slotFree m = false) (up : (s.port m).down = false) (old : s.slotOld m = true)
    (new : (s.port m).escape.contains t = false) (room : (s.port m).escape.length < 35) :
    s.transitMinimal t (some m) = s.setPort m { s.port m with escape := (s.port m).escape ++ [t] } := by
  simp only [State.transitMinimal, taken, up, old, new, Nat.not_le.mpr room, Bool.not_true, Bool.false_eq_true, or_self, if_false]

variable {port : Nat} (onward : t.dest ≠ s.node) (up : (s.port port).down = false) (fabric : isFabricPort port = true)
include onward up fabric

/-- A packet for another node that comes in by a fabric port that is up goes on by its age (R274). -/
theorem execTransitPacket_onward :
    execTransitPacket port t s =
      (let x := s.sageAt (sageOfPort port)
       let via : BitVec 11 := if t.via = s.node then 0x7FF else t.via
       .next (if 16 ≤ t.age.toNat then s.transitMinimal t (x.minimalPort t.dest.toNat)
        else s.transitPath t via (x.minimalPort (if via = 0x7FF then t.dest else via).toNat))) := by
  simp only [execTransitPacket, onward, up, fabric, Bool.not_true, Bool.false_eq_true, or_self, if_false]

theorem execTransitPacket_young (young : t.age.toNat < 16) :
    execTransitPacket port t s =
      (let via : BitVec 11 := if t.via = s.node then 0x7FF else t.via
       .next (s.transitPath t via ((s.sageAt (sageOfPort port)).minimalPort (if via = 0x7FF then t.dest else via).toNat))) :=
  (execTransitPacket_onward onward up fabric).trans (congrArg _ (if_neg (Nat.not_le.mpr young)))

theorem execTransitPacket_old (old : 16 ≤ t.age.toNat) :
    execTransitPacket port t s = .next (s.transitMinimal t ((s.sageAt (sageOfPort port)).minimalPort t.dest.toNat)) :=
  (execTransitPacket_onward onward up fabric).trans (congrArg _ (if_pos old))

end Transit

section Port

variable {s : State} {port : Nat} (real : port < 48)
include real

/-- The first lane of a port in lane-erasure mode that fails is erased and reported, and the port stays up (R263, R277). -/
theorem execLaneFailure_erases (up : (s.port port).down = false) (whole : (s.port port).failed = 0) (mode : erases port = true) (lane : BitVec 2) :
    execLaneFailure port lane s =
      (let p := s.port port
       .next ((s.setPort port { p with failed := p.failed ||| (1 <<< lane.toNat) }).raise (sageOfPort port) ⟨5, port, 0, 0, 0, lane.toNat⟩)) := by
  simp [execLaneFailure, Nat.not_le.mpr real, up, whole, mode]

/-- A port that is up goes down (R277, R278). -/
theorem execPortDown_up (up : (s.port port).down = false) (info : BitVec 2) : execPortDown port info s = .next (s.downPort port info.toNat) := by
  simp only [execPortDown, Nat.not_le.mpr real, up, Bool.false_eq_true, or_self, if_false]

variable (retrains : (s.port port).retraining = true)
include retrains

/-- A retrain that succeeds brings its port and the port's lanes back (R263, R283). -/
theorem execPortRetrainComplete_ok :
    execPortRetrainComplete port true s =
      (let u := s.setPort port { s.port port with down := false, failed := 0, retraining := false }
       let x := s.sageAt (sageOfPort port)
       .next (u.setSageAt (sageOfPort port) { x with pdown := x.pdown &&& ~~~((1 : BitVec 6) <<< (port % 6)) })) := by
  simp only [execPortRetrainComplete, Nat.not_le.mpr real, retrains, Bool.not_true, Bool.false_eq_true, or_self, if_false, if_true]

/-- A retrain that fails reports LDOWN with INFO 1; a port that was up goes down (R283, R406). -/
theorem execPortRetrainComplete_failed :
    execPortRetrainComplete port false s =
      (let u := s.setPort port { s.port port with retraining := false }
       .next (if (s.port port).down then u.raiseDown port 1 else u.downPort port 1)) := by
  simp only [execPortRetrainComplete, Nat.not_le.mpr real, retrains, Bool.not_true, Bool.false_eq_true, or_self, if_false]

end Port

end Sys2Proof.Machine
end

section
namespace Sys2Proof.Machine

/-- Settles O40: a packet in transit by its age and the ports that are free, then what happens to a port's lanes and to the port. -/
theorem portEventsComplete : Obligations.PortEventsComplete := by
  intro s port t lane info m p x
  refine ⟨fun onward up fabric => ⟨fun young => ?young, fun old minimal => ?old⟩, fun real => ?port⟩
  case young =>
    have leaves := execTransitPacket_young onward up fabric young
    exact ⟨fun q isNext free => leaves.trans (congrArg _ (State.transitPath_next isNext free)),
      fun taken _ chosen => leaves.trans (congrArg _ (State.transitPath_deflected taken chosen))⟩
  case old =>
    have leaves := execTransitPacket_old onward up fabric old
    rw [minimal] at leaves
    exact ⟨fun free => leaves.trans (congrArg _ (State.transitMinimal_free free)),
      fun taken up slot new room => leaves.trans (congrArg _ (State.transitMinimal_escapes taken up slot new room))⟩
  case port =>
    exact ⟨fun up whole mode => execLaneFailure_erases real up whole mode lane, fun up => execPortDown_up real up info,
      fun retrains => ⟨execPortRetrainComplete_ok real retrains, execPortRetrainComplete_failed real retrains⟩⟩

end Sys2Proof.Machine
end

section
/-!
PROOFS. The event, transport, port and service words of a Sage core (R280 to R285, R400, R405 to R407).
-/

namespace Sys2Proof.Machine

theorem toNat_extractLsb'_zero {n m : Nat} (v : BitVec n) : (v.extractLsb' 0 m).toNat = v.toNat % 2 ^ m := by
  rw [BitVec.extractLsb'_toNat, Nat.shiftRight_zero]

theorem State.pdcKey_eq (s : State) (v : DWord) : s.pdcKey v = 16384 * s.sage + v.toNat % 2 ^ 14 :=
  congrArg (16384 * s.sage + ·) (toNat_extractLsb'_zero v)

theorem State.serves_iff {s : State} {p : DWord} : s.serves p = true ↔ p.toNat < 48 ∧ sageOfPort p.toNat = s.sage := by
  simp only [State.serves, Bool.and_eq_true, decide_eq_true_eq]

/-- The focused Sage core goes on at its next word, g15 telling `v` (R400). -/
abbrev State.reports (t : State) (v : DWord) : Host.Outcome State Fault Refusal := .next (t.setG 15 v).advanceSage

section Running

variable {s : State} (running : s.curSage.running = true)
include running

section Plan

variable {plan : State → Except SageHold State}

theorem runSage_completes {t : State} (plans : plan s = .ok t) : runSage s plan = .next t := by
  simp only [runSage, running, plans, Bool.not_true, Bool.false_eq_true, if_false]

theorem runSage_waits (plans : plan s = .error .wait) : runSage s plan = .next s := by
  simp only [runSage, running, plans, Bool.not_true, Bool.false_eq_true, if_false]

variable {p : Prop} [Decidable p] {t : State} (plans : plan s = sageReport s (if p then some t else none))
include plans

/-- A word that has its effect under a condition reports 0 where the condition holds (R400). -/
theorem runSage_effect (h : p) : runSage s plan = t.reports 0 :=
  runSage_completes running (plans.trans (congrArg (sageReport s) (if_pos h)))

/-- Where it does not hold the word reports 1 and has no effect (R400). -/
theorem runSage_noEffect (h : ¬p) : runSage s plan = s.reports 1 :=
  runSage_completes running (plans.trans (congrArg (sageReport s) (if_neg h)))

end Plan

section Events

theorem execGwait_event (event : s.curSage.evOcc ≠ 0) : execGwait s = .next s.advanceSage :=
  runSage_completes running (if_neg event)

theorem execGwait_empty (empty : s.curSage.evOcc = 0) : execGwait s = .next s :=
  runSage_waits running (if_pos empty)

/-- The record at HEAD is popped into g1 to g4 (R280). -/
theorem execGev_event (event : s.curSage.evOcc ≠ 0) :
    execGev s =
      (let x := s.curSage
       .next (s.setCurSage
        (({ x with evOcc := x.evOcc - 1, evHead := (x.evHead + 1) % 1024, lastPop := s.dcc } : Sage).setRecord
          (x.dmem.read (x.recordOff 0) 32))).advanceSage) :=
  runSage_completes running (if_neg event)

theorem execGev_empty (empty : s.curSage.evOcc = 0) : execGev s = .next (s.setCurSage (s.curSage.setRecord 0)).advanceSage :=
  runSage_completes running (if_pos empty)

end Events

variable {a b : BitVec 4}

section Context

variable {k : Nat} (named : s.pdcKey (s.g a) = k)
include named

section Open

variable (isOpen : (s.pdc k).isOpen = true)
include isOpen

theorem execGsetw_open : execGsetw a b s = (s.setPdc k { s.pdc k with cwnd := clampWindow (s.g b).toNat }).reports 0 := by
  subst named
  exact runSage_effect running rfl isOpen

theorem execGsetr_open : execGsetr a b s = (s.setPdc k { s.pdc k with rate := min (s.g b).toNat 8000 }).reports 0 := by
  subst named
  exact runSage_effect running rfl isOpen

end Open

section Closed

variable (closed : (s.pdc k).isOpen = false)
include closed

theorem execGsetw_closed : execGsetw a b s = s.reports 1 := by
  subst named
  exact runSage_noEffect running rfl (Bool.eq_false_iff.mp closed)

theorem execGsetr_closed : execGsetr a b s = s.reports 1 := by
  subst named
  exact runSage_noEffect running rfl (Bool.eq_false_iff.mp closed)

end Closed

end Context

/-- A valid path of a routing entry takes its new weight (R282). -/
theorem execGwgt_valid {node : Nat} {j : BitVec 3} (named : (s.g a).toNat % 2 ^ 11 = node) (low : node ≤ 1057)
    (valid : (s.curSage.routes.get 0 node).getLsbD (43 + 24 * j.toNat) = true) :
    execGwgt a b j s =
      (let x := s.curSage
       (s.setCurSage { x with routes := x.routes.put node (withWeight (x.routes.get 0 node) j.toNat ((s.g b).extractLsb' 0 4)) }).reports 0) := by
  obtain rfl : ((s.g a).extractLsb' 0 11).toNat = node := (toNat_extractLsb'_zero _).trans named
  have place : 43 + 24 * j.toNat = 32 + 24 * j.toNat + 11 := by omega
  exact runSage_effect running rfl ⟨low, place ▸ valid⟩

section Port

theorem execGportDown_served (served : s.serves (s.g a) = true) : execGportDown a s = (s.downPort (s.g a).toNat 2).reports 0 :=
  runSage_effect running rfl served

theorem execGportDown_unserved (unserved : ¬s.serves (s.g a) = true) : execGportDown a s = s.reports 1 :=
  runSage_noEffect running rfl unserved

theorem execGportRetrain_served (served : s.serves (s.g a) = true) :
    execGportRetrain a s = (s.setPort (s.g a).toNat { s.port (s.g a).toNat with retraining := true }).reports 0 :=
  runSage_effect running rfl served

theorem execGportRetrain_unserved (unserved : ¬s.serves (s.g a) = true) : execGportRetrain a s = s.reports 1 :=
  runSage_noEffect running rfl unserved

end Port

/-- GNTFY tells whether the barrier counted its arrival (R284, R407). -/
theorem execGntfy_arrives (target : s.g a &&& ~~~(0x3F0F#64) = 0) :
    execGntfy a b s =
      (let arrival := s.arriveAt ((s.g a).extractLsb' 8 6).toNat ((s.g a).extractLsb' 0 4) ((s.g b).extractLsb' 0 32) none
        (BitVec.ofNat 9 (0x170 + s.sage)) .empty
       arrival.1.reports (if arrival.2 then 0 else 1)) :=
  runSage_completes running (if_neg (not_not.mpr target))

theorem execGsvc_known (known : (s.g a).toNat < 16) : execGsvc a b s = (s.interrupt (s.g a).toNat (s.g b)).reports 0 :=
  runSage_effect running rfl known

theorem execGsvc_unknown (unknown : 16 ≤ (s.g a).toNat) : execGsvc a b s = s.reports 1 :=
  runSage_noEffect running rfl (Nat.not_lt.mpr unknown)

section Allocated

variable (real : (s.g b).toNat < 16) (allocated : s.curSage.dbgAlloc.has (s.g b).toNat = true)
include real allocated

theorem execGfree_allocated : execGfree b s = (s.setCurSage (s.curSage.freeBuffer (s.g b).toNat)).reports 0 :=
  runSage_effect running rfl ⟨real, allocated⟩

/-- A packet that the transport takes holds its buffer until it ends (R285). -/
theorem execGsend_taken {l : BitVec 14} {node : Nat} {psn : BitVec 32} {t : State} (named : (s.g a).toNat % 2 ^ 11 = node) (long : 64 ≤ l.toNat)
    (short : l.toNat ≤ 1024) (whole : l.toNat % 8 = 0) (other : node ≠ s.node.toNat) (low : node ≤ 1057)
    (taken : s.transmitBy s.sage node 0 (s.debugPacket (s.curSage.buffer (s.g b).toNat l.toNat)) (s.g b).toNat false (64 + s.sage) = .ok t psn) :
    execGsend a b l s =
      (t.setCurSage { t.curSage with dbgSending := t.curSage.dbgSending.put (s.g b).toNat (pdcFor s.sage node, psn) }).reports 0 := by
  obtain rfl : ((s.g a).extractLsb' 0 11).toNat = node := (toNat_extractLsb'_zero _).trans named
  exact runSage_completes running ((if_pos ⟨real, allocated, long, short, whole, other, low⟩).trans (by rw [taken]; rfl))

end Allocated

section Free

variable (free : s.curSage.dbgAlloc.has (s.g b).toNat = false)
include free

theorem execGfree_free : execGfree b s = s.reports 1 :=
  runSage_noEffect running rfl fun ⟨_, allocated⟩ => Bool.eq_false_iff.mp free allocated

theorem execGsend_free (l : BitVec 14) : execGsend a b l s = s.reports 1 :=
  runSage_completes running (if_neg fun ⟨_, allocated, _⟩ => Bool.eq_false_iff.mp free allocated)

end Free

end Running

end Sys2Proof.Machine
end

section
namespace Sys2Proof.Machine

/-- Settles O28: each word where it has its effect and, for the words stated so, where it has none. -/
theorem sageControlWordsComplete : Obligations.SageControlWordsComplete := by
  intro s a b j l running x report k node entry port mine buf
  have key : s.pdcKey (s.g a) = k := s.pdcKey_eq (s.g a)
  exact ⟨fun event => ⟨execGwait_event running event, execGev_event running event⟩,
    fun empty => ⟨execGwait_empty running empty, execGev_empty running empty⟩,
    fun isOpen => ⟨execGsetw_open running key isOpen, execGsetr_open running key isOpen⟩,
    fun closed => ⟨execGsetw_closed running key closed, execGsetr_closed running key closed⟩,
    execGwgt_valid running rfl,
    fun served => ⟨execGportDown_served running (State.serves_iff.mpr served), execGportRetrain_served running (State.serves_iff.mpr served)⟩,
    fun other => ⟨execGportDown_unserved running (mt State.serves_iff.mp other), execGportRetrain_unserved running (mt State.serves_iff.mp other)⟩,
    execGntfy_arrives running, execGsvc_known running, execGsvc_unknown running,
    fun real allocated => ⟨execGfree_allocated running real allocated, fun _ _ => execGsend_taken running real allocated rfl⟩,
    fun free => ⟨execGfree_free running free, execGsend_free running free l⟩⟩

end Sys2Proof.Machine
end

section
/-!
PROOFS. The events of preemption, saving and resumption (R287, R292 to R294, R297, R301, R302).
-/

namespace Sys2Proof.Machine

@[simp] theorem State.coreAt_interrupt (s : State) (slice : Nat) (v : DWord) (n : Nat) : (s.interrupt slice v).coreAt n = s.coreAt n := rfl

/-- The stop whose record has been put in its ring stands recorded (R294). -/
theorem State.stop_putRecord (s : State) (n : Nat) (st : Stop) (a : Nat) :
    ((s.putRecord n st a).coreAt n).stop = some { st with recorded := true } := by
  rw [State.putRecord, State.coreAt_interrupt, State.coreAt_setCoreAt]

section Core

variable {s : State} {core : Nat}

section Stopped

variable {st : Stop} (stopped : (s.coreAt core).stop = some st) (fault : st.kind = .fault)
include stopped fault

/-- A fault's record goes to its ring where that is not full, and the core of the task stays its own (R294). -/
theorem execStopRecordWrite_records {a : Nat} (fresh : st.recorded = false) (ring : s.stopRing core st = some a) (room : s.ringFull a = false) :
    execStopRecordWrite core s = .next (s.putRecord core st a) := by
  simp only [execStopRecordWrite, stopped, fresh, Bool.false_eq_true, if_false, ring, room, s.stop_putRecord core st a, fault, ne_eq,
    not_true, false_and, and_false]

/-- A recorded fault becomes a trap of the same cause (R292). -/
theorem execConvertToTrap_converts (recorded : st.recorded = true) (unsaved : (s.coreAt core).save = none) :
    execConvertToTrap core s =
      .next (s.stopWith core { st with kind := .trap, debug := false, recorded := false, waitingRing := false }) := by
  simp only [execConvertToTrap, stopped, fault, recorded, unsaved, Option.isNone_none, and_self, if_true]

end Stopped

theorem execServiceResume_resumes (may : (s.coreAt core).mayResume = true) : execServiceResume core s = .next (s.resumeTask core) := by
  rw [execServiceResume, if_pos may]

section Requested

variable (busy : (s.coreAt core).busy = true) (unsaved : (s.coreAt core).save = none) (going : (s.coreAt core).finishing = false)
  (clear : (s.coreAt core).trapOwed = false)

/-- A request that reaches a task without a gang is that task's alone (R44, R297). -/
theorem execPreemptionRequest_alone (busy : (s.coreAt core).busy = true) (alone : s.together core = [core]) (d : BitVec 16) :
    execPreemptionRequest core d s = .next (s.requestSave core (if d = 0 then 0 else s.saveDeadline core)) := by
  rw [execPreemptionRequest, if_pos busy, alone]
  rfl

include busy unsaved going clear

/-- The first request of a running task waits for a PHINT until its deadline (R297). -/
theorem State.requestSave_waits {d : Nat} (running : (s.coreAt core).stop = none) (first : (s.coreAt core).preempt = none) (later : 0 < d) :
    s.requestSave core d = s.setCoreAt core { s.coreAt core with preempt := some ⟨s.dcc + d * 1000, s.dcc⟩ } := by
  have untrapped : (s.coreAt core).trapped = false := by rw [Core.trapped, running]
  simp [State.requestSave, busy, untrapped, clear, unsaved, going, running, first, later.ne']

/-- A request of a suspended task begins a forced save at once (R297). -/
theorem State.requestSave_forces {st : Stop} (stopped : (s.coreAt core).stop = some st) (fault : st.kind = .fault) (d : Nat) :
    s.requestSave core d = s.beginSave core (forcedSave false) := by
  have untrapped : (s.coreAt core).trapped = false := by simp [Core.trapped, stopped, fault]
  have may : (s.coreAt core).mayForce = true := by simp [Core.mayForce, busy, unsaved, clear, going, stopped, fault]
  simp [State.requestSave, busy, untrapped, clear, unsaved, going, may, stopped]

end Requested

/-- The deadline of a request begins a forced save (R297). -/
theorem execForcedSaveDeadline_forces {p : Preempt} (asked : (s.coreAt core).preempt = some p) (may : (s.coreAt core).mayForce = true)
    (due : p.deadline ≤ s.dcc) : execForcedSaveDeadline core s = .next (s.beginSave core (forcedSave false)) := by
  simp only [execForcedSaveDeadline, asked, may, due, and_self, if_true]

section Saving

variable {v : Save} (saving : (s.coreAt core).save = some v)
include saving

/-- The drain begins once the core is quiet (R301). -/
theorem execDrainLimitExpiry_begins (fresh : v.drained = false) (quiet : (s.coreAt core).quiet = true) :
    execDrainLimitExpiry core s =
      .next (s.setCoreAt core { s.coreAt core with save := some { v with drained := true, drainStart := s.dcc } }) := by
  simp only [execDrainLimitExpiry, saving, fresh, quiet, Bool.not_false, if_true]

/-- A drain that has lasted DL squashes the commands (R302). -/
theorem execDrainLimitExpiry_squashes (drains : v.drained = true) (late : v.drainStart + (s.coreAt core).ctx.dl * 1000 ≤ s.dcc) :
    execDrainLimitExpiry core s = .next (s.setCoreAt core { s.coreAt core with commands := (s.coreAt core).commands.map Command.squashed }) := by
  simp only [execDrainLimitExpiry, saving, drains, Bool.not_true, Bool.false_eq_true, if_false, late, if_true]

/-- The image of a task that is not stopped is written once every core saved with it has drained (R301). -/
theorem execSaveImageWrite_writes {buf : BitVec 43} (running : (s.coreAt core).stop = none)
    (drained : (s.together core).all s.drainedAt = true) (aligned : buf.toNat % 64 = 0) :
    execSaveImageWrite core buf s = .next (s.finishSave core v buf.toNat) := by
  simp only [execSaveImageWrite, saving, running, drained, aligned, and_self, if_true]

end Saving

end Core

end Sys2Proof.Machine
end

section
namespace Sys2Proof.Machine

/-- Settles O41: one clause for each event, under what enables it. -/
theorem stopEventsComplete : Obligations.StopEventsComplete := by
  intro s core a st v p d buf c
  refine ⟨fun stopped fresh fault ring room => execStopRecordWrite_records stopped fault fresh ring room, execServiceResume_resumes,
    fun stopped fault recorded unsaved => execConvertToTrap_converts stopped fault recorded unsaved, fun busy alone unsaved going clear => ?request,
    execForcedSaveDeadline_forces, fun saving => ⟨execDrainLimitExpiry_begins saving, execDrainLimitExpiry_squashes saving,
      execSaveImageWrite_writes saving⟩⟩
  case request =>
    rw [exec_preemptionRequest, execPreemptionRequest_alone busy alone]
    refine ⟨fun running first some later => ?_, fun stopped fault _ => ?_⟩
    · rw [if_neg some, State.requestSave_waits busy unsaved going clear running first later]
    · rw [State.requestSave_forces busy unsaved going clear stopped fault]

end Sys2Proof.Machine
end

section
/-!
PROOFS. What halting a core and completing its commit leave (R189, R290).
-/

namespace Sys2Proof.Machine

/-- Values changed by a function that keeps the default read as changed. -/
theorem Tab.get_mapValues {α : Type} (t : Tab α) (f : α → α) {d : α} (h : f d = d) (k : Nat) : (t.mapValues f).get d k = f (t.get d k) := by
  obtain ⟨cells⟩ := t
  induction cells with
  | nil => exact h.symm
  | cons e r ih =>
    by_cases same : e.1 = k
    · simp [Tab.get, Tab.mapValues, findCell, same]
    · simpa [Tab.get, Tab.mapValues, findCell, same] using ih

/-- A cluster halted or re-armed: its place in its program is as it was, program counter, predicates and loops (R290). -/
structure ClusterState.SamePlace (x y : ClusterState) : Prop where
  pc : y.pc = x.pc
  pred : y.pred = x.pred
  loop0 : y.loop0 = x.loop0
  loop1 : y.loop1 = x.loop1

theorem ClusterState.SamePlace.refl (x : ClusterState) : x.SamePlace x := ⟨rfl, rfl, rfl, rfl⟩

theorem ClusterState.SamePlace.trans {x y z : ClusterState} (h : x.SamePlace y) (h' : y.SamePlace z) : x.SamePlace z :=
  ⟨h'.pc.trans h.pc, h'.pred.trans h.pred, h'.loop0.trans h.loop0, h'.loop1.trans h.loop1⟩

/-- What halting a core changes of it, with the records it writes and the DIRTY bits it sets: how far its words have got, what it had asked
other nodes for, its residency cache and its record buffer. -/
structure Core.HaltsTo (c d : Core) : Prop where
  rest : d =
    { c with
      clusters := d.clusters, remoteReads := d.remoteReads, ruCache := d.ruCache, dbuf := d.dbuf, lostOwed := d.lostOwed
      lostFirst := d.lostFirst, lostCount := d.lostCount }
  place : ∀ k, (c.cl k).SamePlace (d.cl k)

theorem Core.HaltsTo.refl (c : Core) : c.HaltsTo c := ⟨rfl, fun _ => .refl _⟩

theorem Core.HaltsTo.trans {c d e : Core} (h : c.HaltsTo d) (h' : d.HaltsTo e) : c.HaltsTo e := by
  refine ⟨?_, fun k => (h.place k).trans (h'.place k)⟩
  rw [h'.rest, h.rest]

theorem Core.haltsTo_setCl {c : Core} {k : Cluster} {x : ClusterState} (h : (c.cl k).SamePlace x) : c.HaltsTo (c.setCl k x) := by
  refine ⟨rfl, fun j => ?_⟩
  by_cases e : j = k
  · rw [e, Core.cl_setCl]
    exact h
  · rw [Core.cl_setCl_ne c e]
    exact .refl _

theorem Core.haltsTo_haltClusters (now : Nat) (ks : List Cluster) (c : Core) :
    c.HaltsTo (ks.foldl (fun d k => d.setCl k ((d.cl k).halted now)) c) := by
  induction ks generalizing c with
  | nil => exact .refl c
  | cons k ks ih =>
    have first : c.HaltsTo (c.setCl k ((c.cl k).halted now)) := Core.haltsTo_setCl ⟨rfl, rfl, rfl, rfl⟩
    exact first.trans (ih _)

theorem Core.haltsTo_haltAll (c : Core) (now : Nat) : c.HaltsTo (c.haltAll now) := by
  have asks : c.HaltsTo { c with remoteReads := c.remoteReads.filter fun x => decide (x.who < 131072) } := ⟨rfl, fun _ => .refl _⟩
  have halted := asks.trans (Core.haltsTo_haltClusters now allClusters _)
  unfold Core.haltAll
  dsimp only
  split
  · exact halted.trans (Core.haltsTo_setCl ⟨rfl, rfl, rfl, rfl⟩)
  · exact halted

/-- What a stop leaves of the device: all but its cores, memory and what the slices hold. -/
def State.SameDevice (s t : State) : Prop := t = { s with cores := t.cores, mem := t.mem, slices := t.slices }

theorem State.SameDevice.refl (s : State) : s.SameDevice s := rfl

theorem State.SameDevice.trans {s t u : State} (h : s.SameDevice t) (h' : t.SameDevice u) : s.SameDevice u := by
  unfold State.SameDevice at *
  rw [h', h]

theorem State.sameDevice_setCoreAt (s : State) (n : Nat) (c : Core) : s.SameDevice (s.setCoreAt n c) := rfl

theorem State.WritesHomes.sameDevice {s t : State} (h : s.WritesHomes t) : s.SameDevice t := by
  unfold State.SameDevice
  rw [h.1]

theorem State.WritesHomes.coreAt {s t : State} (h : s.WritesHomes t) (n : Nat) : t.coreAt n = s.coreAt n := by
  rw [h.1]
  rfl

theorem State.SameDevice.core {s t : State} (h : s.SameDevice t) : t.core = s.core := by
  unfold State.SameDevice at h
  rw [h]

theorem State.SameDevice.dcc {s t : State} (h : s.SameDevice t) : t.dcc = s.dcc := by
  unfold State.SameDevice at h
  rw [h]

theorem State.SameDevice.scratchErrors {s t : State} (h : s.SameDevice t) : t.scratchErrors = s.scratchErrors := by
  unfold State.SameDevice at h
  rw [h]

theorem State.writesHomes_placeBytes (s : State) (core base size wrp : Nat) (bs : List Byte) :
    s.WritesHomes (s.placeBytes core base size wrp bs).1 := by
  unfold State.placeBytes
  dsimp only
  split
  · exact s.writesHomes_setHomeBytes _ _
  · exact (s.writesHomes_setHomeBytes _ _).trans (State.writesHomes_setHomeBytes _ _ _)

theorem State.sameDevice_emit (s : State) (n type : Nat) (body : List DWord) : s.SameDevice (s.emit n type body) := by
  unfold State.emit
  dsimp only
  split
  · split
    · exact s.sameDevice_setCoreAt _ _
    · exact ((State.writesHomes_placeBytes ..).trans (State.writesHomes_placeBytes ..)).sameDevice.trans (State.sameDevice_setCoreAt _ _ _)
  · split
    · exact s.sameDevice_setCoreAt _ _
    · exact (State.writesHomes_placeBytes ..).sameDevice.trans (State.sameDevice_setCoreAt _ _ _)

/-- What halting core `n` changes of the device: that core so, the residency caches of others, memory and what the slices hold. -/
structure State.HaltsTo (n : Nat) (s t : State) : Prop where
  device : s.SameDevice t
  core : (s.coreAt n).HaltsTo (t.coreAt n)

section Halts

variable {n : Nat} {s t u : State}

theorem State.HaltsTo.refl (n : Nat) (s : State) : s.HaltsTo n s := ⟨.refl s, .refl _⟩

theorem State.HaltsTo.trans (h : s.HaltsTo n t) (h' : t.HaltsTo n u) : s.HaltsTo n u :=
  ⟨h.device.trans h'.device, h.core.trans h'.core⟩

theorem State.haltsTo_foldl {α : Type} {f : State → α → State} (h : ∀ (s : State) x, s.HaltsTo n (f s x)) (xs : List α) (s : State) :
    s.HaltsTo n (xs.foldl f s) := by
  induction xs generalizing s with
  | nil => exact .refl n s
  | cons x xs ih => exact (h s x).trans (ih _)

theorem State.haltsTo_setCoreAt {c : Core} (h : (s.coreAt n).HaltsTo c) : s.HaltsTo n (s.setCoreAt n c) :=
  ⟨s.sameDevice_setCoreAt n c, by rwa [State.coreAt_setCoreAt]⟩

theorem State.WritesHomes.haltsTo (h : s.WritesHomes t) (n : Nat) : s.HaltsTo n t :=
  ⟨h.sameDevice, by rw [h.coreAt n]; exact .refl _⟩

variable (n s)

/-- A record changes the record buffer of its core, and memory (R338). -/
theorem State.haltsTo_emit (type : Nat) (body : List DWord) : s.HaltsTo n (s.emit n type body) := by
  refine ⟨s.sameDevice_emit n type body, ?_⟩
  obtain ⟨b, o, f, l, e⟩ := s.coreAt_emit n type body
  rw [e]
  exact ⟨rfl, fun _ => .refl _⟩

theorem State.haltsTo_logWait (k : Cluster) (isOpen : Bool) : s.HaltsTo n (s.logWait n k isOpen) := by
  unfold State.logWait
  dsimp only
  split
  · exact .refl n s
  · split
    · exact s.haltsTo_emit n _ _
    · exact .refl n s

theorem State.haltsTo_logStop (c v : DWord) : s.HaltsTo n (s.logStop n c v) := by
  unfold State.logStop
  dsimp only
  split
  · exact s.haltsTo_emit n _ _
  · exact .refl n s

/-- The clusters of a core stop at their boundaries, and nothing else of the task changes (R290). -/
theorem State.haltsTo_stopClusters : s.HaltsTo n (s.stopClusters n) :=
  (State.haltsTo_foldl (fun t k => t.haltsTo_logWait n k true) allClusters s).trans (State.haltsTo_setCoreAt (Core.haltsTo_haltAll _ _))

theorem State.coreAt_setDirty (a : Nat) :
    (s.setDirty a).coreAt n =
      (let c := (s.homeWrite a 1 (s.homeRead a 1 % 2 ^ 8 ||| 0x40)).coreAt n
       { c with ruCache := dirtied c.ruCache a }) :=
  Tab.get_mapValues _ (fun c : Core => { c with ruCache := dirtied c.ruCache a }) rfl n

/-- DIRTY set in a residency entry reaches the copies of it in the cores' caches alone (R164). -/
theorem State.haltsTo_setDirty (a : Nat) : s.HaltsTo n (s.setDirty a) := by
  have written : s.WritesHomes (s.homeWrite a 1 (s.homeRead a 1 % 2 ^ 8 ||| 0x40)) := s.writesHomes_setHomeBytes a _
  refine (written.haltsTo n).trans ⟨rfl, ?_⟩
  rw [s.coreAt_setDirty]
  exact ⟨rfl, fun _ => .refl _⟩

theorem State.haltsTo_setHomeBits (a : Nat) (v : VByte) : s.HaltsTo n (s.setHomeBits a v) := by
  unfold State.setHomeBits
  split
  · exact (s.writesHomes_setHomeByte a _).haltsTo n
  · split
    · split
      · exact (s.writesHomes_setHomeByte a _).haltsTo n
      · exact (s.writesHomes_setLocks _ _).haltsTo n
    · exact (s.writesHomes_setHomeByte a _).haltsTo n

theorem State.haltsTo_writeVersion (rus : Tab (List Nat)) (cells : List (Nat × VByte)) : s.HaltsTo n (s.writeVersion rus cells) := by
  induction cells generalizing s with
  | nil => exact .refl n s
  | cons e cells ih =>
    have dirty := State.haltsTo_foldl (fun t a => t.haltsTo_setDirty n a) (rus.get [] (e.1 / 64)) s
    exact (dirty.trans (State.haltsTo_setHomeBits n _ _ _)).trans (ih _)

/-- The core with its commit done, as its `k`-th, at `t` (R189). -/
def Core.committed (c : Core) (k : BitVec 32) (t : DWord) : Core := { c with committing := none, commits := k, commitDcc := t }

/-- A commit in progress completes, and changes nothing else of the task (R189, R293). -/
theorem State.haltsTo_finishCommit : ∃ k t, (s.setCoreAt n ((s.coreAt n).committed k t)).HaltsTo n (s.finishCommit n) := by
  unfold State.finishCommit
  dsimp only
  split
  next idle =>
    refine ⟨(s.coreAt n).commits, (s.coreAt n).commitDcc, rfl, ?_⟩
    rw [State.coreAt_setCoreAt, Core.committed, ← idle]
    exact .refl _
  next v _ =>
    have written := s.haltsTo_writeVersion n (s.coreAt n).versionRu v.cells
    generalize s.writeVersion (s.coreAt n).versionRu v.cells = u at written ⊢
    obtain ⟨device, rest, place⟩ := written
    refine ⟨(s.coreAt n).commits + 1, BitVec.ofNat 64 u.dcc, ?_, ?_⟩
    · exact device.trans (u.sameDevice_setCoreAt n _)
    · rw [State.coreAt_setCoreAt, State.coreAt_setCoreAt]
      refine ⟨?_, place⟩
      rw [rest]
      rfl

end Halts

end Sys2Proof.Machine
end

section
/-!
PROOFS. How the results that are known land when a task stops (R290, R395).
-/

namespace Sys2Proof.Machine

/-- A scalar when the results that are known have been written: what has none keeps waiting (R290, R395). -/
def Scalar.landed (x : Scalar) (now : Nat) (r : BitVec 5) : Scalar :=
  match x.pending with
  | some ⟨k, _, some v⟩ => ⟨if r = 0 then x.hist else insertChange ⟨now, k, v, true⟩ (pruneHist now x.hist), none⟩
  | _ => x

/-- One scalar of a core so. -/
def Core.landReg (now : Nat) (c : Core) (r : Nat) : Core :=
  match (c.reg (BitVec.ofNat 5 r)).pending with
  | some ⟨k, _, some v⟩ =>
    let c := c.change now k (BitVec.ofNat 5 r) v true
    { c with scal := c.scal.put r { c.reg (BitVec.ofNat 5 r) with pending := none } }
  | _ => c

theorem Core.landed_foldl (c : Core) (now : Nat) : c.landed now = (List.range 32).foldl (Core.landReg now) c := rfl

section Landing

variable (c : Core) (now : Nat)

theorem Core.change_eq (k : Cluster) (r : BitVec 5) (v : DWord) (g : Bool) :
    c.change now k r v g = { c with scal := (c.change now k r v g).scal } := by
  unfold Core.change
  split <;> rfl

theorem Core.landReg_eq (r : Nat) : c.landReg now r = { c with scal := (c.landReg now r).scal } := by
  unfold Core.landReg
  split
  next k _ v _ =>
    dsimp only
    rw [Core.change_eq]
  next => rfl

/-- Landing results changes the scalars alone. -/
theorem Core.landed_eq : c.landed now = { c with scal := (c.landed now).scal } := by
  rw [Core.landed_foldl]
  generalize List.range 32 = rs
  induction rs generalizing c with
  | nil => rfl
  | cons r rs ih =>
    rw [List.foldl_cons, ih, Core.landReg_eq]

theorem Core.reg_landReg_same (q : BitVec 5) : (c.landReg now q.toNat).reg q = (c.reg q).landed now q := by
  unfold Core.landReg Scalar.landed
  rw [BitVec.ofNat_toNat, BitVec.setWidth_eq]
  split
  next k _ v known =>
    refine (Tab.get_put _ _ _ _).trans ?_
    by_cases zero : q = 0
    · rw [zero, Core.change_zero, if_pos rfl]
    · rw [Core.reg_change_same c now k zero, if_neg zero]
  next => rfl

theorem Core.reg_landReg_ne {q : BitVec 5} {r : Nat} (small : r < 32) (h : q.toNat ≠ r) : (c.landReg now r).reg q = c.reg q := by
  have other : q ≠ BitVec.ofNat 5 r := fun same => h (by rw [same, BitVec.toNat_ofNat, Nat.mod_eq_of_lt small])
  unfold Core.landReg
  split
  next k _ v _ => exact (Tab.get_put_ne _ _ h _).trans (Core.reg_change_ne c now k (.inl other) v true)
  next => rfl

/-- Each scalar lands by itself. -/
theorem Core.reg_landed (q : BitVec 5) : (c.landed now).reg q = (c.reg q).landed now q := by
  have lands (rs : List Nat) (c : Core) (small : ∀ r ∈ rs, r < 32) (once : rs.Nodup) :
      (rs.foldl (Core.landReg now) c).reg q = if q.toNat ∈ rs then (c.reg q).landed now q else c.reg q := by
    induction rs generalizing c with
    | nil => rfl
    | cons r rs ih =>
      obtain ⟨apart, once⟩ := List.nodup_cons.mp once
      rw [List.foldl_cons, ih _ (fun j h => small j (List.mem_cons_of_mem r h)) once]
      by_cases same : q.toNat = r
      · rw [← same] at apart ⊢
        rw [if_neg apart, if_pos List.mem_cons_self, c.reg_landReg_same]
      · rw [c.reg_landReg_ne now (small r List.mem_cons_self) same]
        simp only [List.mem_cons, same, false_or]
  rw [Core.landed_foldl, lands _ c (fun r h => List.mem_range.mp h) List.nodup_range, if_pos (List.mem_range.mpr q.isLt)]

end Landing

/-- A scalar whose result is not known is as it was. -/
theorem Scalar.landed_of_unknown {x : Scalar} (h : ∀ p, x.pending = some p → p.result = none) (now : Nat) (r : BitVec 5) :
    x.landed now r = x := by
  unfold Scalar.landed
  split
  next known => simpa using h _ known
  next => rfl

/-- A known result stands first in its scalar, as a change of this cycle (R91, R395). -/
theorem Scalar.hist_landed {x : Scalar} {now : Nat} {r : BitVec 5} {k : Cluster} {b : Bool} {v : DWord} (nonzero : r ≠ 0)
    (known : x.pending = some ⟨k, b, some v⟩) (earlier : ∀ e ∈ x.hist, e.cycle < now) :
    (x.landed now r).hist = ⟨now, k, v, true⟩ :: pruneHist now x.hist := by
  have first : insertChange ⟨now, k, v, true⟩ (pruneHist now x.hist) = ⟨now, k, v, true⟩ :: pruneHist now x.hist :=
    insertChange_latest fun t h => earlier t (mem_of_mem_pruneHist h)
  simp only [Scalar.landed, known, if_neg nonzero, first]

end Sys2Proof.Machine
end

section
/-!
PROOFS. What a stop keeps and what it discards (R289 to R293).
-/

namespace Sys2Proof.Machine

/-- The core in which stop `st` leaves a core whose clusters have halted (R290 to R293): results that are known are written, a trap discards what it
discards, and TRAPC and TRAPV tell of the stop. -/
def Core.stopped (c : Core) (now : Nat) (st : Stop) : Core :=
  let c := c.landed now
  let infl := c.commands.length
  let c := if st.kind = .fault then c else c.discard
  { c with
    trapc := st.trapc
    trapv := st.trapv
    cr := { c.cr with state := if st.kind = .fault then .suspended else .ended }
    dxw := dxwStopped c.dxw
    dxwIssued := none
    halting := c.halting && decide (st.kind = .fault) && decide (st.trapc.extractLsb' 0 8 ≠ 0x1D#8)
    stop := some { st with dcc := now, infl := infl } }

/-- Core `c` with what stopping changes of it, whatever the stop, as `e` has it. -/
def Core.withStopOf (c e : Core) : Core :=
  { c with
    clusters := e.clusters, remoteReads := e.remoteReads, ruCache := e.ruCache, dbuf := e.dbuf, lostOwed := e.lostOwed
    lostFirst := e.lostFirst, lostCount := e.lostCount, scal := e.scal, trapc := e.trapc, trapv := e.trapv, cr := e.cr, dxw := e.dxw
    dxwIssued := e.dxwIssued, halting := e.halting, stop := e.stop }

/-- Stopping changes of `c` no more than it may, and leaves it as `d`. -/
def Core.StopsTo (c d : Core) : Prop := d = c.withStopOf d

theorem Core.StopsTo.trans {c d e : Core} (h : c.StopsTo d) (h' : d.StopsTo e) : c.StopsTo e := by
  unfold Core.StopsTo at *
  rw [h', h]
  rfl

theorem Core.HaltsTo.stopsTo {c d : Core} (h : c.HaltsTo d) : c.StopsTo d := by
  unfold Core.StopsTo
  rw [h.rest]
  rfl

/-- What a trap discards is not what stopping changes (R293). -/
theorem Core.StopsTo.discard {c d : Core} (h : c.StopsTo d) : c.discard.StopsTo d.discard := by
  unfold Core.StopsTo at *
  rw [h]
  rfl

theorem Core.stopsTo_landed (c : Core) (now : Nat) : c.StopsTo (c.landed now) := by
  have scalars := c.landed_eq now
  generalize c.landed now = d at scalars ⊢
  unfold Core.StopsTo
  rw [scalars]
  rfl

/-- A fault or debug stop discards nothing (R292). -/
theorem Core.stopsTo_stopped_fault (c : Core) (now : Nat) {st : Stop} (fault : st.kind = .fault) : c.StopsTo (c.stopped now st) := by
  refine (c.stopsTo_landed now).trans ?_
  simp only [Core.stopped, if_pos fault]
  generalize c.landed now = d
  rfl

/-- A trap discards what R293 lists, and nothing else. -/
theorem Core.stopsTo_stopped_trap (c : Core) (now : Nat) {st : Stop} (trap : st.kind ≠ .fault) : c.discard.StopsTo (c.stopped now st) := by
  refine (c.stopsTo_landed now).discard.trans ?_
  simp only [Core.stopped, if_neg trap]
  generalize c.landed now = d
  rfl

/-- A core takes stop `st` in cycle `now` and stands as `e`: its clusters halt, then the stop stands (R290). -/
def Core.TakesStop (c : Core) (now : Nat) (st : Stop) (e : Core) : Prop := ∃ d, c.HaltsTo d ∧ (d.stopped now st).HaltsTo e

section Taken

variable {c e : Core} {now : Nat} {st : Stop} (taken : c.TakesStop now st e)
include taken

theorem Core.TakesStop.trapc : e.trapc = st.trapc := by
  obtain ⟨d, _, stands⟩ := taken
  exact congrArg Core.trapc stands.rest

theorem Core.TakesStop.trapv : e.trapv = st.trapv := by
  obtain ⟨d, _, stands⟩ := taken
  exact congrArg Core.trapv stands.rest

theorem Core.TakesStop.state : e.cr.state = if st.kind = .fault then .suspended else .ended := by
  obtain ⟨d, _, stands⟩ := taken
  exact congrArg (fun x => (Core.cr x).state) stands.rest

/-- No cluster issues a word while the stop stands (R290). -/
theorem Core.TakesStop.issues (k : Cluster) : e.issues k = false := by
  obtain ⟨d, _, stands⟩ := taken
  have stopped : e.stop.isNone = false := congrArg (fun x => (Core.stop x).isNone) stands.rest
  simp only [Core.issues, stopped, Bool.and_false, Bool.false_and]

/-- A fault or debug stop keeps the task's state (R292). -/
theorem Core.TakesStop.stopsTo_fault (fault : st.kind = .fault) : c.StopsTo e := by
  obtain ⟨d, halts, stands⟩ := taken
  exact (halts.stopsTo.trans (d.stopsTo_stopped_fault now fault)).trans stands.stopsTo

/-- A trap discards what R293 lists and keeps the rest. -/
theorem Core.TakesStop.stopsTo_trap (trap : st.kind ≠ .fault) : c.discard.StopsTo e := by
  obtain ⟨d, halts, stands⟩ := taken
  exact (halts.stopsTo.discard.trans (d.stopsTo_stopped_trap now trap)).trans stands.stopsTo

theorem Core.TakesStop.dctl : e.dctl = c.dctl := by
  by_cases fault : st.kind = .fault
  · exact (congrArg Core.dctl (taken.stopsTo_fault fault)).trans rfl
  · exact (congrArg Core.dctl (taken.stopsTo_trap fault)).trans rfl

/-- Every cluster keeps its place (R290). -/
theorem Core.TakesStop.place (k : Cluster) : (c.cl k).SamePlace (e.cl k) := by
  obtain ⟨d, halts, stands⟩ := taken
  have same : (d.stopped now st).clusters = d.clusters := by
    by_cases fault : st.kind = .fault
    · simp only [Core.stopped, if_pos fault]
      rw [Core.landed_eq]
    · simp only [Core.stopped, if_neg fault, Core.discard]
      rw [Core.landed_eq]
  have cluster : (d.stopped now st).cl k = d.cl k := by rw [Core.cl, same, Core.cl]
  exact (halts.place k).trans (cluster ▸ stands.place k)

/-- The results that are known have landed, whatever the stop (R395). -/
theorem Core.TakesStop.reg (r : BitVec 5) : e.reg r = (c.reg r).landed now r := by
  obtain ⟨d, halts, stands⟩ := taken
  have before : d.scal = c.scal := (congrArg Core.scal halts.rest).trans rfl
  have after : e.scal = (d.stopped now st).scal := (congrArg Core.scal stands.rest).trans rfl
  have landed : (d.stopped now st).scal = (d.landed now).scal := by
    by_cases fault : st.kind = .fault
    · simp only [Core.stopped, if_pos fault]
    · simp only [Core.stopped, if_neg fault, Core.discard]
  have same : d.reg r = c.reg r := by rw [Core.reg, before, Core.reg]
  rw [← same, ← d.reg_landed, Core.reg, after, landed, Core.reg]

/-- A scalar whose result is not known is as it was. -/
theorem Core.TakesStop.reg_unknown {r : BitVec 5} (unknown : ∀ p, (c.reg r).pending = some p → p.result = none) : e.reg r = c.reg r := by
  rw [taken.reg, Scalar.landed_of_unknown unknown]

/-- A known result is what every cluster reads two cycles on (R91, R395). -/
theorem Core.TakesStop.view_known {r : BitVec 5} {k : Cluster} {b : Bool} {x : DWord} (nonzero : r ≠ 0)
    (known : (c.reg r).pending = some ⟨k, b, some x⟩) (earlier : ∀ h ∈ (c.reg r).hist, h.cycle < now) (q : Cluster) :
    e.view (now + 2) q r = (x, true) := by
  have seen : (⟨now, k, x, true⟩ : Change).seenBy (now + 2) q = true := by simp [Change.seenBy]
  rw [Core.view, if_neg nonzero, taken.reg, Scalar.hist_landed nonzero known earlier, readHist, if_pos seen]

end Taken

/-- Where no atomic is to be performed, a trap leaves nothing of the version (R185, R293). -/
theorem Core.keptVersion_eq_empty {c : Core} (h : c.accesses.all (fun x => !x.op.isAtomic) = true) : c.keptVersion = .empty := by
  have plain (x : Access) (hx : x ∈ c.accesses) : x.op.isAtomic = false := by simpa using List.all_eq_true.mp h x hx
  have apart (line : Nat) : c.atomicIn line 0 = false := by
    rw [Core.atomicIn, List.any_eq_false]
    intro x hx
    simp [plain x hx]
  simp only [Core.keptVersion, apart, List.filter_false]
  rfl

/-- Core `n` of the device takes stop `st`. -/
structure State.TakesStop (n : Nat) (st : Stop) (s t : State) : Prop where
  device : s.SameDevice t
  core : (s.coreAt n).TakesStop s.dcc st (t.coreAt n)

section Stops

variable {n : Nat} {st : Stop} {s t u : State}

theorem State.HaltsTo.takesStop (h : s.HaltsTo n t) (h' : t.TakesStop n st u) : s.TakesStop n st u := by
  obtain ⟨device, d, halts, stands⟩ := h'
  rw [h.device.dcc] at stands
  exact ⟨h.device.trans device, d, h.core.trans halts, stands⟩

theorem State.TakesStop.haltsTo (h : s.TakesStop n st t) (h' : t.HaltsTo n u) : s.TakesStop n st u := by
  obtain ⟨device, d, halts, stands⟩ := h
  exact ⟨device.trans h'.device, d, halts, stands.trans h'.core⟩

/-- The state with stop `st` of core `n` standing, its clusters having halted, and its record written (R290, R337). -/
def State.enterStop (s : State) (n : Nat) (st : Stop) : State :=
  (s.setCoreAt n ((s.coreAt n).stopped s.dcc st)).logStop n st.trapc st.trapv

theorem State.stopWith_eq (s : State) (n : Nat) (st : Stop) :
    s.stopWith n st = ((if st.kind = .fault then s else s.finishCommit n).stopClusters n).enterStop n st := rfl

theorem State.takesStop_enterStop (s : State) (n : Nat) (st : Stop) : s.TakesStop n st (s.enterStop n st) := by
  have taken : s.TakesStop n st (s.setCoreAt n ((s.coreAt n).stopped s.dcc st)) := by
    refine ⟨s.sameDevice_setCoreAt n _, s.coreAt n, .refl _, ?_⟩
    rw [State.coreAt_setCoreAt]
    exact .refl _
  exact taken.haltsTo (State.haltsTo_logStop n _ _ _)

/-- A fault or debug stop lets a commit go on (R290). -/
theorem State.takesStop_fault (s : State) (n : Nat) (fault : st.kind = .fault) : s.TakesStop n st (s.stopWith n st) := by
  rw [State.stopWith_eq, if_pos fault]
  exact (s.haltsTo_stopClusters n).takesStop (State.takesStop_enterStop _ n st)

/-- A trap completes the commit in progress first (R293). -/
theorem State.takesStop_trap (s : State) (n : Nat) (trap : st.kind ≠ .fault) :
    s.SameDevice (s.stopWith n st) ∧ ∃ k m, ((s.coreAt n).committed k m).TakesStop s.dcc st ((s.stopWith n st).coreAt n) := by
  obtain ⟨k, m, commits⟩ := s.haltsTo_finishCommit n
  have halts := commits.trans (State.haltsTo_stopClusters n (s.finishCommit n))
  obtain ⟨device, core⟩ := halts.takesStop (State.takesStop_enterStop _ n st)
  rw [State.coreAt_setCoreAt, State.setCoreAt_dcc] at core
  rw [State.stopWith_eq, if_neg trap]
  exact ⟨device, k, m, core⟩

end Stops

section Quiet

variable {s : State} {n : Nat} (quiet : (s.coreAt n).dctl = 0)
include quiet

/-- A core without records writes none of its waits (R335). -/
theorem State.logWait_quiet (k : Cluster) (isOpen : Bool) : s.logWait n k isOpen = s := by
  unfold State.logWait
  dsimp only
  split
  next => rfl
  next => simp [quiet]

theorem State.stopClusters_quiet : s.stopClusters n = s.setCoreAt n ((s.coreAt n).haltAll s.dcc) := by
  simp only [State.stopClusters, allClusters, List.foldl_cons, List.foldl_nil, State.logWait_quiet quiet]

theorem State.logStop_quiet (c v : DWord) : s.logStop n c v = s := by simp [State.logStop, quiet]

/-- A stop of a core that writes no records and commits nothing leaves every byte of memory (R293). -/
theorem State.homeByte_stopWith_quiet (idle : (s.coreAt n).committing = none) (st : Stop) (a : Nat) :
    (s.stopWith n st).homeByte a = s.homeByte a := by
  have unchanged : s.finishCommit n = s := by simp only [State.finishCommit, idle]
  have taken : (s.coreAt n).TakesStop s.dcc st (((s.coreAt n).haltAll s.dcc).stopped s.dcc st) := ⟨_, Core.haltsTo_haltAll _ _, .refl _⟩
  rw [State.stopWith_eq, unchanged, ite_self, State.stopClusters_quiet quiet, State.enterStop, State.coreAt_setCoreAt,
    State.setCoreAt_setCoreAt, State.setCoreAt_dcc, State.logStop_quiet, State.homeByte_setCoreAt]
  rw [State.coreAt_setCoreAt]
  exact taken.dctl.trans quiet

end Quiet

end Sys2Proof.Machine
end

section
/-!
PROOFS. The stops of TRAP, BRK and uncorrectable errors (R288 to R293, R326, R329).
-/

namespace Sys2Proof.Machine

theorem toNat_append_eq_add {n m : Nat} (x : BitVec n) (y : BitVec m) : (x ++ y).toNat = x.toNat * 2 ^ m + y.toNat := by
  rw [BitVec.toNat_append, ← Nat.shiftLeft_add_eq_or_of_lt y.isLt, Nat.shiftLeft_eq]

/-- TRAPC by its fields (R289). -/
theorem toNat_mkTrapc (pc : BitVec 32) {unit sub cause : Nat} (impr : Bool) (hu : unit < 16) (hs : sub < 256) (hc : cause < 256) :
    (mkTrapc pc unit impr sub cause).toNat = pc.toNat * 2 ^ 32 + unit * 2 ^ 20 + impr.toNat * 2 ^ 19 + sub * 2 ^ 8 + cause := by
  simp only [mkTrapc, toNat_append_eq_add, BitVec.toNat_ofNat, BitVec.toNat_ofBool, Nat.mod_eq_of_lt hu, Nat.mod_eq_of_lt hs, Nat.mod_eq_of_lt hc]
  omega

theorem clusterIndex_lt (k : Cluster) : clusterIndex k < 16 := by cases k <;> decide

/-- A trap of a task that runs and is not being saved is taken at once, unless it comes too late (R291, R396). -/
theorem State.takeStop_trap {s : State} {n : Nat} {impr : Bool} (busy : (s.coreAt n).busy = true) (going : (s.coreAt n).stop = none)
    (unsaved : (s.coreAt n).save = none) (timely : (s.coreAt n).tooLate .trap impr = false) (unit : Nat) (pc : BitVec 32) (debug : Bool)
    (t : TrapInfo) (orig : BitVec 6) :
    s.takeStop n .trap unit pc impr debug t orig =
      s.stopWith n ⟨.trap, mkTrapc pc unit impr t.sub t.cause, t.trapv, t.coord, t.ru, orig, s.dcc, debug, false, false, 0⟩ := by
  simp [State.takeStop, Core.ignoresStop, Core.defersStop, busy, going, unsaved, timely]

/-- The stop that a word of the focused cluster is, where it is a precise one (R289, R290). -/
def State.stopAtWord (s : State) (kind : StopKind) (debug : Bool) (t : TrapInfo) : Stop :=
  ⟨kind, mkTrapc (BitVec.ofInt 32 s.cl.pc) (clusterIndex s.cluster) false t.sub t.cause, t.trapv, t.coord, t.ru, 0, s.dcc, debug, false, false, 0⟩

/-- TRAPC of a precise stop without a subcause: the word's offset, its cluster, and the cause (R289). -/
theorem State.toNat_trapc_stopAtWord (s : State) (kind : StopKind) (debug : Bool) {cause : Nat} (v : DWord) (coord : List Int) (ru : Nat)
    (h : cause < 256) :
    (s.stopAtWord kind debug ⟨cause, 0, v, coord, ru⟩).trapc.toNat =
      (BitVec.ofInt 32 s.cl.pc).toNat * 2 ^ 32 + clusterIndex s.cluster * 2 ^ 20 + cause := by
  rw [State.stopAtWord, toNat_mkTrapc _ false (clusterIndex_lt _) (show 0 < 256 by decide) h]
  simp

section Undisturbed

variable {s : State} (undisturbed : s.undisturbed = true)
include undisturbed

theorem State.undisturbed_core : s.cur.busy = true ∧ s.cur.stop = none ∧ s.cur.save = none := by
  simp only [State.undisturbed, Bool.and_eq_true, Option.isNone_iff_eq_none] at undisturbed
  obtain ⟨⟨⟨⟨busy, going⟩, unsaved⟩, _⟩, _⟩ := undisturbed
  exact ⟨busy, going, unsaved⟩

theorem State.stopPrecise_trap (t : TrapInfo) : s.stopPrecise .trap false t = s.stopWith s.core (s.stopAtWord .trap false t) := by
  obtain ⟨busy, going, unsaved⟩ := State.undisturbed_core undisturbed
  have noFault : ¬(StopKind.trap = .fault ∧ (s.stopWith s.core (s.stopAtWord .trap false t)).cur.stop.isSome) := by simp
  rw [State.stopPrecise, State.takeStop_trap busy going unsaved rfl]
  exact if_neg noFault

/-- A word that traps: the commit in progress completes, and the stop stands (R290, R293). -/
theorem State.takesStop_stopPrecise_trap (t : TrapInfo) :
    ∃ k m, (s.cur.committed k m).TakesStop s.dcc (s.stopAtWord .trap false t) (s.stopPrecise .trap false t).cur := by
  obtain ⟨device, taken⟩ := State.takesStop_trap s s.core (st := s.stopAtWord .trap false t) (by simp [State.stopAtWord])
  have here : (s.stopPrecise .trap false t).core = s.core := State.stopPrecise_trap undisturbed t ▸ device.core
  rw [State.cur, State.cur, here, State.stopPrecise_trap undisturbed]
  exact taken

theorem State.homeByte_stopPrecise_trap (idle : s.cur.committing = none) (quiet : s.cur.dctl = 0) (t : TrapInfo) (a : Nat) :
    (s.stopPrecise .trap false t).homeByte a = s.homeByte a := by
  rw [State.stopPrecise_trap undisturbed, State.homeByte_stopWith_quiet quiet idle]

/-- A debug stop at a word: the word issues again on resumption (R290, R291). -/
theorem State.takesStop_stopPrecise_debug (clear : s.cur.trapOwed = false) (t : TrapInfo) :
    s.cur.TakesStop s.dcc (s.stopAtWord .fault true t) (s.stopPrecise .fault true t).cur := by
  obtain ⟨busy, going, unsaved⟩ := State.undisturbed_core undisturbed
  have taken := State.takesStop_fault s s.core (st := s.stopAtWord .fault true t) rfl
  have stands := s.stop_stopWith s.core (s.stopAtWord .fault true t)
  have atOnce : s.takeStop s.core .fault (clusterIndex s.cluster) (BitVec.ofInt 32 s.cl.pc) false true t 0 =
      s.stopWith s.core (s.stopAtWord .fault true t) := s.takeStop_taken _ _ _ _ _ _ _ _ busy going unsaved clear rfl
  rw [State.stopPrecise, atOnce]
  generalize s.stopWith s.core (s.stopAtWord .fault true t) = u at taken stands ⊢
  have here : u.core = s.core := taken.device.core
  rw [← here] at stands
  have rearmed : u.cur.HaltsTo u.rearm.cur := by
    rw [State.rearm, State.cur_setCl]
    exact Core.haltsTo_setCl ⟨rfl, rfl, rfl, rfl⟩
  rw [if_pos ⟨rfl, stands⟩]
  obtain ⟨d, halts, entered⟩ := taken.core
  rw [← here] at entered
  exact ⟨d, halts, entered.trans rearmed⟩

end Undisturbed

section Error

/-- A host-link timeout takes an access out of its queue, and nothing else of the task (R244). -/
theorem State.coreAt_dropHostAccess (s : State) (n : Nat) :
    ∃ slots accesses dxw issued, (s.dropHostAccess n).coreAt n =
      { s.coreAt n with slots := slots, accesses := accesses, dxw := dxw, dxwIssued := issued } := by
  unfold State.dropHostAccess
  split
  next x _ =>
    have freed : ∃ slots, (s.coreAt n).freeSlot x.id = { s.coreAt n with slots := slots } := by
      unfold Core.freeSlot
      split
      · exact ⟨_, rfl⟩
      · exact ⟨_, rfl⟩
    obtain ⟨slots, freed⟩ := freed
    rw [State.coreAt_setCoreAt, freed, Core.dropAccess_eq]
    exact ⟨slots, _, _, _, rfl⟩
  next => exact ⟨_, _, _, _, rfl⟩

theorem State.sameDevice_dropHostAccess (s : State) (n : Nat) : s.SameDevice (s.dropHostAccess n) := by
  unfold State.dropHostAccess
  split
  · exact s.sameDevice_setCoreAt n _
  · exact .refl s

/-- The state in which an error of a core's unit has been counted, and the host access that met it has ended (R244, R326). -/
def State.countedError (s : State) (n : Nat) (e : StorageError) : State :=
  if e.unit = 8 then (s.count (keyUncorrectable e.unit.toNat)).dropHostAccess n else s.count (keyUncorrectable e.unit.toNat)

theorem State.coreAt_countedError (s : State) (n : Nat) (e : StorageError) :
    ∃ slots accesses dxw issued, (s.countedError n e).coreAt n =
      { s.coreAt n with slots := slots, accesses := accesses, dxw := dxw, dxwIssued := issued } := by
  unfold State.countedError
  split
  · exact State.coreAt_dropHostAccess _ n
  · exact ⟨_, _, _, _, rfl⟩

theorem State.sameDevice_countedError (s : State) (n : Nat) (e : StorageError) :
    (s.count (keyUncorrectable e.unit.toNat)).SameDevice (s.countedError n e) := by
  unfold State.countedError
  split
  · exact State.sameDevice_dropHostAccess _ n
  · exact .refl _

/-- The stop by UNCORR of a task, imprecise and of no unit of its own (R288, R289). -/
def uncorrStop (unit now : Nat) : Stop := ⟨.trap, mkTrapc 0 7 true 0 0x1A, BitVec.ofNat 64 unit, [], 0, 0, now, false, false, false, 0⟩

variable {s : State} {n : Nat}

/-- What follows an error that fences no core and fails no bridge leaves the cores as they are (R326). -/
theorem State.afterError_cores {e : StorageError} (first : e.unit = 3 → s.scratchErrors.get false n = false) (noBridge : e.unit ≠ 6) :
    (s.afterError n e).cores = s.cores ∧ (s.afterError n e).core = s.core := by
  unfold State.afterError
  split
  · exact ⟨rfl, rfl⟩
  · split
    next scratch =>
      rw [if_neg (by simp [first scratch.1])]
      exact ⟨rfl, rfl⟩
    next => exact ⟨rfl, rfl⟩

/-- A task without a gang runs on core `n`, is not being saved, and has not begun the commit of its DONE. -/
structure Core.RunsAlone (c : Core) : Prop where
  busy : c.busy = true
  going : c.stop = none
  unsaved : c.save = none
  timely : c.finishing = false
  alone : c.gang = none

/-- An error that meets such a task is UNCORR, imprecise, of its unit (R288, R326). -/
theorem State.takesStop_uncorrectable (runs : (s.coreAt n).RunsAlone) (unit : Nat) :
    s.SameDevice (s.uncorrectable n unit) ∧
      ∃ k m, ((s.coreAt n).committed k m).TakesStop s.dcc (uncorrStop unit s.dcc) ((s.uncorrectable n unit).coreAt n) := by
  obtain ⟨busy, going, unsaved, timely, alone⟩ := runs
  have early : (s.coreAt n).tooLate .trap true = false := by simp [Core.tooLate, timely]
  have taken : s.uncorrectable n unit = s.stopWith n (uncorrStop unit s.dcc) := by
    simp only [State.uncorrectable, busy, Bool.not_true, Bool.false_eq_true, if_false, alone]
    exact State.takeStop_trap busy going unsaved early ..
  rw [taken]
  exact State.takesStop_trap s n (by simp [uncorrStop])

/-- An uncorrectable error of a core's unit traps the task that it meets there (R288, R326). -/
theorem takesStop_execUncorrectableError {e : StorageError} {t : State} (coded : 1 ≤ e.unit.toNat) (small : e.unit.toNat ≤ 8)
    (first : e.unit = 3 → s.scratchErrors.get false n = false) (noBridge : e.unit ≠ 6) (site : e.site = .task)
    (runs : (s.coreAt n).RunsAlone) (run : execUncorrectableError n e s = .next t) :
    t.core = s.core ∧ ∃ c : Core, c.TakesStop s.dcc (uncorrStop e.unit.toNat s.dcc) (t.coreAt n) := by
  have noPort : e.unit ≠ 9 := fun port => by simp [port] at small
  have trapped : execUncorrectableError n e s = .next (((s.countedError n e).uncorrectable n e.unit.toNat).afterError n e) := by
    rw [execUncorrectableError_coded n e s coded (by omega), site]
    simp only [if_neg noPort]
    rfl
  obtain rfl := Host.Outcome.next.inj (trapped.symm.trans run)
  have device := s.sameDevice_countedError n e
  have dcc : (s.countedError n e).dcc = s.dcc := device.dcc
  have stillRuns : ((s.countedError n e).coreAt n).RunsAlone := by
    obtain ⟨slots, accesses, dxw, issued, same⟩ := s.coreAt_countedError n e
    rw [same]
    exact ⟨runs.busy, runs.going, runs.unsaved, runs.timely, runs.alone⟩
  obtain ⟨device', k, m, taken⟩ := State.takesStop_uncorrectable stillRuns e.unit.toNat
  have all := device.trans device'
  obtain ⟨cores, core⟩ := State.afterError_cores (fun scratch => all.scratchErrors ▸ first scratch) noBridge
  rw [dcc] at taken
  rw [State.coreAt, cores, core]
  exact ⟨all.core, _, taken⟩

end Error

end Sys2Proof.Machine
end

section
namespace Sys2Proof.Machine

/-- Settles O55: TRAP and the error each take a trap, BRK a debug stop, and what such a stop tells, keeps and discards is read off. -/
theorem stopEntry : Obligations.StopEntry := by
  intro s t v c i e scalars undisturbed
  have keepsScalars {d : Core} {st : Stop} {u : State} (same : d.scal = s.cur.scal) (taken : d.TakesStop s.dcc st u.cur) : scalars u := by
    have reg (r : BitVec 5) : d.reg r = s.cur.reg r := by rw [Core.reg, same, Core.reg]
    refine ⟨fun r unknown => ?_, fun r k b x q nonzero known earlier => ?_⟩
    · rw [← reg r] at unknown ⊢
      exact taken.reg_unknown unknown
    · rw [← reg r] at known earlier
      exact taken.view_known nonzero known earlier q
  refine ⟨fun run => ?trap, fun allowed noDxw clear run => ?debug, fun coded small first noBridge site alone timely run => ?error⟩
  case trap =>
    rw [exec_trap, execTrap_stops] at run
    obtain rfl := Host.Outcome.next.inj run
    obtain ⟨k, m, taken⟩ := State.takesStop_stopPrecise_trap undisturbed ⟨0x0B, 0, (v ++ c).setWidth 64, [], 0⟩
    have keeps {α : Type} (f : Core → α) := congrArg f (taken.stopsTo_trap (by simp [State.stopAtWord]))
    refine ⟨?_, taken.trapv, taken.state, taken.issues, fun plain => ?_, keeps Core.spawn, keeps Core.loadq, keeps Core.storeq, keeps Core.acc,
      keeps Core.commands, keeps Core.slots, keeps Core.committing, keeps (·.arrayX.pend), keeps (·.arrayX.ops), keeps (·.arrayY.pend),
      keeps (·.arrayY.ops), keepsScalars (d := s.cur.committed k m) rfl taken, keeps Core.tiles, keeps Core.scratch, fun j => ?_,
      fun idle quiet a => State.homeByte_stopPrecise_trap undisturbed idle quiet _ a⟩
    · rw [taken.trapc]
      exact s.toNat_trapc_stopAtWord .trap false _ _ _ (by decide)
    · exact (keeps Core.version).trans (Core.keptVersion_eq_empty plain)
    · obtain ⟨pc, pred, loop0, loop1⟩ := taken.place j
      exact ⟨pc, pred, loop0, loop1⟩
  case debug =>
    rw [exec_brk, execBrk_stops i s noDxw, if_pos allowed] at run
    obtain rfl := Host.Outcome.next.inj run
    have taken := State.takesStop_stopPrecise_debug undisturbed clear ⟨0x0C, 0, i.setWidth 64, [], 0⟩
    have keeps {α : Type} (f : Core → α) := congrArg f (taken.stopsTo_fault rfl)
    refine ⟨?_, taken.trapv, taken.state, taken.issues, keeps Core.version, keeps Core.spawn, keeps Core.loadq, keeps Core.storeq, keeps Core.acc,
      keeps Core.commands, keeps Core.slots, keeps Core.committing, keeps Core.arrayX, keeps Core.arrayY, keepsScalars rfl taken,
      keeps Core.tiles, keeps Core.scratch, fun j => ⟨(taken.place j).pc, (taken.place j).pred⟩⟩
    rw [taken.trapc]
    exact s.toNat_trapc_stopAtWord .fault true _ _ _ (by decide)
  case error =>
    obtain ⟨busy, going, unsaved⟩ := State.undisturbed_core undisturbed
    obtain ⟨core, d, taken⟩ :=
      takesStop_execUncorrectableError coded small first noBridge site ⟨busy, going, unsaved, timely, alone⟩ run
    rw [State.cur, core]
    refine ⟨?_, taken.trapv.trans (BitVec.ofNat_toNat 64 e.unit), taken.state⟩
    rw [taken.trapc, uncorrStop, toNat_mkTrapc _ _ (by decide) (by decide) (by decide)]
    rfl

end Sys2Proof.Machine
end

section
/-!
PROOFS. The register, branch and memory words of a Sage core (R286, R365, R366, R400 to R405), and what they leave unchanged.
-/

namespace Sys2Proof.Machine

theorem gaShift_eq (y : DWord) : gaShift y = y.toNat % 64 := toNat_extractLsb'_zero y

/-- A byte offset at which a Sage core can go on: a multiple of 4 inside its 64 KB (R400). -/
def SageTarget (t : Int) : Prop := t % 4 = 0 ∧ 0 ≤ t ∧ t < 0x10000

theorem State.jumpSage_target (s : State) {t : Int} (valid : SageTarget t) : s.jumpSage t = .ok (s.setCurSage { s.curSage with pc := t }) := by
  obtain ⟨aligned, low, high⟩ := valid
  exact if_neg (by omega)

theorem State.jumpSage_stop (s : State) {t : Int} (bad : ¬SageTarget t) : s.jumpSage t = .error .stop := by
  unfold SageTarget at bad
  exact if_pos (by omega)

/-- An aligned access of a Sage core may go where its memory, or the device, has all its bytes (R404). -/
theorem State.sageAccessOk_aligned (s : State) (dev : Bool) {t n : Nat} (aligned : t % n = 0) :
    s.sageAccessOk dev t n = if dev then s.offered t n else decide (t + n ≤ 0x40000) := by
  have low : (0 : Int) ≤ t := Int.natCast_nonneg t
  have multiple : (t : Int) % n = 0 := by exact_mod_cast aligned
  have inside : ((t : Int) + n ≤ 0x40000) ↔ t + n ≤ 0x40000 := by omega
  simp only [State.sageAccessOk, low, multiple, inside, decide_true, Bool.true_and, Int.toNat_natCast]

section Running

variable {s : State} (running : s.curSage.running = true)
include running

theorem runSage_stops {plan : State → Except SageHold State} (plans : plan s = .error .stop) : runSage s plan = .next s.stopSage := by
  simp only [runSage, running, plans, Bool.not_true, Bool.false_eq_true, if_false]

/-- A word that writes a register goes on at the next word (R400). -/
theorem exec_sageResult {i : Instr} {d : BitVec 4} {v : State → DWord} {w : DWord} (word : exec i s = sageResult d v s) (result : v s = w) :
    exec i s = .next (s.setG d w).advanceSage := by
  subst result
  exact word.trans (runSage_completes running rfl)

section Branch

variable {taken : State → Bool} {o : BitVec 18}

theorem sageBranch_taken (h : taken s = true) (valid : SageTarget (s.curSage.pc + 4 * o.toInt)) :
    sageBranch taken o s = .next (s.setCurSage { s.curSage with pc := s.curSage.pc + 4 * o.toInt }) :=
  runSage_completes running ((if_pos h).trans (s.jumpSage_target valid))

theorem sageBranch_untaken (h : taken s ≠ true) : sageBranch taken o s = .next s.advanceSage :=
  runSage_completes running (if_neg h)

theorem sageBranch_astray (h : taken s = true) (bad : ¬SageTarget (s.curSage.pc + 4 * o.toInt)) : sageBranch taken o s = .next s.stopSage :=
  runSage_stops running ((if_pos h).trans (s.jumpSage_stop bad))

/-- A branch whose condition is `p`: to its target, to the next word, or to none, which stops the core (R400, R401). -/
theorem sageBranch_completes {p : Prop} (o : BitVec 18) (condition : taken s = true ↔ p) :
    (p → SageTarget (s.curSage.pc + 4 * o.toInt) →
      sageBranch taken o s = .next (s.setCurSage { s.curSage with pc := s.curSage.pc + 4 * o.toInt })) ∧
    (¬p → sageBranch taken o s = .next s.advanceSage) ∧
    (p → ¬SageTarget (s.curSage.pc + 4 * o.toInt) → sageBranch taken o s = .next s.stopSage) :=
  ⟨fun h => sageBranch_taken running (condition.mpr h), fun h => sageBranch_untaken running (mt condition.mp h),
    fun h => sageBranch_astray running (condition.mpr h)⟩

/-- GJMP leaves the link and goes on at its target (R401). -/
theorem execGjmp_target {d a : BitVec 4} {base : Int} (based : (if a = 0 then s.curSage.pc else ((s.g a).toNat : Int)) = base)
    (valid : SageTarget (base + 4 * o.toInt)) :
    execGjmp d a o s = .next ((s.setCurSage { s.curSage with pc := base + 4 * o.toInt }).setG d (BitVec.ofInt 64 (s.curSage.pc + 4))) := by
  refine runSage_completes running ?_
  simp only [based, sageOffset, s.jumpSage_target valid, Except.map]

theorem execGjmp_astray {d a : BitVec 4} {base : Int} (based : (if a = 0 then s.curSage.pc else ((s.g a).toNat : Int)) = base)
    (bad : ¬SageTarget (base + 4 * o.toInt)) : execGjmp d a o s = .next s.stopSage := by
  refine runSage_stops running ?_
  simp only [based, sageOffset, s.jumpSage_stop bad, Except.map]

end Branch

/-- A word that is no G instruction stops its core (R286, R366). -/
theorem execNotAGInstruction_stops {w : Word} {e : Reject} (undecoded : decodeSage w = .error e) :
    execNotAGInstruction w s = .next s.stopSage := by
  rw [execNotAGInstruction, undecoded]
  exact runSage_stops running rfl

section Memory

variable {d a : BitVec 4} {w : BitVec 2} {o : BitVec 14} {t n : Nat} (address : s.sageAddr a o = t) (size : 2 ^ w.toNat = n)
  (aligned : t % n = 0)
include address size aligned

theorem execGld_own (inside : t + n ≤ 0x40000) :
    execGld d a false w o s = .next (s.setG d (BitVec.ofNat 64 (s.curSage.dmem.read t n))).advanceSage := by
  refine runSage_completes running ?_
  simp [address, size, s.sageAccessOk_aligned _ aligned, inside]

theorem execGld_device (offered : s.offered t n = true) (free : s.homeHolds (0, t / 64) false = false) :
    execGld d a true w o s = .next (s.setG d (BitVec.ofNat 64 (s.homeRead t n))).advanceSage := by
  refine runSage_completes running ?_
  simp [address, size, s.sageAccessOk_aligned _ aligned, offered, free]

/-- A load of bytes that are not there stops its core (R404). -/
theorem execGld_beyond {dev : Bool} (absent : (if dev then s.offered t n else decide (t + n ≤ 0x40000)) = false) :
    execGld d a dev w o s = .next s.stopSage := by
  refine runSage_stops running ?_
  simp only [address, size, s.sageAccessOk_aligned _ aligned, absent, Bool.not_false, if_true]

theorem execGst_own (low : 0x8000 ≤ t) (inside : t + n ≤ 0x40000) :
    execGst d a false false w o s =
      .next (s.setCurSage { s.curSage with dmem := s.curSage.dmem.write t n ((s.g d).toNat % 2 ^ (8 * n)) }).advanceSage := by
  refine runSage_completes running ?_
  simp [address, size, s.sageAccessOk_aligned _ aligned, inside, low]

theorem execGst_device (r : Bool) (offered : s.offered t n = true) (free : s.homeHolds (0, t / 64) true = false) :
    execGst d a true r w o s = .next (s.homeWrite t n ((s.g d).toNat % 2 ^ (8 * n))).advanceSage := by
  refine runSage_completes running ?_
  simp [address, size, s.sageAccessOk_aligned _ aligned, offered, free]

/-- A store of bytes that are not there stops its core (R404). -/
theorem execGst_beyond {dev : Bool} (r : Bool) (absent : (if dev then s.offered t n else decide (t + n ≤ 0x40000)) = false) :
    execGst d a dev r w o s = .next s.stopSage := by
  refine runSage_stops running ?_
  simp only [address, size, s.sageAccessOk_aligned _ aligned, absent, Bool.not_false, Bool.true_or, if_true]

omit aligned size in
/-- A store into the event queue, and a release to its own memory, stops its core (R404). -/
theorem execGst_forbidden {r : Bool} (bad : r = true ∨ t < 0x8000) : execGst d a false r w o s = .next s.stopSage := by
  refine runSage_stops running ?_
  have refused : (r || decide (t < 0x8000)) = true := by simpa using bad
  have early : (t : Int) < 0x8000 ↔ t < 0x8000 := by omega
  simp [address, refused, early]

end Memory

section Registers

variable (d a : BitVec 4) (g : Bool) {c : BitVec 12}

/-- A read of EVQ clears DROP (R280, R405). -/
theorem execGcsr_evq :
    execGcsr d a g 0 s = .next ((s.setCurSage { s.curSage with evDrop := 0 }).setG d s.curSage.evq).advanceSage :=
  runSage_completes running rfl

/-- A register that is none stops the core (R405). -/
theorem execGcsr_unlisted (h : 3 < c.toNat) : execGcsr d a g c s = .next s.stopSage := by
  refine runSage_stops running ?_
  split
  case h_5 => rfl
  all_goals omega

end Registers

end Running

end Sys2Proof.Machine
end

section
namespace Sys2Proof.Machine

/-- Settles O25: each word writes the result of its rule, the shifts by their count modulo 64. -/
theorem sageRegisterWordsComplete : Obligations.SageRegisterWordsComplete := by
  intro s d a b i h j running done x y k field
  have result {i : Instr} {d : BitVec 4} {f : State → DWord} {v : DWord} (word : exec i s = sageResult d f s) (value : f s = v) :
      exec i s = .next (s.setG d v).advanceSage := exec_sageResult running word value
  exact ⟨result (exec_gadd ..) rfl, result (exec_gaddI ..) rfl, result (exec_gsub ..) rfl, result (exec_gsubI ..) rfl,
    result (exec_gmul ..) rfl, result (exec_gmulI ..) rfl, result (exec_gand ..) rfl, result (exec_gandI ..) rfl, result (exec_gor ..) rfl,
    result (exec_gorI ..) rfl, result (exec_gxor ..) rfl, result (exec_gxorI ..) rfl,
    result (exec_gsll ..) (congrArg (x <<< ·) (gaShift_eq y)), result (exec_gsllI ..) (congrArg (x <<< ·) (gaShift_eq k)),
    result (exec_gsrl ..) (congrArg (x >>> ·) (gaShift_eq y)), result (exec_gsrlI ..) (congrArg (x >>> ·) (gaShift_eq k)),
    result (exec_gli ..) rfl, result (exec_gliK ..) rfl⟩

/-- Settles O26: each branch by its condition, GJMP by its base. -/
theorem sageBranchWordsComplete : Obligations.SageBranchWordsComplete := by
  intro s d a b o w e running pc valid target at_ branch
  have signed : (s.g a).slt (s.g b) = true ↔ (s.g a).toInt < (s.g b).toInt := BitVec.slt_iff_toInt_lt
  refine ⟨?beq, ?bne, ?blt, ?jmp, ?none⟩
  case beq =>
    rw [exec_gbeq]
    exact sageBranch_completes running o decide_eq_true_iff
  case bne =>
    rw [exec_gbne]
    exact sageBranch_completes running o decide_eq_true_iff
  case blt =>
    rw [exec_gblt]
    exact sageBranch_completes running o signed
  case jmp => exact ⟨execGjmp_target running rfl, execGjmp_astray running rfl⟩
  case none => exact fun undecoded => ⟨execNotAGInstruction_stops running undecoded, by simp [State.stopSage], by simp [State.stopSage]⟩

/-- Settles O27: each word where its bytes are, and where they are not. -/
theorem sageMemoryWordsComplete : Obligations.SageMemoryWordsComplete := by
  intro s d a w o r g c t running address aligned n v x result
  have outside (h : 0x40000 < t + n) : (if false then s.offered t n else decide (t + n ≤ 0x40000)) = false := by simpa using h
  exact ⟨execGld_own running address rfl aligned, execGld_device running address rfl aligned, execGst_own running address rfl aligned,
    execGst_device running address rfl aligned r,
    fun absent => ⟨execGld_beyond running address rfl aligned absent, execGst_beyond running address rfl aligned r absent⟩,
    fun beyond => ⟨execGld_beyond running address rfl aligned (outside beyond), execGst_beyond running address rfl aligned r (outside beyond)⟩,
    fun early => execGst_forbidden running address (.inr early), execGst_forbidden running address (.inl rfl),
    execGcsr_evq running d a g, (exec_gcsr ..).trans (runSage_completes running rfl), (exec_gcsr ..).trans (runSage_completes running rfl),
    (exec_gcsr ..).trans (runSage_completes running rfl),
    execGcsr_unlisted running d a g⟩

end Sys2Proof.Machine
end

section
/-!
PROOFS. The results of the scalar words (R360, R386, R395, R422, R435, R451, R456), in the terms of the rules.
-/

namespace Sys2Proof.Machine

theorem extract_shiftLeft {k m : Nat} (x : BitVec k) (n : Nat) (h : m ≤ k) : (x <<< n).extractLsb' 0 m = x.extractLsb' 0 m <<< n := by
  apply BitVec.eq_of_getLsbD_eq
  intro i hi
  have hk : i < k := by omega
  simp only [BitVec.getLsbD_extractLsb', BitVec.getLsbD_shiftLeft, hi, Nat.zero_add, hk, decide_true, Bool.true_and]
  by_cases low : i < n
  · simp [low]
  · simp [low, show i - n < m by omega]

theorem shiftCount_eq (w : Bool) (y : DWord) : shiftCount w y = y.toNat % (if w then 32 else 64) := by
  cases w
  · exact toNat_extractLsb'_zero y
  · exact toNat_extractLsb'_zero y

/-- A shift left of 32 bits shifts the low word (R456). -/
theorem shiftLeft_word (x : DWord) (n : Nat) : shiftLeft true x n = (x.extractLsb' 0 32 <<< n).signExtend 64 :=
  congrArg (BitVec.signExtend 64) (extract_shiftLeft x n (by decide))

/-- Sign extension keeps the order of natural numbers: those with the sign set stay above the others. -/
theorem ult_signExtend {k m : Nat} (x y : BitVec k) (h : k ≤ m) : (x.signExtend m).ult (y.signExtend m) = x.ult y := by
  have wide : 2 ^ k ≤ 2 ^ m := Nat.pow_le_pow_right (by decide) h
  have ext (z : BitVec k) : (z.signExtend m).toNat = z.toNat + if z.msb then 2 ^ m - 2 ^ k else 0 := by
    rw [BitVec.toNat_signExtend, BitVec.toNat_setWidth, Nat.mod_eq_of_lt (Nat.lt_of_lt_of_le z.isLt wide)]
  have sign (z : BitVec k) : z.msb = decide (2 ^ (k - 1) ≤ z.toNat) := BitVec.msb_eq_decide z
  have hx := x.isLt
  have hy := y.isLt
  rw [BitVec.ult, BitVec.ult, ext, ext, decide_eq_decide]
  rcases hsx : x.msb <;> rcases hsy : y.msb <;> simp only [sign, decide_eq_true_eq, decide_eq_false_iff_not] at hsx hsy <;> simp <;> omega

/-- The lesser or the greater of two values is by the order of their results (R422). -/
theorem pickMinMax_eq (greater signed w : Bool) (x y : DWord) :
    pickMinMax greater signed w x y =
      if (if signed then (narrow w x).slt (narrow w y) else (narrow w x).ult (narrow w y)) then (if greater then narrow w y else narrow w x)
      else (if greater then narrow w x else narrow w y) := by
  have choose (less : Bool) {u v : DWord} : (if less != greater then u else v) =
      if less then (if greater then v else u) else (if greater then u else v) := by cases less <;> cases greater <;> rfl
  have below : ((x.extractLsb' 0 32).signExtend 64).ult ((y.extractLsb' 0 32).signExtend 64) = (x.extractLsb' 0 32).ult (y.extractLsb' 0 32) :=
    ult_signExtend _ _ (by decide)
  cases signed
  case true => exact choose _
  case false =>
    cases w
    case true => exact (choose _).trans (by simp only [narrow, below, if_true]; rfl)
    case false => exact choose _

section Division

variable {k : Nat} (x y : BitVec k)

theorem ofInt_neg_one : BitVec.ofInt k (-1) = BitVec.allOnes k := BitVec.neg_one_eq_allOnes ▸ by simp [BitVec.ofInt_neg]

/-- The truncated quotient of two signed values; all ones for a zero divisor (R395). -/
theorem ofInt_tdiv_toInt :
    BitVec.ofInt k (if y.toInt = 0 then -1 else x.toInt.tdiv y.toInt) = if y = 0 then BitVec.allOnes k else x.sdiv y := by
  by_cases zero : y = 0
  · simp [zero, ofInt_neg_one]
  · have nonzero : y.toInt ≠ 0 := fun h => zero (BitVec.eq_of_toInt_eq (by simpa using h))
    rw [if_neg nonzero, if_neg zero]
    exact BitVec.eq_of_toInt_eq (by rw [BitVec.toInt_ofInt, BitVec.toInt_sdiv])

theorem ofInt_tmod_toInt : BitVec.ofInt k (if y.toInt = 0 then x.toInt else x.toInt.tmod y.toInt) = if y = 0 then x else x.srem y := by
  by_cases zero : y = 0
  · simp [zero]
  · have nonzero : y.toInt ≠ 0 := fun h => zero (BitVec.eq_of_toInt_eq (by simpa using h))
    rw [if_neg nonzero, if_neg zero, ← BitVec.toInt_srem, BitVec.ofInt_toInt]

/-- The quotient of two natural values; all ones for a zero divisor (R395). -/
theorem ofInt_tdiv_toNat :
    BitVec.ofInt k (if (y.toNat : Int) = 0 then -1 else (x.toNat : Int).tdiv y.toNat) = if y = 0 then BitVec.allOnes k else x / y := by
  by_cases zero : y = 0
  · simp [zero, ofInt_neg_one]
  · have nonzero : (y.toNat : Int) ≠ 0 := fun h => zero (BitVec.eq_of_toNat_eq (by simpa using h))
    rw [if_neg nonzero, if_neg zero, ← Int.ofNat_tdiv, BitVec.ofInt_natCast, ← BitVec.toNat_udiv, BitVec.ofNat_toNat, BitVec.setWidth_eq]

theorem ofInt_tmod_toNat :
    BitVec.ofInt k (if (y.toNat : Int) = 0 then (x.toNat : Int) else (x.toNat : Int).tmod y.toNat) = if y = 0 then x else x % y := by
  by_cases zero : y = 0
  · simp [zero]
  · have nonzero : (y.toNat : Int) ≠ 0 := fun h => zero (BitVec.eq_of_toNat_eq (by simpa using h))
    rw [if_neg nonzero, if_neg zero, ← Int.ofNat_tmod, BitVec.ofInt_natCast, ← BitVec.toNat_umod, BitVec.ofNat_toNat, BitVec.setWidth_eq]

end Division

end Sys2Proof.Machine
end

section
/-!
PROOFS. The scalar words that compute a result or a condition, through their gate and plan (R375, R376, R386, R395, R418, R422, R429, R435, R438, R439,
R441, R451, R456, R461, R478).
-/

namespace Sys2Proof.Machine

/-- Does the word pass every check at issue in any cluster and at any place (R100, R330, R359, R361)? -/
def passesAnywhere (i : Instr) : Bool := decide (opOf i < 0x40) && (fieldCheck i).isNone && !endForbidden i && !dxwForbidden i

theorem State.gate_anywhere (s : State) {i : Instr} (h : passesAnywhere i = true) : s.gate i = .ok () := by
  simp only [passesAnywhere, Bool.and_eq_true, Option.isNone_iff_eq_none, Bool.not_eq_true'] at h
  obtain ⟨⟨⟨any, fields⟩, inner⟩, dxw⟩ := h
  exact s.gate_ok i (checkWord_any _ i any fields) inner dxw

section Result

variable {s : State} {d a b : BitVec 5} {m n : Bool} {x y v : DWord} {i : Instr} (ha : s.src a m = .ok x) (hb : s.src b n = .ok y)
  (dest : s.aluDest d = .ok ()) (passes : passesAnywhere i = true)

include ha hb dest passes in
/-- A word of two sources writes its result (R353). -/
theorem exec_planRR {f : DWord → DWord → DWord} (word : exec i s = runWord i s (planRR d a b m n f)) (result : f x y = v) :
    exec i s = .next (s.putScal d v).retire := by
  refine word.trans (runWord_done (s.gate_anywhere passes) ?_)
  simp only [planRR, ha, hb, dest, result, bind, Except.bind]

include ha dest passes in
/-- A word of a source and an immediate writes its result (R354). -/
theorem exec_planRI {f : DWord → DWord} (default : m = s.femodeDef) (word : exec i s = runWord i s (planRI d a f)) (result : f x = v) :
    exec i s = .next (s.putScal d v).retire := by
  subst default
  refine word.trans (runWord_done (s.gate_anywhere passes) ?_)
  simp only [planRI, State.srcDef, ha, dest, result, bind, Except.bind]

include ha hb dest passes in
/-- A word of the divider, when that is free, empties its destination for its result (R92, R395). -/
theorem exec_planDiv {f : DWord → DWord → DWord} (free : s.cur.dividing s.cluster = false)
    (word : exec i s = runWord i s (planDiv d a b m n f)) (result : f x y = v) : exec i s = .next (s.produce d true (some v)).retire := by
  refine word.trans (runWord_done (s.gate_anywhere passes) ?_)
  simp only [planDiv, ha, hb, dest, result, free, bind, Except.bind, Bool.false_eq_true, if_false]

include ha passes in
/-- A compare with an immediate writes its condition (R386). -/
theorem exec_planCmpI {code : Nat} {p : BitVec 3} {j : BitVec 13} {q : Bool} (default : m = s.femodeDef)
    (word : exec i s = runWord i s (planCmpI code p a j)) (condition : holds code x (j.signExtend 64) = q) :
    exec i s = .next (s.putPred p q).retire := by
  subst default
  refine word.trans (runWord_done (s.gate_anywhere passes) ?_)
  simp only [planCmpI, State.srcDef, simm13, ha, condition, bind, Except.bind]

include ha hb in
theorem execCmp_done (p : BitVec 3) (w : Bool) {c : BitVec 4} (assigned : c.toNat < 10) :
    execCmp p a b m n w c s = .next (s.putPred p (holds c.toNat (cmpOperand w c.toNat x) (cmpOperand w c.toNat y))).retire := by
  have fields : fieldCheck (.cmp p a b m n w c) = none := by simp [fieldCheck, firstFail, assigned]
  refine runWord_done (s.gate_ok _ (checkWord_any _ _ rfl fields) rfl rfl) ?_
  simp only [ha, hb, bind, Except.bind]

end Result

theorem execPset_done (s : State) (p q r o : BitVec 3) (passes : passesAnywhere (.pset p q r o) = true) :
    execPset p q r o s = .next (s.putPred p (predOp o.toNat (s.predicate q) (s.predicate r))).retire :=
  runWord_done (s.gate_anywhere passes) rfl

end Sys2Proof.Machine
end

section
namespace Sys2Proof.Machine

/-- Settles O1: each word of two sources by its result, SEL by its predicate, and the divider's words by the quotient and remainder of R395. -/
theorem registerWordsComplete : Obligations.RegisterWordsComplete := by
  intro s d a b m n w g p x y ha hb dest done
  have rr {i : Instr} {f : DWord → DWord → DWord} {v : DWord} (word : exec i s = runWord i s (planRR d a b m n f))
      (passes : passesAnywhere i = true) (result : f x y = v) : exec i s = done v := exec_planRR ha hb dest passes word result
  have count (w : Bool) : shiftCount w y = y.toNat % (if w then 32 else 64) := shiftCount_eq w y
  have selected : (if s.predicate p != g then x else y) = if s.predicate p = g then y else x := by
    by_cases h : s.predicate p = g <;> simp [h]
  refine ⟨rr (exec_add ..) rfl rfl, rr (exec_sub ..) rfl rfl, rr (exec_mul ..) rfl rfl, rr (exec_mulh ..) rfl rfl, rr (exec_mulhu ..) rfl rfl,
    rr (exec_mulh ..) rfl rfl, rr (exec_mulhu ..) rfl rfl, rr (exec_and ..) rfl rfl, rr (exec_andn ..) rfl rfl, rr (exec_or ..) rfl rfl,
    rr (exec_xor ..) rfl rfl, rr (exec_sll ..) rfl (congrArg (shiftLeft false x) (count false)),
    rr (exec_srl ..) rfl (congrArg (shiftRight false x) (count false)), rr (exec_sra ..) rfl (congrArg (shiftArith false x) (count false)),
    rr (exec_sll ..) rfl ((congrArg (shiftLeft true x) (count true)).trans (shiftLeft_word x _)),
    rr (exec_srl ..) rfl (congrArg (shiftRight true x) (count true)), rr (exec_sra ..) rfl (congrArg (shiftArith true x) (count true)),
    rr (exec_min ..) rfl (pickMinMax_eq false true w x y), rr (exec_max ..) rfl (pickMinMax_eq true true w x y),
    rr (exec_minu ..) rfl (pickMinMax_eq false false w x y), rr (exec_maxu ..) rfl (pickMinMax_eq true false w x y),
    execMov_done ha dest, rr (exec_sel ..) rfl selected, fun free => ?divider⟩
  case divider =>
    intro begun xw yw
    have div {i : Instr} {f : DWord → DWord → DWord} {v : DWord} (word : exec i s = runWord i s (planDiv d a b m n f))
        (passes : passesAnywhere i = true) (result : f x y = v) : exec i s = begun v := exec_planDiv ha hb dest passes free word result
    have extended {u v : BitVec 32} (h : u = v) : u.signExtend 64 = v.signExtend 64 := congrArg _ h
    exact ⟨div (exec_div ..) rfl (ofInt_tdiv_toInt x y), div (exec_divu ..) rfl (ofInt_tdiv_toNat x y),
      div (exec_rem ..) rfl (ofInt_tmod_toInt x y), div (exec_remu ..) rfl (ofInt_tmod_toNat x y),
      div (exec_div ..) rfl (extended (ofInt_tdiv_toInt xw yw)), div (exec_divu ..) rfl (extended (ofInt_tdiv_toNat xw yw)),
      div (exec_rem ..) rfl (extended (ofInt_tmod_toInt xw yw)), div (exec_remu ..) rfl (extended (ofInt_tmod_toNat xw yw))⟩

/-- Settles O2: each word of a source and an immediate by its result; LI has no source. -/
theorem immediateWordsComplete : Obligations.ImmediateWordsComplete := by
  intro s d a i j c x y ha hd dest done k
  have ri {w : Instr} {f : DWord → DWord} {v : DWord} (word : exec w s = runWord w s (planRI d a f)) (passes : passesAnywhere w = true)
      (result : f x = v) : exec w s = done v := exec_planRI ha dest passes rfl word result
  exact ⟨ri (exec_addi ..) rfl rfl, ri (exec_muli ..) rfl rfl, ri (exec_andi ..) rfl rfl, ri (exec_ori ..) rfl rfl, ri (exec_xori ..) rfl rfl,
    ri (exec_slli ..) rfl rfl, ri (exec_srli ..) rfl rfl, ri (exec_srai ..) rfl rfl,
    ri (exec_mini ..) rfl (pickMinMax_eq false true false x k), ri (exec_maxi ..) rfl (pickMinMax_eq true true false x k),
    ri (exec_minui ..) rfl (pickMinMax_eq false false false x k), ri (exec_maxui ..) rfl (pickMinMax_eq true false false x k),
    execLi_done j dest, exec_planRI hd dest rfl rfl (exec_lih ..) rfl⟩

/-- Settles O3: each compare by its condition, PSET by its operation. -/
theorem predicateWordsComplete : Obligations.PredicateWordsComplete := by
  intro s p q r a b m n w i c x y z ha hb hz done k
  have cmpi {code : Nat} {j : Instr} {v : Bool} (word : exec j s = runWord j s (planCmpI code p a i)) (passes : passesAnywhere j = true)
      (condition : holds code z k = v) : exec j s = done v := exec_planCmpI hz passes rfl word condition
  have notLess (u v : DWord) : (!u.slt v) = v.sle u := BitVec.sle_eq_not_slt.symm
  have notBelow (u v : DWord) : (!u.ult v) = v.ule u := (BitVec.ule_eq_not_ult v u).symm
  exact ⟨execCmp_done ha hb p w, cmpi (exec_cmpiEq ..) rfl rfl, cmpi (exec_cmpiNe ..) rfl rfl, cmpi (exec_cmpiLt ..) rfl rfl,
    cmpi (exec_cmpiGe ..) rfl (notLess z k), cmpi (exec_cmpiLe ..) rfl (notLess k z), cmpi (exec_cmpiGt ..) rfl rfl,
    cmpi (exec_cmpiLtu ..) rfl rfl, cmpi (exec_cmpiGeu ..) rfl (notBelow z k), cmpi (exec_cmpiLeu ..) rfl (notBelow k z),
    cmpi (exec_cmpiGtu ..) rfl rfl,
    execPset_done s p q r 0 rfl, execPset_done s p q r 1 rfl, execPset_done s p q r 2 rfl, execPset_done s p q r 3 rfl,
    execPset_done s p q r 4 rfl, execPset_done s p q r 5 rfl, execPset_done s p 0 0 6 rfl, execPset_done s p 0 0 7 rfl, execNop_done s⟩

end Sys2Proof.Machine
end

section
/-!
PROOFS. Branches, jumps, calls and returns (R101, R377, R385, R411, R450), away from a loop's end and from DXW.
-/

namespace Sys2Proof.Machine

section Away

variable {s : State} (away : s.atLoopEnd = false) (alone : s.cur.dxw.getLsbD 34 = false)
include away alone

/-- A word of any cluster whose fields are sound passes the gate there (R100, R330). -/
theorem State.gate_any_away {i : Instr} (any : decide (opOf i < 0x40) = true) (fields : fieldCheck i = none) : s.gate i = .ok () :=
  s.gate_away i (checkWord_any _ i any fields) away alone

theorem execB_done (p : BitVec 3) (g : Bool) (o : BitVec 19) :
    execB p g o s = .next (if s.predicate p = g then s.retire else s.branchTo (s.cl.pc + 4 * o.toInt)) := by
  refine runWord_done (State.gate_any_away away alone rfl rfl) ?_
  by_cases h : s.predicate p = g
  · simp [h]
  · simp [h, wordOffset]

section Source

variable {a : BitVec 5} {x : DWord} (ha : s.src a s.femodeDef = .ok x)
include ha

theorem execBz_done (i : BitVec 13) :
    execBz a i s = .next (if x = 0 then s.branchTo (s.cl.pc + 4 * i.toInt) else s.retire) := by
  refine runWord_done (State.gate_any_away away alone rfl rfl) ?_
  simp only [planBz, State.srcDef, ha, wordOffset, bind, Except.bind, decide_eq_true_eq, apply_ite Except.ok]

theorem execBnz_done (i : BitVec 13) :
    execBnz a i s = .next (if x = 0 then s.retire else s.branchTo (s.cl.pc + 4 * i.toInt)) := by
  refine runWord_done (State.gate_any_away away alone rfl rfl) ?_
  simp only [planBz, State.srcDef, ha, wordOffset, bind, Except.bind, decide_eq_false_iff_not, ite_not, apply_ite Except.ok]

end Source

theorem execCall_done {d : BitVec 5} (dest : s.aluDest d = .ok ()) (j : BitVec 18) :
    execCall d j s = .next ((s.putScal d (BitVec.ofInt 64 (s.cl.pc + 4))).goTo (s.cl.pc + 4 * j.toInt)) := by
  refine runWord_done (State.gate_any_away away alone rfl rfl) ?_
  simp only [dest, bind, Except.bind, State.link, wordOffset]

section Register

variable {a : BitVec 5} {m : Bool} {x : DWord} (ha : s.src a m = .ok x)
include ha

/-- JMP and RET go on at their register's value (R411, R450). -/
theorem runWord_planJump {i : Instr} (any : decide (opOf i < 0x40) = true) (fields : fieldCheck i = none) (aligned : x.toNat % 4 = 0) :
    runWord i s (planJump a m) = .next (s.branchTo x.toNat) := by
  refine runWord_done (State.gate_any_away away alone any fields) ?_
  simp [planJump, ha, aligned, bind, Except.bind]

/-- They trap where it is no multiple of 4 (R411). -/
theorem runWord_planJump_align {i : Instr} (any : decide (opOf i < 0x40) = true) (fields : fieldCheck i = none) (astray : x.toNat % 4 ≠ 0) :
    runWord i s (planJump a m) = .next (s.stopPrecise .trap false ⟨0x09, 0, 0, [], 0⟩) := by
  refine runWord_trapOf (State.gate_any_away away alone any fields) ?_ (by decide)
  simp [planJump, ha, astray, bind, Except.bind]

theorem execCallr_done {d : BitVec 5} (dest : s.aluDest d = .ok ()) (aligned : x.toNat % 4 = 0) :
    execCallr d a m s = .next ((s.putScal d (BitVec.ofInt 64 (s.cl.pc + 4))).goTo x.toNat) := by
  refine runWord_done (State.gate_any_away away alone rfl rfl) ?_
  simp [ha, aligned, dest, bind, Except.bind, State.link]

theorem execCallr_align (d : BitVec 5) (astray : x.toNat % 4 ≠ 0) :
    execCallr d a m s = .next (s.stopPrecise .trap false ⟨0x09, 0, 0, [], 0⟩) := by
  refine runWord_trapOf (State.gate_any_away away alone rfl rfl) ?_ (by decide)
  simp [ha, astray, bind, Except.bind]

end Register

end Away

end Sys2Proof.Machine
end

section
/-!
PROOFS. CSRR, CSRW, CSRS and CSRC (R115, R116, R392, R393).
-/

namespace Sys2Proof.Machine

section Csr

variable {s : State} {c : BitVec 12}

theorem State.csrOld_listed {old : DWord} {writes : Bool} (listed : s.readCsr c.toNat = some old)
    (allowed : writes = true → ¬(c = 0x028 ∧ s.cluster ≠ .V)) : s.csrOld c writes = .ok old := by
  rw [State.csrOld, listed]
  exact if_neg fun h => allowed h.1 h.2

theorem State.csrOld_unlisted (unlisted : s.readCsr c.toNat = none) (writes : Bool) : s.csrOld c writes = .error (ilg 0x0A) := by
  rw [State.csrOld, unlisted]

/-- SHP is written from cluster V alone (R116). -/
theorem State.csrOld_shp (other : s.cluster ≠ .V) : s.csrOld 0x028 true = .error (ilg 0x0B) :=
  if_pos ⟨rfl, rfl, other⟩

variable {d a : BitVec 5} {old v : DWord}

theorem execCsrr_done (listed : s.readCsr c.toNat = some old) (dest : s.aluDest d = .ok ()) :
    execCsrr d c s = .next (s.putScal d old).retire := by
  refine runWord_done (s.gate_anywhere rfl) ?_
  simp only [State.csrOld_listed (writes := false) listed (absurd · Bool.false_ne_true), dest, bind, Except.bind]

theorem planCsrSet_done {f : DWord → DWord → DWord} (listed : s.readCsr c.toNat = some old) (allowed : ¬(c = 0x028 ∧ s.cluster ≠ .V))
    (ha : s.src a s.femodeDef = .ok v) (dest : s.aluDest d = .ok ()) :
    planCsrSet d a c f s = .ok ((s.writeCsr c.toNat (f old v)).putScal d old).retire := by
  simp only [planCsrSet, State.csrOld_listed (writes := true) listed fun _ => allowed, State.srcDef, ha, dest, bind, Except.bind]

/-- A register that a write word may not write stops it, whatever its operands (R116, R393; log 40). -/
theorem planCsrSet_error {h : Hold} (refused : s.csrOld c true = .error h) (f : DWord → DWord → DWord) : planCsrSet d a c f s = .error h := by
  simp only [planCsrSet, refused, bind, Except.bind]

/-- A word whose plan is ILLEGAL traps with its subcause (R363). -/
theorem runWord_ilg {i : Instr} {p : State → Except Hold State} {sub : Nat} (h : s.gate i = .ok ()) (q : p s = .error (ilg sub)) :
    runWord i s p = .next (s.stopPrecise .trap false ⟨0x01, sub, 0, [], 0⟩) := by
  rw [runWord_gate h, q]
  rfl

theorem execCsrr_unlisted (unlisted : s.readCsr c.toNat = none) :
    execCsrr d c s = .next (s.stopPrecise .trap false ⟨0x01, 0x0A, 0, [], 0⟩) := by
  refine runWord_ilg (s.gate_anywhere rfl) ?_
  simp only [State.csrOld_unlisted unlisted, bind, Except.bind]

theorem opAllowed_csrs (k : Cluster) : opAllowed 0xED k = true := by cases k <;> rfl

theorem opAllowed_csrc (k : Cluster) : opAllowed 0xEE k = true := by cases k <;> rfl

theorem State.gate_csrw (s : State) (a : BitVec 5) (c : BitVec 12) : s.gate (.csrw a c) = .ok () := s.gate_anywhere rfl

theorem State.gate_csrs (s : State) (d a : BitVec 5) (c : BitVec 12) : s.gate (.csrs d a c) = .ok () :=
  s.gate_ok _ (checkWord_allowed (opAllowed_csrs s.cluster) rfl) rfl rfl

theorem State.gate_csrc (s : State) (d a : BitVec 5) (c : BitVec 12) : s.gate (.csrc d a c) = .ok () :=
  s.gate_ok _ (checkWord_allowed (opAllowed_csrc s.cluster) rfl) rfl rfl

end Csr

end Sys2Proof.Machine
end

section
/-!
PROOFS. WAITF and WAITD (R91, R93, R476, R477): what completes them, and how they wait.
-/

namespace Sys2Proof.Machine

/-- A word that has not waited begins its wait in this cycle (R94, R339). -/
theorem State.waited_fresh {s : State} (fresh : s.cl.since = none) (kind : Nat) (obj : DWord) :
    s.waited kind obj = s.setCl { s.cl with
      since := some s.dcc, waitKind := kind, waitObj := obj, waitFrom := s.dcc, seen := if operandsRead kind then s.reads else s.cl.seen } := by
  rw [State.waited, fresh]

section Wait

variable {s : State} {d a : BitVec 5} {m : Bool} {v : DWord}

/-- A word whose plan waits. -/
theorem runWord_waits {i : Instr} {p : State → Except Hold State} {kind : Nat} {obj : DWord} (h : s.gate i = .ok ())
    (q : p s = .error (.wait kind obj)) : runWord i s p = .next (s.waited kind obj) := by
  rw [runWord_gate h, q]
  rfl

theorem execWaitfRead_full (full : (s.view a).2 = true) (dest : s.aluDest d = .ok ()) :
    execWaitfRead d a s = .next (s.putScal d (s.view a).1).retire := by
  refine runWord_done (s.gate_anywhere rfl) ?_
  simp [full, dest, bind, Except.bind]

theorem execWaitfRead_empty (empty : (s.view a).2 = false) : execWaitfRead d a s = .next (s.waited 1 (a.setWidth 64)) := by
  refine runWord_waits (s.gate_anywhere rfl) ?_
  simp [empty, waitFull]

/-- TAKE empties the register that it reads (R96, R477). -/
theorem execWaitfTake_full (full : (s.viewAt (some false) a).2 = true) (free : s.markFree = .ok ()) (dest : s.aluDest d = .ok ()) :
    execWaitfTake d a s =
      .next ((s.setCur (s.cur.change s.dcc s.cluster a (s.viewAt (some false) a).1 false)).putScal d (s.viewAt (some false) a).1).retire := by
  refine runWord_done (s.gate_anywhere rfl) ?_
  simp [full, free, dest, bind, Except.bind]

theorem execWaitfTake_empty (empty : (s.viewAt (some false) a).2 = false) : execWaitfTake d a s = .next (s.waited 1 (a.setWidth 64)) := by
  refine runWord_waits (s.gate_anywhere rfl) ?_
  simp [empty, waitFull]

theorem execWaitfPut_empty (empty : (s.viewAt (some true) d).2 = false) (dest : s.aluDest d = .ok ()) (ha : s.src a false = .ok v) :
    execWaitfPut d a s = .next (s.putScal d v).retire := by
  refine runWord_done (s.gate_anywhere rfl) ?_
  simp [empty, dest, ha, bind, Except.bind]

theorem execWaitfPut_full (full : (s.viewAt (some true) d).2 = true) : execWaitfPut d a s = .next (s.waited 5 (d.setWidth 64)) := by
  refine runWord_waits (s.gate_anywhere rfl) ?_
  simp [full, waitEmpty]

theorem execWaitfEmpty_empty (empty : (s.view a).2 = false) : execWaitfEmpty a s = .next s.retire := by
  refine runWord_done (s.gate_anywhere rfl) ?_
  simp [empty]

theorem execWaitfEmpty_full (full : (s.view a).2 = true) : execWaitfEmpty a s = .next (s.waited 5 (a.setWidth 64)) := by
  refine runWord_waits (s.gate_anywhere rfl) ?_
  simp [full, waitEmpty]

/-- Before its target WAITD waits, its operands read (R476). -/
theorem execWaitd_early (ha : s.src a m = .ok v) (dest : s.aluDest d = .ok ()) (early : s.dcc < v.toNat) :
    execWaitd d a m s = .next (s.waited 7 0) := by
  have gate : s.gate (.waitd d a m) = .ok () := s.gate_ok _ (checkWord_allowed (by cases s.cluster <;> rfl) rfl) rfl rfl
  refine runWord_waits gate ?_
  simp only [ha, dest, early, bind, Except.bind, if_true]

end Wait

end Sys2Proof.Machine
end

section
namespace Sys2Proof.Machine

/-- Settles O4: each word away from a loop's end, the register targets by their alignment. -/
theorem branchWordsComplete : Obligations.BranchWordsComplete := by
  intro s d a m g p o i j x z away alone ha hz dest
  exact ⟨execB_done away alone p g o, execBz_done away alone hz i, execBnz_done away alone hz i, execCall_done away alone dest j,
    fun aligned => ⟨runWord_planJump away alone ha rfl rfl aligned, runWord_planJump away alone ha rfl rfl aligned,
      execCallr_done away alone ha dest aligned⟩,
    fun astray => ⟨runWord_planJump_align away alone ha rfl rfl astray, runWord_planJump_align away alone ha rfl rfl astray,
      execCallr_align away alone ha d astray⟩⟩

/-- Settles O6: a register that is listed, one that is not, and SHP from outside cluster V. -/
theorem controlRegisterWordsComplete : Obligations.ControlRegisterWordsComplete := by
  intro s d a c v
  refine ⟨fun old listed ha dest => ⟨execCsrr_done listed dest, fun allowed => ?writes⟩, fun unlisted => ?unlisted, fun other => ?shp⟩
  case writes =>
    exact ⟨runWord_done (s.gate_csrs d a c) (planCsrSet_done listed allowed ha dest),
      runWord_done (s.gate_csrc d a c) (planCsrSet_done listed allowed ha dest),
      runWord_done (s.gate_csrw a c) (planCsrSet_done listed allowed ha s.aluDest_zero)⟩
  case unlisted =>
    have refused := State.csrOld_unlisted unlisted true
    exact ⟨execCsrr_unlisted unlisted, runWord_ilg (s.gate_csrw a c) (planCsrSet_error refused _),
      runWord_ilg (s.gate_csrs d a c) (planCsrSet_error refused _), runWord_ilg (s.gate_csrc d a c) (planCsrSet_error refused _)⟩
  case shp =>
    have refused := State.csrOld_shp other
    exact ⟨runWord_ilg (s.gate_csrw a 0x028) (planCsrSet_error refused _), runWord_ilg (s.gate_csrs d a 0x028) (planCsrSet_error refused _),
      runWord_ilg (s.gate_csrc d a 0x028) (planCsrSet_error refused _)⟩

/-- Settles O7: each wait once it is over, and before. -/
theorem scalarWaitWordsComplete : Obligations.ScalarWaitWordsComplete := by
  intro s d a m v dest
  refine ⟨(execWaitfRead_full · dest), (execWaitfTake_full · · dest), (execWaitfPut_empty · dest ·), execWaitfEmpty_empty,
    (execWaitd_reached · dest ·), fun fresh => ?waits⟩
  intro waits
  have begins (kind : Nat) (obj : DWord) := State.waited_fresh fresh kind obj
  exact ⟨fun empty => (execWaitfRead_empty empty).trans (congrArg _ (begins ..)),
    fun empty => (execWaitfTake_empty empty).trans (congrArg _ (begins ..)), fun full => (execWaitfPut_full full).trans (congrArg _ (begins ..)),
    fun full => (execWaitfEmpty_full full).trans (congrArg _ (begins ..)),
    fun ha early => (execWaitd_early ha dest early).trans (congrArg _ (begins ..))⟩

end Sys2Proof.Machine
end

section
/-!
PROOFS. The checks of R361 on the word alone come before everything else that a core word does; and words of the reference entries, decoded.
-/

namespace Sys2Proof.Machine

/-- A word of some cluster runs by its checks and a plan of its own (R55, R361). -/
theorem exec_word (i : Instr) (word : decide (0 < opOf i) = true) (s : State) : ∃ plan, exec i s = runWord i s plan := by
  cases i
  all_goals cases word
  all_goals dsimp only [exec]
  all_goals exact ⟨_, rfl⟩

/-- A word that fails a check traps ILLEGAL with the check's subcause (R361). -/
theorem exec_check {i : Instr} {s : State} {sub : Nat} (word : 0 < opOf i) (failed : checkWord s.cluster i = some sub) :
    exec i s = .next (s.stopPrecise .trap false ⟨0x01, sub, 0, [], 0⟩) := by
  obtain ⟨plan, runs⟩ := exec_word i (decide_eq_true word) s
  rw [runs, runWord_check plan failed]

theorem checkWord_fields {k : Cluster} {i : Instr} {sub : Nat} (allowed : opAllowed (opOf i) k = true) (failed : fieldCheck i = some sub) :
    checkWord k i = some sub := by
  rw [checkWord, if_pos allowed, failed]

end Sys2Proof.Machine
end

section
namespace Sys2Proof.Machine

/-- Settles O51: the check of the cluster comes first, then those of the fields. -/
theorem failedWordChecksTrap : Obligations.FailedWordChecksTrap := fun s i word =>
  ⟨fun elsewhere => exec_check word (checkWord_bad s.cluster i elsewhere), fun _ allowed failed => exec_check word (checkWord_fields allowed failed)⟩

/-- Settles O46: each of the words is decoded. -/
theorem specWordsDecode : Obligations.SpecWordsDecode := by
  unfold Obligations.SpecWordsDecode
  and_intros <;> rfl

end Sys2Proof.Machine
end

section
/-!
PROOFS. The words of cluster A that enter its queues: loads, stores, notify writes, row reads and writes, MARK, FENCE and the atomics (R370 to R374, R398,
R414 to R421, R444 to R447, R458, R459).
-/

namespace Sys2Proof.Machine

theorem badScope_of_lt {c : BitVec 3} (h : c.toNat < 6) : badScope c = false := by
  simp only [badScope, decide_eq_false_iff_not]
  bv_omega

/-- A record that is found needs no coordinates for a report. -/
theorem State.lookupAt_found {s : State} {v : Viewer} {h : BitVec 32} {acc : Nat} {r : ObjRec} (found : s.lookup v h acc = .ok r) (x : Nat) :
    s.lookupAt v h acc x = .ok r := by
  rw [State.lookupAt, found]
  rfl

/-- A word goes on with its own part where it needs no commit, or has reached the part after it (R49). -/
theorem State.afterCommit_over {s : State} {needs : Bool} (past : needs = true → 2 ≤ s.cl.stage) (goOn : State → Except Hold State) :
    s.afterCommit needs goOn = goOn s := by
  cases needs with
  | false => rfl
  | true =>
    have h := past rfl
    simp only [State.afterCommit, State.commitPoint, if_true]
    rw [if_neg (by omega), if_neg (by omega)]

/-- A release of quad scope or wider is over its commit in its last part. -/
theorem wide_release {rel : Bool} {c : BitVec 3} {k : Nat} (last : rel = true → 2 ≤ c.toNat → 2 ≤ k) (h : (rel && decide (2 ≤ c.toNat)) = true) :
    2 ≤ k := by
  obtain ⟨release, wide⟩ := (Bool.and_eq_true _ _).mp h
  exact last release (of_decide_eq_true wide)

section Loads

variable {s : State} {d a b : BitVec 5} {m n x : Bool} {c : BitVec 3} {w : BitVec 2} {h o : DWord} {r : ObjRec} {ps : List Part} {off : BitVec 32} {bits : Nat}

/-- What a load that translates queues (R415). -/
theorem planLoad_queues {signed acq : Bool} {scope : BitVec 3} (found : s.lookup s.here (handleOf h) 0 = .ok r)
    (aligned : r.alignedAccess ((indexOf h + off.toNat) % 2 ^ 32) bits = true) (free : s.destFree d = .ok ())
    (located : s.locateAll s.here r (handleOf h) 0 (r.elements ((indexOf h + off.toNat) % 2 ^ 32) bits) = .ok ps)
    (unwatched : s.watchIssue false (r.linear ((indexOf h + off.toNat) % 2 ^ 32)) ps = .ok ()) :
    planLoad bits signed acq scope d h off s = .ok (((s.produce d false none).cacheUse s.here (handleOf h) ps).enqueue r (handleOf h) 0
      (r.linear ((indexOf h + off.toNat) % 2 ^ 32)) (.load d bits signed) ps acq false scope).retire := by
  simp only [planLoad, State.lookupAt_found found, aligned, free, located, unwatched, bind, Except.bind, Bool.not_true, Bool.false_eq_true, if_false]

theorem fieldCheck_ld (d a b : BitVec 5) (m n : Bool) (plain : ¬(x = true ∧ w = 3)) (scope : c.toNat < 6) :
    fieldCheck (.ld w d a b m n c x) = none := by
  have signed : (x && decide (w = 3)) = false := by simpa using plain
  simp only [fieldCheck, signed, badScope_of_lt scope]
  rfl

end Loads

section Stores

variable {s : State} {h v : DWord} {r : ObjRec} {ps : List Part} {off : BitVec 32} {bits : Nat} {rel : Bool} {scope : BitVec 3}

/-- What a store that translates queues in its last part (R459). -/
theorem planStore_queues (found : s.lookup s.here (handleOf h) 1 = .ok r) (plain : r.kind ≠ 2)
    (aligned : r.alignedAccess ((indexOf h + off.toNat) % 2 ^ 32) bits = true)
    (located : s.locateAll s.here r (handleOf h) 1 (r.elements ((indexOf h + off.toNat) % 2 ^ 32) bits) = .ok ps)
    (unwatched : s.watchIssue true (r.linear ((indexOf h + off.toNat) % 2 ^ 32)) ps = .ok ())
    (last : rel = true → 2 ≤ scope.toNat → 2 ≤ s.cl.stage) :
    planStore bits rel scope h v off s = .ok ((s.cacheUse s.here (handleOf h) ps).enqueue r (handleOf h) 1
      (r.linear ((indexOf h + off.toNat) % 2 ^ 32)) (.store v.toNat) ps false rel scope).retire := by
  simp only [planStore, State.lookupAt_found found, plain, aligned, located, unwatched, bind, Except.bind, Bool.not_true, Bool.false_eq_true, if_false]
  exact State.afterCommit_over (wide_release last) _

/-- A doorbell store of 64 bits at a multiple of 8 queues a notify write in its last part (R459). -/
theorem planStore_notifies (found : s.lookup s.here (handleOf h) 1 = .ok r) (doorbell : r.kind = 2)
    (aligned : (indexOf h + off.toNat) % 2 ^ 32 % 8 = 0) (last : rel = true → 2 ≤ scope.toNat → 2 ≤ s.cl.stage) :
    planStore 64 rel scope h v off s =
      .ok (s.enqueue r (handleOf h) 1 [] (.notify (s.doorbellSlot h) v) [] false rel scope).retire := by
  simp only [planStore, State.lookupAt_found found, doorbell, aligned, bind, Except.bind, if_true, ne_eq, not_true_eq_false, or_self, if_false]
  exact State.afterCommit_over (wide_release last) _

/-- A doorbell store of another width or index traps with HPERM (R459). -/
theorem planStore_hperm (found : s.lookup s.here (handleOf h) 1 = .ok r) (doorbell : r.kind = 2)
    (odd : bits ≠ 64 ∨ (indexOf h + off.toNat) % 2 ^ 32 % 8 ≠ 0) :
    planStore bits rel scope h v off s =
      .error (.trap (xlateInfo 0x14 (handleOf h) 0 1 0 (r.linear ((indexOf h + off.toNat) % 2 ^ 32)) 0)) := by
  simp only [planStore, State.lookupAt_found found, doorbell, bind, Except.bind, if_true, if_pos odd]

end Stores

/-- Only the last width is a doubleword's (R458). -/
theorem widthBits_ne (w : BitVec 2) : w ≠ 3 → widthBits w ≠ 64 := by
  revert w
  decide

section StoreWords

variable {s : State} (cluster : s.cluster = .A) {d a b : BitVec 5} {m n : Bool} {c : BitVec 3} {i : BitVec 13} {h o v : DWord}
include cluster

/-- ST and ST with release do what the plan of their store says (R458). -/
theorem exec_planSt (w : BitVec 2) (ha : s.src a m = .ok h) (hb : s.src b n = .ok o) (hd : s.src d s.femodeDef = .ok v) (scope : c.toNat < 6) :
    exec (.st w d a b m n c) s = .next (s.settle (planStore (widthBits w) false c h v (o.extractLsb' 0 32) s)) ∧
    exec (.stRel w d a b m n c) s = .next (s.settle (planStore (widthBits w) true c h v (o.extractLsb' 0 32) s)) := by
  have checks : firstFail [(badScope c, 0x0C)] = none := by simp [firstFail, badScope_of_lt scope]
  have plan : ∀ rel, planSt w rel d a b m n c s = planStore (widthBits w) rel c h v (o.extractLsb' 0 32) s := fun rel => by
    simp only [planSt, State.srcDef, ha, hb, hd, bind, Except.bind]
  rw [← plan, ← plan]
  exact ⟨runWord_gate (State.gate_A cluster rfl checks rfl rfl), runWord_gate (State.gate_A cluster rfl checks rfl rfl)⟩

/-- The words of STO do what the plan of their store says, plain and at the task's default scope (R458). -/
theorem exec_planSto (i : BitVec 13) (ha : s.src a s.femodeDef = .ok h) (hd : s.src d s.femodeDef = .ok v) :
    let does := fun (i' : Instr) (bits : Nat) =>
      exec i' s = .next (s.settle (planStore bits false s.cur.cr.dscope h v (i.signExtend 32) s))
    does (.stoB d a i) 8 ∧ does (.stoH d a i) 16 ∧ does (.stoW d a i) 32 ∧ does (.sto d a i) 64 := by
  intro does
  have plan : ∀ bits, planSto bits d a i s = planStore bits false s.cur.cr.dscope h v (i.signExtend 32) s := fun bits => by
    simp only [planSto, State.srcDef, ha, hd, bind, Except.bind]
  simp only [does, ← plan]
  exact ⟨runWord_gate (State.gate_A cluster rfl rfl rfl rfl), runWord_gate (State.gate_A cluster rfl rfl rfl rfl),
    runWord_gate (State.gate_A cluster rfl rfl rfl rfl), runWord_gate (State.gate_A cluster rfl rfl rfl rfl)⟩

end StoreWords

/-- A word sees the same objects after a change of its core that leaves the context. -/
theorem State.here_setCur {s : State} {c : Core} (same : c.ctx = s.cur.ctx) : (s.setCur c).here = s.here := by
  rw [State.here, State.here, s.cur_setCur, same]
  rfl

section Rows

variable {s : State} {a b : BitVec 5} {m n : Bool} {c k : BitVec 3} {h v : DWord} {r : ObjRec} {ps : List (List Part)}
  (cluster : s.cluster = .A) (ha : s.src a m = .ok h) (hb : s.src b n = .ok v) (scope : c.toNat < 6)
include cluster ha hb scope

/-- QRD queues a load for each of its rows (R445, R446). -/
theorem execQrd_queues {w : BitVec 2} {q : BitVec 3} {rows : List (List (List Int))} (found : s.lookup s.here (handleOf h) 7 = .ok r)
    (rowsAre : rows = (List.range (k.toNat + 1)).map (rowCoords r.eb (rowBytes w) h v)) (aligned : rows.all r.rowAligned = true)
    (located : s.locateRows r (handleOf h) 7 rows = .ok ps) (unwatched : s.watchIssue false (rowCoord (rows.headD [])) ps.flatten = .ok ())
    (slots : s.cur.slotsFree (ps.filter needsSlot).length = true) (room : s.cur.loadqUsed q.toNat + (k.toNat + 1) ≤ 8) :
    let u := s.cacheUse s.here (handleOf h) ps.flatten
    let t := (rows.zip ps).foldl (fun t x => t.enqueueRow r (handleOf h) q.toNat (rowCoord x.1) x.2 c) u
    execQrd w q a b m n c k s = .next (t.setCur (t.cur.oneWord u.cur.nextId none)).retire := by
  have gate : s.gate (.qrd w q a b m n c k) = .ok () :=
    State.gate_A cluster rfl (by simp [fieldCheck, firstFail, badScope_of_lt scope]) rfl rfl
  subst rowsAre
  refine runWord_done gate ?_
  simp only [ha, hb, found, withCoords, aligned, located, slots, unwatched, Nat.not_lt.mpr room, bind, Except.bind, Bool.not_true, Bool.false_eq_true,
    if_false]

/-- QWR takes its entries from a store queue, and queues a store for each of its rows (R447). -/
theorem execQwr_queues {w e : BitVec 2} {rows : List (List (List Int))} (found : s.lookup s.here (handleOf h) 8 = .ok r) (plain : r.kind ≠ 2)
    (rowsAre : rows = (List.range (k.toNat + 1)).map (rowCoords r.eb (rowBytes w) h v)) (aligned : rows.all r.rowAligned = true)
    (located : s.locateRows r (handleOf h) 8 rows = .ok ps) (unwatched : s.watchIssue true (rowCoord (rows.headD [])) ps.flatten = .ok ())
    (filled : k.toNat + 1 ≤ (s.cur.storeq.get [] e.toNat).length) :
    let es := s.cur.storeq.get [] e.toNat
    let u := (s.setCur { s.cur with storeq := s.cur.storeq.put e.toNat (es.drop (k.toNat + 1)) }).cacheUse s.here (handleOf h) ps.flatten
    let t := ((rows.zip ps).zip es).foldl
      (fun t x => t.enqueue r (handleOf h) 8 (rowCoord x.1.1) (.store x.2.toNat) x.1.2 false false c) u
    execQwr w e a b m n c k s = .next (t.setCur (t.cur.oneWord u.cur.nextId (some (e.toNat, es.take (k.toNat + 1))))).retire := by
  have gate : s.gate (.qwr w e a b m n c k) = .ok () :=
    State.gate_A cluster rfl (by simp [fieldCheck, firstFail, badScope_of_lt scope]) rfl rfl
  subst rowsAre
  refine runWord_done gate ?_
  have here : (s.setCur { s.cur with storeq := s.cur.storeq.put e.toNat ((s.cur.storeq.get [] e.toNat).drop (k.toNat + 1)) }).here = s.here :=
    State.here_setCur rfl
  simp only [here, ha, hb, found, withCoords, aligned, located, unwatched, plain, Nat.not_lt.mpr filled, bind, Except.bind, Bool.not_true, Bool.false_eq_true,
    if_false]

end Rows

/-- MARK enters both queues of cluster A (R421). -/
theorem execMark_enters {s : State} (cluster : s.cluster = .A) : execMark s = .next (s.enqueueMarker .mark 1).retire :=
  runWord_done (State.gate_A cluster rfl rfl rfl rfl) rfl

section Fence

variable {s : State} {e : BitVec 5} {c : BitVec 3} (scope : c.toNat < 6) (nonempty : e ≠ 0)
  (last : e.getLsbD 2 = true ∨ e.getLsbD 3 = true → 2 ≤ c.toNat → 2 ≤ s.cl.stage)
include scope nonempty

theorem State.gate_fence : s.gate (.fence e c) = .ok () :=
  s.gate_ok _ (checkWord_any _ _ rfl (by simp [fieldCheck, firstFail, badScope_of_lt scope]; exact nonempty)) rfl rfl

include last

/-- FENCE enters the queues of a cluster other than M in its last part (R398). -/
theorem execFence_enters (other : s.cluster ≠ .M) : execFence e c s = .next (s.enqueueMarker (.fence e) c).retire := by
  refine runWord_done (State.gate_fence scope nonempty) ?_
  rw [if_neg (fun h => other h.1), State.afterCommit_over (wide_release fun h => last ((Bool.or_eq_true _ _).mp h)), if_neg other]

/-- FENCE passes in cluster M in its last part, once the arrays have performed what it orders (R398). -/
theorem execFence_passes (matrix : s.cluster = .M) (ordered : s.cur.arraysOrdered e = true) : execFence e c s = .next s.retire := by
  refine runWord_done (State.gate_fence scope nonempty) ?_
  rw [if_neg (by simp [ordered]), State.afterCommit_over (wide_release fun h => last ((Bool.or_eq_true _ _).mp h)), if_pos matrix]

end Fence

section Atomics

variable {s : State} {op : AtomOp} {wide ret : Bool} {d a b : BitVec 5} {m n : Bool} {c : BitVec 3} {q : BitVec 2}

theorem checkAtomic_sound (scope : c.toNat < 6) (unused : ret = false → d = 0) : checkAtomic d c ret = none := by
  cases ret with
  | false => simp [checkAtomic, firstFail, badScope_of_lt scope, unused rfl]
  | true => simp [checkAtomic, firstFail, badScope_of_lt scope]

/-- An atomic whose destination is 0 where nothing returns, but in ACAS, passes the gate of cluster A and does what its plan says (R370 to R374). -/
theorem exec_atomicWord {word : BitVec 5 → BitVec 5 → BitVec 5 → Bool → Bool → BitVec 3 → BitVec 2 → Bool → Instr}
    (atomic : (word, op, wide) ∈
      [(Instr.aaddW, AtomOp.add, false), (.aadd, .add, true), (.afadd, .fadd, false), (.aandW, .and, false), (.aand, .and, true),
       (.aorW, .or, false), (.aor, .or, true), (.axorW, .xor, false), (.axor, .xor, true), (.aminW, .min, false), (.amin, .min, true),
       (.aminuW, .minu, false), (.aminu, .minu, true), (.amaxW, .max, false), (.amax, .max, true), (.amaxuW, .maxu, false),
       (.amaxu, .maxu, true), (.axchgW, .xchg, false), (.axchg, .xchg, true), (.acasW, .cas, false), (.acas, .cas, true)])
    (cluster : s.cluster = .A) (scope : c.toNat < 6) (unused : ret = false → op ≠ .cas → d = 0) :
    exec (word d a b m n c q ret) s = .next (s.settle (planAtomic op wide d a b m n c q ret s)) := by
  have swap : firstFail [(badScope c, 0x0C)] = none := by simp [firstFail, badScope_of_lt scope]
  have other : op ≠ .cas → checkAtomic d c ret = none := fun h => checkAtomic_sound scope fun r => unused r h
  simp only [List.mem_cons, Prod.mk.injEq, List.not_mem_nil, or_false] at atomic
  rcases atomic with ⟨rfl, rfl, rfl⟩ | ⟨rfl, rfl, rfl⟩ | ⟨rfl, rfl, rfl⟩ | ⟨rfl, rfl, rfl⟩ | ⟨rfl, rfl, rfl⟩ | ⟨rfl, rfl, rfl⟩ | ⟨rfl, rfl, rfl⟩ |
    ⟨rfl, rfl, rfl⟩ | ⟨rfl, rfl, rfl⟩ | ⟨rfl, rfl, rfl⟩ | ⟨rfl, rfl, rfl⟩ | ⟨rfl, rfl, rfl⟩ | ⟨rfl, rfl, rfl⟩ | ⟨rfl, rfl, rfl⟩ | ⟨rfl, rfl, rfl⟩ |
    ⟨rfl, rfl, rfl⟩ | ⟨rfl, rfl, rfl⟩ | ⟨rfl, rfl, rfl⟩ | ⟨rfl, rfl, rfl⟩ | ⟨rfl, rfl, rfl⟩ | ⟨rfl, rfl, rfl⟩
  case inr.inr.inr.inr.inr.inr.inr.inr.inr.inr.inr.inr.inr.inr.inr.inr.inr.inr.inr.inl => exact runWord_gate (State.gate_A cluster rfl swap rfl rfl)
  case inr.inr.inr.inr.inr.inr.inr.inr.inr.inr.inr.inr.inr.inr.inr.inr.inr.inr.inr.inr => exact runWord_gate (State.gate_A cluster rfl swap rfl rfl)
  all_goals exact runWord_gate (State.gate_A cluster rfl (other (by decide)) rfl rfl)

/-- What an atomic that translates queues in its last part (R372). -/
theorem planAtomic_queues {h v cmp : DWord} {r : ObjRec} {p : Part} {ps : List Part} (ha : s.src a m = .ok h) (hb : s.src b n = .ok v)
    (hd : s.src d s.femodeDef = .ok cmp) (free : s.destFree d = .ok ()) (found : s.lookup s.here (handleOf h) 2 = .ok r) (words : r.eb = 32)
    (first : s.locate s.here r (handleOf h) 2 (r.linear (indexOf h)) false = .ok p)
    (second : s.locateAll s.here r (handleOf h) 2 (if wide then [r.linear (indexOf h + 1)] else []) = .ok ps)
    (aligned : pairAligned (p :: ps) = true) (slot : s.cur.slotsFree 1 = true)
    (unwatched : s.watchIssue true (r.linear (indexOf h)) (p :: ps) = .ok ()) (last : q.getLsbD 1 = true → 2 ≤ c.toNat → 2 ≤ s.cl.stage) :
    let t := (if ret then s.produce d false none else s).cacheUse s.here (handleOf h) (p :: ps)
    let u := t.enqueue r (handleOf h) 2 (r.linear (indexOf h))
      (.atomic op wide v (if op = .cas then cmp else 0) (if ret then some d else none) (signedOld op && !wide)) (p :: ps)
      (q.getLsbD 0) (q.getLsbD 1) c
    planAtomic op wide d a b m n c q ret s = .ok (u.setCur (u.cur.takeSlot t.cur.nextId 0)).retire := by
  intro t u
  have compared : (if op = .cas then s.srcDef d else .ok 0) = .ok (if op = .cas then cmp else 0) := by
    rw [State.srcDef, hd]
    split <;> rfl
  simp only [planAtomic, ha, hb, State.lookupAt_found found, first, words, second, aligned, compared, free, ite_self, slot, unwatched, bind, Except.bind,
    ne_eq, not_true_eq_false, if_false, Bool.not_true, Bool.false_eq_true]
  exact State.afterCommit_over (wide_release last) _

end Atomics

end Sys2Proof.Machine
end

section
namespace Sys2Proof.Machine

/-- Settles O9: LD and LDO differ in where the handle, the index and the scope come from. -/
theorem loadWordsComplete : Obligations.LoadWordsComplete := by
  intro s d a b m n x c w i h o g r ps off bits base cluster ha hb hg free width access queued
  obtain ⟨found, aligned, located, unwatched⟩ := access
  have queues : ∀ (signed acq : Bool) (scope : BitVec 3),
      s.settle (planLoad bits signed acq scope d base off s) = _ := fun signed acq scope =>
    congrArg s.settle (planLoad_queues (signed := signed) (acq := acq) (scope := scope) found aligned free located unwatched)
  refine ⟨?ld, ?ldo⟩
  case ld =>
    rintro rfl rfl scope plain
    have checks := fieldCheck_ld d a b m n plain scope
    have plan : ∀ acq, planLd w acq d a b m n c x s = planLoad bits x acq c d base (o.extractLsb' 0 32) s := fun acq => by
      simp only [planLd, ha, hb, width, widthBits, bind, Except.bind]
    refine ⟨(runWord_gate (State.gate_A cluster rfl checks rfl rfl)).trans ?_, (runWord_gate (State.gate_A cluster rfl checks rfl rfl)).trans ?_⟩
    · rw [plan, queues]; rfl
    · rw [plan, queues]; rfl
  case ldo =>
    rintro rfl rfl
    have plan : ∀ signed, planLdo w signed d a i s = planLoad bits signed false s.cur.cr.dscope d base (i.signExtend 32) s := fun signed => by
      simp only [planLdo, State.srcDef, hg, width, widthBits, bind, Except.bind]
    refine ⟨(runWord_gate (State.gate_A cluster rfl rfl rfl rfl)).trans ?_, (runWord_gate (State.gate_A cluster rfl rfl rfl rfl)).trans ?_⟩
    · rw [plan, queues]; rfl
    · rw [plan, queues]; rfl

/-- Settles O10: ST and STO differ in where the handle, the index and the scope come from. -/
theorem storeWordsComplete : Obligations.StoreWordsComplete := by
  intro s d a b m n c w i h o g v r ps off bits base cluster ha hb hg hd access queued
  obtain ⟨found, plain, aligned, located, unwatched⟩ := access
  have queues : ∀ (rel : Bool) (scope : BitVec 3), (rel = true → 2 ≤ scope.toNat → 2 ≤ s.cl.stage) →
      .next (s.settle (planStore bits rel scope base v off s)) = queued rel scope := fun rel scope last => by
    rw [planStore_queues found plain aligned located unwatched last]; rfl
  refine ⟨?st, ?sto⟩
  case st =>
    rintro rfl rfl rfl scope
    obtain ⟨st, stRel⟩ := exec_planSt cluster w ha hb hd scope
    exact ⟨st.trans (queues false c nofun), fun last => stRel.trans (queues true c fun _ => last)⟩
  case sto =>
    rintro rfl rfl
    obtain ⟨byte, half, word, double⟩ := exec_planSto cluster i hg hd
    have stored := queues false s.cur.cr.dscope nofun
    refine ⟨?_, ?_, ?_, ?_⟩
    · rintro rfl; exact byte.trans stored
    · rintro rfl; exact half.trans stored
    · rintro rfl; exact word.trans stored
    · rintro rfl; exact double.trans stored

/-- Settles O11: a doorbell takes 64 bits at a multiple of 8. -/
theorem doorbellStoresNotify : Obligations.DoorbellStoresNotify := by
  intro s d a b m n c w i h o g v base off r cluster ha hb hg hd found doorbell x trap notify
  have notifies : ∀ (rel : Bool) (scope : BitVec 3), x % 8 = 0 → (rel = true → 2 ≤ scope.toNat → 2 ≤ s.cl.stage) →
      .next (s.settle (planStore 64 rel scope base v off s)) = notify rel scope := fun rel scope aligned last => by
    rw [planStore_notifies found doorbell aligned last]; rfl
  have traps : ∀ (bits : Nat) (rel : Bool) (scope : BitVec 3), bits ≠ 64 ∨ x % 8 ≠ 0 →
      .next (s.settle (planStore bits rel scope base v off s)) = trap := fun bits rel scope odd => by
    rw [planStore_hperm found doorbell odd, s.settle_trap (show (0x14 : Nat) ≠ 0x1A by decide)]; rfl
  refine ⟨?st, ?sto⟩
  case st =>
    rintro rfl rfl scope
    obtain ⟨st, stRel⟩ := exec_planSt cluster w ha hb hd scope
    refine ⟨?notifies, fun odd => ?traps⟩
    case notifies =>
      rintro rfl aligned
      exact ⟨st.trans (notifies false c aligned nofun), fun last => stRel.trans (notifies true c aligned fun _ => last)⟩
    case traps =>
      have width : widthBits w ≠ 64 ∨ x % 8 ≠ 0 := odd.imp_left (widthBits_ne w)
      exact ⟨st.trans (traps _ false c width), stRel.trans (traps _ true c width)⟩
  case sto =>
    rintro rfl rfl
    obtain ⟨byte, half, word, double⟩ := exec_planSto cluster i hg hd
    exact ⟨fun aligned => double.trans (notifies _ _ aligned nofun), fun odd => double.trans (traps _ _ _ (.inr odd)),
      byte.trans (traps _ _ _ (.inl (by decide))), half.trans (traps _ _ _ (.inl (by decide))), word.trans (traps _ _ _ (.inl (by decide)))⟩

/-- Settles O13: a row is one access of its queue. -/
theorem rowWordsComplete : Obligations.RowWordsComplete := by
  intro s w q e a b m n c k h v r ps acc cluster ha hb scope found rows aligned located unwatched
  refine ⟨?qrd, ?qwr⟩
  case qrd =>
    rintro rfl slots room
    exact execQrd_queues cluster ha hb scope found rfl aligned located unwatched slots room
  case qwr =>
    rintro rfl plain filled
    exact execQwr_queues cluster ha hb scope found plain rfl aligned located unwatched filled

/-- Settles O14. -/
theorem orderingWordsComplete : Obligations.OrderingWordsComplete := fun _ _ _ =>
  ⟨execMark_enters, fun scope nonempty last => ⟨execFence_enters scope nonempty last, execFence_passes scope nonempty last⟩⟩

/-- Settles O12: ACAS alone reads its destination as an operand. -/
theorem atomicWordsComplete : Obligations.AtomicWordsComplete := by
  intro s d a b m n ret c q h v cmp r p ps op wide word atomic cluster ha hb hd free scope unused found words first second aligned slot unwatched last t u
  rw [exec_atomicWord atomic cluster scope unused, planAtomic_queues ha hb hd free found words first second aligned slot unwatched last]
  rfl

end Sys2Proof.Machine
end

section
/-!
PROOFS. The barrier words (R378 to R383), HINFO and PUB (R408, R409, R442).
-/

namespace Sys2Proof.Machine

theorem State.commitPoint_past {s : State} (past : 2 ≤ s.cl.stage) (goOn : State → Except Hold State) : s.commitPoint goOn = goOn s := by
  rw [State.commitPoint, if_neg (by omega), if_neg (by omega)]

section Barriers

variable {s : State} {a : BitVec 5} {i : BitVec 4} {x : DWord} (cluster : s.cluster = .C)
include cluster

/-- BSET of a count from 1 to 65,535 sets the barrier (R380). -/
theorem execBset_sets {c : BitVec 3} (hx : s.srcDef a = .ok x) (scope : c.toNat < 6) (small : x.toNat < 65536) (positive : x ≠ 0) :
    execBset c a i s = .next (s.setCur (s.cur.setBarrier i ((s.cur.barrier i).set c (x.extractLsb' 0 16)))).retire := by
  have low : (x.extractLsb' 0 16).toNat = x.toNat := by rw [toNat_extractLsb'_zero, Nat.mod_eq_of_lt (by omega)]
  have high : (x.extractLsb' 16 48).toNat = 0 := by
    rw [BitVec.extractLsb'_toNat, Nat.shiftRight_eq_div_pow, Nat.div_eq_of_lt small, Nat.zero_mod]
  have count : ¬(x.extractLsb' 0 16 = 0 ∨ x.extractLsb' 16 48 ≠ 0) := by bv_omega
  refine runWord_done (State.gate_C cluster rfl (by simp [fieldCheck, firstFail, badScope_of_lt scope]) rfl rfl) ?_
  simp only [hx, bind, Except.bind, if_neg count]

/-- The arrival of the core's own task, in its last part, once its cluster's accesses are performed (R380). -/
theorem State.ownArrival_counts {r : BitVec 32} (goOn : State → Except Hold State) (counts : (s.cur.barrier i).exp ≠ 0)
    (last : 2 ≤ (s.cur.barrier i).scope.toNat → 2 ≤ s.cl.stage) (performed : s.cur.hasAccesses .C = false) :
    s.ownArrival i r goOn = goOn ((s.setCur (s.cur.setBarrier i
      ((s.cur.barrier i).arrive r (BitVec.ofNat 9 (agentId s.core s.cluster)) (s.vectorOf (agentId s.core s.cluster))).1)).released
        (agentId s.core s.cluster)) := by
  rw [State.ownArrival, if_neg counts, State.afterCommit_over fun h => last (of_decide_eq_true h), cluster, performed]
  rfl

omit cluster in
/-- The wait for a barrier whose round is complete is over, and acquires (R203, R380). -/
theorem State.awaitBarrier_over {t : BitVec 32} (counts : (s.cur.barrier i).exp ≠ 0) (complete : ((s.cur.barrier i).compl - t).toNat < 2 ^ 31) :
    s.awaitBarrier i t = .ok (s.joinInto (agentId s.core s.cluster) (s.cur.barrier i).joined).retire := by
  rw [State.awaitBarrier, if_neg counts, if_pos complete]

/-- BSTAT reads a word of the barrier (R381). -/
theorem execBstat_reads {d : BitVec 5} (w : Bool) (dest : s.aluDest d = .ok ()) :
    execBstat d w i s = .next ((s.putScal d ((s.cur.barrier i).word w)).retire) := by
  refine runWord_done (State.gate_C cluster rfl rfl rfl rfl) ?_
  simp only [dest, bind, Except.bind]

section Rounds

variable (hx : s.srcDef a = .ok x) (counts : (s.cur.barrier i).exp ≠ 0)
include hx counts

/-- BARV arrives once (R380). -/
theorem execBarv_arrives (last : 2 ≤ (s.cur.barrier i).scope.toNat → 2 ≤ s.cl.stage) (performed : s.cur.hasAccesses .C = false) :
    execBarv a i s = .next ((s.setCur (s.cur.setBarrier i ((s.cur.barrier i).arrive (x.extractLsb' 0 32) (BitVec.ofNat 9 (agentId s.core s.cluster))
      (s.vectorOf (agentId s.core s.cluster))).1)).released (agentId s.core s.cluster)).retire := by
  refine runWord_done (State.gate_C cluster rfl rfl rfl rfl) ?_
  simp only [hx, bind, Except.bind, State.ownArrival_counts cluster _ counts last performed]

/-- BSYNC arrives once, and goes on with its wait (R380). -/
theorem execBsync_arrives (last : 2 ≤ (s.cur.barrier i).scope.toNat → 2 ≤ s.cl.stage) (performed : s.cur.hasAccesses .C = false)
    (first : s.cl.stage ≠ 5) :
    execBsync a i s = .next (((s.setCur (s.cur.setBarrier i ((s.cur.barrier i).arrive (x.extractLsb' 0 32) (BitVec.ofNat 9 (agentId s.core s.cluster))
      (s.vectorOf (agentId s.core s.cluster))).1)).released (agentId s.core s.cluster)).atStage 5) := by
  refine runWord_done (State.gate_C cluster rfl rfl rfl rfl) ?_
  simp only [hx, bind, Except.bind, if_neg first, State.ownArrival_counts cluster _ counts last performed]

/-- BWAIT passes a barrier that has completed its round (R380). -/
theorem execBwait_passes (complete : ((s.cur.barrier i).compl - x.extractLsb' 0 32).toNat < 2 ^ 31) :
    execBwait a i s = .next (s.joinInto (agentId s.core s.cluster) (s.cur.barrier i).joined).retire := by
  refine runWord_done (State.gate_C cluster rfl rfl rfl rfl) ?_
  simp only [hx, bind, Except.bind, State.awaitBarrier_over counts complete]

/-- The wait of BSYNC passes a barrier that has completed its round (R380). -/
theorem execBsync_passes (complete : ((s.cur.barrier i).compl - (x.extractLsb' 0 32 + 1)).toNat < 2 ^ 31) (second : s.cl.stage = 5) :
    execBsync a i s = .next (s.joinInto (agentId s.core s.cluster) (s.cur.barrier i).joined).retire := by
  refine runWord_done (State.gate_C cluster rfl rfl rfl rfl) ?_
  simp only [hx, bind, Except.bind, if_pos second, State.awaitBarrier_over counts complete]

end Rounds

section Traps

variable (uncounted : (s.cur.barrier i).exp = 0) (hx : s.srcDef a = .ok x)
include uncounted hx

theorem execBarv_taskseq : execBarv a i s = .next (s.stopPrecise .trap false ⟨0x04, 0, 0, [], 0⟩) := by
  refine runWord_trapOf (State.gate_C cluster rfl rfl rfl rfl) ?_ (by decide)
  simp only [hx, bind, Except.bind, State.ownArrival, if_pos uncounted]

theorem execBwait_taskseq : execBwait a i s = .next (s.stopPrecise .trap false ⟨0x04, 0, 0, [], 0⟩) := by
  refine runWord_trapOf (State.gate_C cluster rfl rfl rfl rfl) ?_ (by decide)
  simp only [hx, bind, Except.bind, State.awaitBarrier, if_pos uncounted]

end Traps

end Barriers

/-- BRARV queues a remote arrival in its last part (R382). -/
theorem execBrarv_queues {s : State} {a b : BitVec 5} {m n : Bool} {c : BitVec 3} {t r : DWord} (cluster : s.cluster = .A) (ha : s.src a m = .ok t)
    (hb : s.src b n = .ok r) (scope : c.toNat < 6) (sound : targetReserved t = false) (last : 2 ≤ c.toNat → 2 ≤ s.cl.stage) :
    let node : BitVec 11 := t.extractLsb' 16 11
    let away := if node = 0x7FF ∨ node = s.node then none else some node
    execBrarv a b m n c s = .next (s.enqueue .scratchpad 0 0 []
      (.arrive (t.extractLsb' 8 6).toNat (t.extractLsb' 0 4) (r.extractLsb' 0 32) (t.extractLsb' 32 32) away) [] false true c).retire := by
  refine runWord_done (State.gate_A cluster rfl (by simp [fieldCheck, firstFail, badScope_of_lt scope]) rfl rfl) ?_
  simp only [ha, hb, sound, bind, Except.bind, Bool.false_eq_true, if_false]
  exact State.afterCommit_over (fun h => last (of_decide_eq_true h)) _

section Objects

variable {s : State} {d a b : BitVec 5} {m n : Bool} {i : BitVec 6} {h ru : DWord} {r : ObjRec} (cluster : s.cluster = .A) (ha : s.src a m = .ok h)
  (dest : s.aluDest d = .ok ())
include cluster ha dest

/-- HINFO of an item other than the state of a residency unit reads one source (R408, R409). -/
theorem execHinfo_item (item : i.toNat < 0x11)
    (found : (if i = 0 then s.findRecord s.here (handleOf h) 0 else s.freshRecord s.here (handleOf h) 0) = .ok r) :
    execHinfo d a 0 m false i s =
      .next ((s.produce d false (some (s.hinfoValue s.here (handleOf h) r i.toNat 0))).cacheUse s.here (handleOf h) []).retire := by
  have other : i ≠ 0x11 := fun e => absurd item (by rw [e]; decide)
  refine runWord_done (State.gate_A cluster rfl (by simp [fieldCheck, firstFail]; omega) rfl rfl) ?_
  rw [handleOf] at found ⊢
  by_cases handle : i = 0
  · rw [if_pos handle] at found
    simp only [ha, found, dest, bind, Except.bind, if_neg other, if_pos handle]
    rfl
  · rw [if_neg handle] at found
    simp only [ha, found, dest, bind, Except.bind, if_neg other, if_neg handle]
    rfl

/-- HINFO of item 0x11 reads the number of a residency unit (R408, R409). -/
theorem execHinfo_unit (hb : s.src b n = .ok ru) (found : s.freshRecord s.here (handleOf h) 0 = .ok r) :
    execHinfo d a b m n 0x11 s = .next ((s.produce d false (some (s.ruState s.here r ru.toNat))).cacheUse s.here (handleOf h) []).retire := by
  refine runWord_done (State.gate_A cluster rfl rfl rfl rfl) ?_
  rw [handleOf] at found ⊢
  simp only [ha, hb, found, dest, bind, Except.bind, if_true]
  rfl

/-- PUB, after its commit, exchanges the frames of a shadowed data object of which nothing is being moved (R160, R442). -/
theorem execPub_exchanges (found : s.lookup s.here (handleOf h) 1 = .ok r) (shadowed : r.sh = true) (data : r.kind = 0) (last : 2 ≤ s.cl.stage)
    (performed : s.cur.hasAccesses .A = false) {now : ObjRec}
    (home : now = ObjRec.ofBits (BitVec.ofNat 512 (s.homeRead (recordAddr s.here.root (handleIndex (handleOf h))) 64)))
    (still : s.someMoving s.here now = false) (current : now.gen = handleGen (handleOf h)) :
    execPub d a m s = .next (((s.exchange s.here (recordAddr s.here.root (handleIndex (handleOf h)))).putScal d
      (h.extractLsb' 44 20 ++ BitVec.ofNat 12 (now.gen + 1) ++ h.extractLsb' 0 32)).released (agentId s.core .A)).retire := by
  subst home
  refine runWord_done (State.gate_A cluster rfl rfl rfl rfl) ?_
  rw [handleOf] at found still current ⊢
  simp only [ha, found, shadowed, data, dest, bind, Except.bind, Bool.not_true, Bool.false_eq_true, ne_eq, not_true_eq_false, or_self, if_false]
  rw [State.commitPoint_past last, planExchange]
  simp only [cluster, performed, still, current, Bool.false_eq_true, or_self, if_false, ne_eq, not_true_eq_false]

end Objects

end Sys2Proof.Machine
end

section
namespace Sys2Proof.Machine

/-- Settles O17: an arrival is BARV's and the first half of BSYNC's, a wait BWAIT's and the second half of BSYNC's. -/
theorem barrierWordsComplete : Obligations.BarrierWordsComplete := by
  intro s d a b m n w c i x y z hx hy hz bar round me arrived acquired
  refine ⟨fun cluster => ⟨execBset_sets cluster hx, ?arrives, execBwait_passes cluster hx, execBsync_passes cluster hx, execBstat_reads cluster w,
    ?traps⟩, ?remote⟩
  case arrives =>
    exact fun counts last performed => ⟨execBarv_arrives cluster hx counts last performed, execBsync_arrives cluster hx counts last performed⟩
  case traps => exact fun uncounted => ⟨execBarv_taskseq cluster uncounted hx, execBwait_taskseq cluster uncounted hx⟩
  case remote => exact fun cluster scope sound last => execBrarv_queues cluster hy hz scope sound last

/-- Settles O15: item 0x11 of HINFO asks for a unit, the others do not; PUB exchanges once its commit is over. -/
theorem objectWordsComplete : Obligations.ObjectWordsComplete := by
  intro s d a b m n i h ru r cluster ha hb dest v hd
  refine ⟨execHinfo_item cluster ha dest, execHinfo_unit cluster ha dest hb, ?pub⟩
  case pub =>
    intro found shadowed data last performed address now still same
    exact execPub_exchanges cluster ha dest found shadowed data last performed rfl still same

end Sys2Proof.Machine
end

section
/-!
PROOFS. A WAITA whose chunks have all arrived gives up what its cluster has asked other nodes for (R154, R474).
-/

namespace Sys2Proof.Machine

section

variable {s : State} {d a b : BitVec 5} {m n : Bool} {h v e : DWord} {amap : BitVec 32} {gs : List Nat} {ps : List Part}

/-- The state in which a word that asks for elements of this device alone goes on: what its cluster has asked other nodes for is given up (R154). -/
def State.askedNothing (s : State) : State := s.dropAsks s.core (askWord s.cluster)

/-- Chunks of this device that have all arrived are found at once. -/
theorem State.lookForChunks_arrived (parts : s.mapParts s.here amap gs = .ok ps) (own : (ps.filterMap Part.group).eraseDups = [])
    (arrived : (gs.zip ps).find?
      (fun g => s.askedNothing.partValue (s.askedNothing.coreAt s.core) false g.2 / 2 ^ (g.1 % 8) % 2 = 0) = none) :
    s.lookForChunks s.core (askWord s.cluster) s.here amap gs = .ok (s.askedNothing.cacheUse s.here amap ps) none := by
  rw [State.askedNothing] at arrived ⊢
  simp only [State.lookForChunks, parts, State.fetchRemote, State.peekRemote, own, List.isEmpty_nil, if_true, arrived, Option.map_none]

/-- A WAITA that finds its chunks arrived completes in a state without what its cluster has asked for (R474). -/
theorem execWaita_arrived (cluster : s.cluster = .A) (ha : s.src a m = .ok h) (hb : s.src b n = .ok v) (hd : s.src d s.femodeDef = .ok e)
    (first : s.cl.found = []) (chunks : s.waitaChunks h v e = .ok (amap, gs)) (parts : s.mapParts s.here amap gs = .ok ps)
    (own : (ps.filterMap Part.group).eraseDups = [])
    (arrived : (gs.zip ps).find?
      (fun g => s.askedNothing.partValue (s.askedNothing.coreAt s.core) false g.2 / 2 ^ (g.1 % 8) % 2 = 0) = none) :
    let t := s.askedNothing.cacheUse s.here amap ps
    execWaita d a b m n s = .next ((t.setCl { t.cl with waitObj := chunkWord h (t.lastChunk h gs) }).joinMap (agentId t.core t.cluster)).retire := by
  intro t
  refine runWord_done (State.gate_A cluster rfl rfl rfl rfl) ?_
  simp only [ha, hb, State.srcDef, hd, State.waitaFound, first, chunks, State.lookForChunks_arrived parts own arrived, bind, Except.bind]
  rfl

end

/-- A task of core 0 at a WAITA on the scratchpad object 1, whose map, object 2, has the bit of its one chunk set; its cluster has a request out to
another node. -/
def askingWait : State :=
  let object := packFields [(0x80, 37), (0, 37), (64, 20), (1, 20), (1, 20), (1, 20), (0, 124), (8, 4), (6, 16), (0, 10), (15, 4), (0, 66), (0xFFF02000, 32),
    (0, 69), (1, 1)]
  let map := packFields [(0xC0, 37), (0, 37), (68, 20), (1, 20), (1, 20), (1, 20), (0, 124), (8, 4), (0, 26), (15, 4), (0, 167), (1, 1)]
  let core : Core :=
    { Core.start with
      busy := true
      scal := ⟨[(1, ⟨[⟨0, .A, 0xFFF0100000000000, true⟩], none⟩), (2, ⟨[⟨0, .A, 0x0000000100010040, true⟩], none⟩)]⟩
      scratch := ((Memory.write .empty 0x3FC040 64 object).write 0x3FC080 64 map).write 0x3000 1 1
      remoteReads := [⟨0, askWord .A, 0x1000, 1, 0, 8, true, none, none⟩] }
  { State.reset with cluster := .A, dcc := 10, cores := ⟨[(0, core)]⟩ }

/-- The byte of the map that holds the chunk's bit. -/
def askingParts : List Part := [⟨.scratch 0x3000, 0, 0, 8, none⟩]

/-- What the word reads, and that its chunk has arrived. -/
theorem askingWait_finds :
    askingWait.src 1 false = .ok 0xFFF0100000000000 ∧ askingWait.src 0 false = .ok 0 ∧ askingWait.src 2 askingWait.femodeDef = .ok 0x0000000100010040 ∧
    askingWait.aluDest 2 = .ok () ∧ askingWait.waitaChunks 0xFFF0100000000000 0 0x0000000100010040 = .ok (0xFFF02000, [0]) ∧
    askingWait.mapParts askingWait.here 0xFFF02000 [0] = .ok askingParts ∧
    (∀ g ∈ [0].zip askingParts, askingWait.partValue askingWait.cur false g.2 / 2 ^ (g.1 % 8) % 2 = 1) ∧
    ([0].zip askingParts).find? (fun g => askingWait.askedNothing.partValue (askingWait.askedNothing.coreAt askingWait.core) false g.2 / 2 ^ (g.1 % 8) % 2 = 0)
      = none := by decide +kernel

/-- The state after the word, by what the translations used leave. -/
def afterWait (t : State) : State :=
  ((t.setCl { t.cl with waitObj := chunkWord 0xFFF0100000000000 (t.lastChunk 0xFFF0100000000000 [0]) }).joinMap (agentId 0 .A)).retire

/-- The request is given up before the translations are used; without that it would still be out. -/
theorem afterWait_asks :
    (afterWait (askingWait.askedNothing.cacheUse askingWait.here 0xFFF02000 askingParts)).cur.remoteReads = [] ∧
    (afterWait (askingWait.cacheUse askingWait.here 0xFFF02000 askingParts)).cur.remoteReads ≠ [] := by decide +kernel

/-- The word completes without the request. -/
theorem exec_waita_askingWait :
    exec (.waita 2 1 0 false false) askingWait = .next (afterWait (askingWait.askedNothing.cacheUse askingWait.here 0xFFF02000 askingParts)) := by
  obtain ⟨handle, start, extent, -, chunks, parts, -, arrived⟩ := askingWait_finds
  exact (exec_waita ..).trans (execWaita_arrived rfl handle start extent rfl chunks parts rfl arrived)

end Sys2Proof.Machine
end

section
namespace Sys2Proof.Machine

/-- Refutes O8: a WAITA that finds its chunks arrived gives up what its cluster has asked other nodes for (R154), and the statement's state keeps it. In
`askingWait` such a request is out: the state after the word has none, the statement's has one. -/
theorem not_engineWaitWordsComplete : ¬ Obligations.EngineWaitWordsComplete := by
  intro complete
  obtain ⟨handle, start, extent, dest, chunks, parts, arrived, -⟩ := askingWait_finds
  obtain ⟨-, -, -, -, -, waita⟩ := complete askingWait 2 1 0 false false _ _ rfl handle start dest
  have kept := waita _ _ _ _ extent rfl chunks parts (by decide) arrived
  rw [exec_waita_askingWait] at kept
  obtain ⟨gone, stays⟩ := afterWait_asks
  have same := Host.Outcome.next.inj kept
  exact stays ((congrArg (fun t => t.cur.remoteReads) same).symm.trans gone)

end Sys2Proof.Machine
end

section
/-!
PROOFS. The words of cluster V (R464 to R473), and the setting steps of an array (R424 to R434).
-/

namespace Sys2Proof.Machine

/-- A word of cluster V that a loop end and DXW allow passes the gate there when its fields are sound. -/
theorem State.gate_V {s : State} {i : Instr} (c : s.cluster = .V) (h : opAllowed (opOf i) .V = true) (f : fieldCheck i = none)
    (e : endForbidden i = false) (e' : dxwForbidden i = false) : s.gate i = .ok () :=
  s.gate_ok i (by rw [c]; exact checkWord_allowed h f) e e'

section Rows

variable {s : State} {op : Byte} {d a second x : BitVec 5} {sub : BitVec 3}

/-- A VR word whose fields are sound passes the gate of cluster V and does what the plan of its OP says (R464 to R471). -/
theorem exec_vectorWord {i : Instr} {b : BitVec 5} {c p : BitVec 3} {f : BitVec 4} {r t : Bool} {u : BitVec 3} {o : BitVec 5}
    (hu : u = BitVec.ofNat 3 r.toNat) (ho : o = BitVec.ofNat 5 (2 * t.toNat + r.toNat))
    (vector : (i, op, second, sub) ∈
      [(Instr.vadd d a b r x, 0x80, b, u), (.vsub d a b r x, 0x81, b, u), (.vmul d a b r x, 0x82, b, u), (.vfma d a b r x, 0x83, b, u),
       (.vfms d a b r x, 0x84, b, u), (.vfnma d a b r x, 0x85, b, u), (.vadds d a b r x, 0x86, b, u), (.vsubs d a b r x, 0x87, b, u),
       (.vmuls d a b r x, 0x88, b, u), (.vdiv d a b r x, 0x89, b, u), (.vabs d a r x, 0x8A, 28, u), (.vneg d a r x, 0x8B, 28, u),
       (.vmin d a b r x, 0x8C, b, u), (.vmax d a b r x, 0x8D, b, u), (.vclamp d a b r x, 0x8E, b, u), (.vrint d a r x, 0x8F, 28, u),
       (.vexp d a x, 0x9A, 28, 0), (.vexp2 d a x, 0x9B, 28, 0), (.vlog d a x, 0x9C, 28, 0), (.vlog2 d a x, 0x9D, 28, 0),
       (.vrcp d a x, 0x9E, 28, 0), (.vrsqrt d a x, 0x9F, 28, 0), (.vsqrt d a x, 0xA0, 28, 0), (.vtanh d a x, 0xA1, 28, 0),
       (.vsigm d a x, 0xA2, 28, 0), (.vsin d a x, 0xA3, 28, 0), (.vcos d a x, 0xA4, 28, 0), (.vcmp d a b c x, 0xA5, b, c),
       (.vsel d a b x, 0xA6, b, 0), (.vand d a b x, 0xA7, b, 0), (.vor d a b x, 0xA8, b, 0), (.vxor d a b x, 0xA9, b, 0),
       (.vandn d a b x, 0xAA, b, 0), (.vnot d a x, 0xAB, 28, 0), (.vsll d a b x, 0xAC, b, 0), (.vsrl d a b x, 0xAD, b, 0),
       (.vsra d a b x, 0xAE, b, 0), (.vrsum d a x, 0xAF, 28, 0), (.vrsumsq d a x, 0xB0, 28, 0), (.vrmax d a x, 0xB1, 28, 0),
       (.vrmin d a x, 0xB2, 28, 0), (.vramax d a x, 0xB3, 28, 0), (.vscan d a x, 0xB4, 28, 0), (.vscanmax d a x, 0xB5, 28, 0),
       (.vscanseg d a b x, 0xB6, b, 0), (.vperm d a b x, 0xB7, b, 0), (.vrote d a b x, 0xB8, b, 0), (.vbcast d a b x, 0xB9, b, 0),
       (.vmov d a x, 0xBA, 28, 0), (.vpopc d a x, 0xBF, 28, 0), (.vcvt f d a t r p x, (0x9#4 ++ f), o, p), (.vcvtN d a t r p x, 0x99, o, p)])
    (sound : fieldCheck i = none) (cluster : s.cluster = .V) : exec i s = .next (s.settle (planVector op d a second sub x s)) := by
  simp only [List.mem_cons, Prod.mk.injEq, List.not_mem_nil, or_false] at vector
  casesm* _ ∨ _
  all_goals
    obtain ⟨rfl, rfl, rfl, rfl⟩ := vector
    subst hu ho
    exact runWord_gate (State.gate_V cluster rfl sound rfl rfl)

/-- A VR word does its first row step, where the pipeline is empty, its checks pass and its queues allow the step (R105, R464). -/
theorem planVector_starts {shape : Fmt} {w : DWord} (first : s.cl.stage = 0) (free : s.cur.vop = none) (valid : shapeFormat s.cur.shp = .ok shape)
    (scalar : if op = 0x99 ∨ a = 29 ∨ (isConvert op = false ∧ second = 29) then s.src x s.femodeDef = .ok w else w = 0) {v : VecOp}
    (hv : v = { op := op, d := d, a := a, b := second, sub := sub, shape := s.cur.shp, row := 0, scal := w, desc := w.extractLsb' 0 16 })
    (ok : v.shapeOk = .ok ()) (ready : s.cur.rowReady v = true) :
    planVector op d a second sub x s = .ok (if shpCount s.cur.shp = 1 then s.vectorStep v else (s.vectorStep v).underway) := by
  subst hv
  by_cases uses : op = 0x99 ∨ a = 29 ∨ (isConvert op = false ∧ second = 29)
  case pos =>
    rw [if_pos uses] at scalar
    simp only [planVector, first, free, valid, if_pos uses, State.srcDef, scalar, ok, ready, bind, Except.bind, ne_eq, not_true_eq_false,
      Option.isSome_none, Bool.false_eq_true, or_self, if_false, Bool.not_true, apply_ite Except.ok]
  case neg =>
    rw [if_neg uses] at scalar
    subst scalar
    simp only [planVector, first, free, valid, if_neg uses, ok, ready, bind, Except.bind, ne_eq, not_true_eq_false,
      Option.isSome_none, Bool.false_eq_true, or_self, if_false, Bool.not_true, apply_ite Except.ok]

end Rows

section Elements

variable {s : State} {d a b : BitVec 5} {m n : Bool} {r : BitVec 4} {k v : DWord} (cluster : s.cluster = .V) (free : s.cur.vop = none)
include cluster free

section Shaped

variable {f : Fmt} (valid : shapeFormat s.cur.shp = .ok f) (inside : r.toNat < shpCount s.cur.shp) (hb : s.src b n = .ok k)
include valid inside hb

section Get

variable (dest : s.aluDest d = .ok ())
include dest

omit valid inside hb dest free in
theorem State.gate_vget (source : a.toNat < 24 ∨ a = 28) : s.gate (.vget d a b n r) = .ok () := by
  have readable : (badSource a || decide (a = 29)) = false := by revert a; decide
  exact State.gate_V cluster rfl (by simp only [fieldCheck, readable]; rfl) rfl rfl

/-- VGET reads an element of a tile's row (R472). -/
theorem execVget_tile (tile : a.toNat < 16) : execVget d a b n r s = .next ((s.putScalNext d
    (elementValue f (s.cur.tileRow a.toNat (shpBase s.cur.shp + r.toNat)) (k.toNat % f.perRow))).retire) := by
  refine runWord_done (State.gate_vget cluster (.inl (by omega))) ?_
  simp only [free, valid, rowOffset, hb, dest, bind, Except.bind, Option.isSome_none, Bool.false_eq_true, if_false, if_neg (Nat.not_le.mpr inside),
    if_pos tile]

/-- VGET takes the head of a load queue, and reads an element of it (R472). -/
theorem execVget_queue {head : Row} {rest : List Row} (low : 16 ≤ a.toNat) (high : a.toNat < 24)
    (queue : s.cur.loadq.get [] (a.toNat - 16) = head :: rest) : execVget d a b n r s = .next (((s.setCur (s.cur.takeHeads
      [a.toNat - 16])).putScalNext d (elementValue f head (k.toNat % f.perRow))).retire) := by
  refine runWord_done (State.gate_vget cluster (.inl high)) ?_
  simp only [free, valid, rowOffset, hb, dest, bind, Except.bind, Option.isSome_none, Bool.false_eq_true, if_false, if_neg (Nat.not_le.mpr inside),
    if_neg (Nat.not_lt.mpr low), if_neg (Nat.not_le.mpr high), queue]

/-- VGET from no source reads zero (R108, R472). -/
theorem execVget_zero (zero : a = 28) : execVget d a b n r s = .next ((s.putScalNext d 0).retire) := by
  refine runWord_done (State.gate_vget cluster (.inr zero)) ?_
  subst zero
  simp only [free, valid, rowOffset, hb, dest, bind, Except.bind, Option.isSome_none, Bool.false_eq_true, if_false, if_neg (Nat.not_le.mpr inside)]
  rfl

end Get

/-- VPUT replaces an element of a tile's row (R472). -/
theorem execVput_tile (hd : s.src d s.femodeDef = .ok v) (tile : a.toNat < 16) :
    execVput d a b n r s = .next (s.setCur (s.cur.setTileRow a.toNat (shpBase s.cur.shp + r.toNat)
      (putElement f (s.cur.tileRow a.toNat (shpBase s.cur.shp + r.toNat)) (k.toNat % f.perRow) v))).retire := by
  have writable : notTile a = false := by simpa [notTile] using tile
  refine runWord_done (State.gate_V cluster rfl (by simp only [fieldCheck, writable]; rfl) rfl rfl) ?_
  simp only [free, valid, rowOffset, hb, State.srcDef, hd, bind, Except.bind, Option.isSome_none, Bool.false_eq_true, if_false,
    if_neg (Nat.not_le.mpr inside)]

end Shaped

/-- VSHP sets three fields of SHP (R473). -/
theorem execVshp_sets (g : BitVec 4) (c : BitVec 5) (e : BitVec 4) : execVshp g c e s = .next (s.setShape (shpWith s.cur.shp g c e)).retire := by
  refine runWord_done (State.gate_V cluster rfl rfl rfl rfl) ?_
  simp only [free, Option.isSome_none, Bool.false_eq_true, if_false]

/-- VSHPR sets SHP (R473). -/
theorem execVshpr_sets (ha : s.src a m = .ok v) : execVshpr a m s = .next (s.setShape (v &&& 0xFFFF0000000F1F0F)).retire := by
  refine runWord_done (State.gate_V cluster rfl rfl rfl rfl) ?_
  simp only [free, ha, bind, Except.bind, Option.isSome_none, Bool.false_eq_true, if_false]

end Elements

section Settings

variable {s : State} {y : Bool} {a b : BitVec 5} {u v : DWord} {i : Instr} {f : DWord → DWord → ArrayState → ArrayState}

/-- A setting step whose plan reads two scalars changes its array (R424). -/
theorem runWord_planStep (gate : s.gate i = .ok ()) (ha : s.srcDef a = .ok u) (hb : s.srcDef b = .ok v) :
    runWord i s (planStep y a b f) = .next (s.setArray y (f u v (s.cur.array y))).retire := by
  refine runWord_done gate ?_
  simp only [planStep, ha, hb, bind, Except.bind]

/-- MSETA and MSETB have a queue or a handle, and not both (R431). -/
theorem checkMset_sound {n : BitVec 3} {q : Bool} (one : if q then a = 0 else n = 0) : checkMset a n q = none := by
  cases q with
  | false => simp [checkMset, firstFail, show n = 0 from one]
  | true => simp [checkMset, firstFail, show a = 0 from one]

theorem otherArray_own {c : BitVec 4} (own : c.getLsbD 3 = y) : otherArray y c = false := by
  subst own
  revert c
  decide

end Settings

end Sys2Proof.Machine
end

section
namespace Sys2Proof.Machine

/-- Settles O21: each word is its OP's, and starts as any VR word does. -/
theorem vectorWordsComplete : Obligations.VectorWordsComplete := by
  intro s i op d a b second x sub c p f r t shape w u o vector sound cluster first free valid scalar v ok ready
  rw [exec_vectorWord rfl rfl vector sound cluster, planVector_starts first free valid scalar rfl ok ready]
  rfl

/-- Settles O22. -/
theorem vectorAccessWordsComplete : Obligations.VectorAccessWordsComplete := by
  intro s d a b m n r f k v y g c e head rest cluster free valid inside hb hd ha dest row at_
  exact ⟨execVget_tile cluster free valid inside hb dest, execVget_queue cluster free valid inside hb dest, execVget_zero cluster free valid inside hb dest,
    execVput_tile cluster free valid inside hb hd, execVshp_sets cluster free g c e, execVshpr_sets cluster free ha⟩

/-- Settles O23: the setting steps share their plan, which reads s0 where the word names one source. -/
theorem matrixSettingWordsComplete : Obligations.MatrixSettingWordsComplete := by
  intro s y q w t l r a b n c i u v cluster ha hb x done
  have sets {i : Instr} (allowed : opAllowed (opOf i) .M = true) (sound : fieldCheck i = none) (inner : endForbidden i = false)
      (direct : dxwForbidden i = false) (f : DWord → DWord → ArrayState → ArrayState) :
      runWord i s (planStep y a b f) = done (f u v x) ∧ ∀ z, s.srcDef 0 = .ok z → runWord i s (planStep y a 0 f) = done (f u z x) :=
    have gate := State.gate_M cluster allowed sound inner direct
    ⟨runWord_planStep gate ha hb, fun _ hz => runWord_planStep gate ha hz⟩
  have zero : s.srcDef 0 = .ok 0 := s.src_zero _
  refine ⟨fun one => ⟨?_, ?_⟩, ?_, ?_, ?_, ?_, fun own => ?_, ?_, ?_, ?_, ?_, fun dest => ?_⟩
  · exact (exec_mseta ..).trans (sets (i := .mseta y a b n q w t) rfl (checkMset_sound one) rfl rfl _).1
  · exact (exec_msetb ..).trans (sets (i := .msetb y a b n q w t) rfl (checkMset_sound one) rfl rfl _).1
  · exact (exec_msetac ..).trans (sets rfl rfl rfl rfl _).1
  · exact (exec_minca ..).trans (sets rfl rfl rfl rfl _).1
  · exact (exec_msetbc ..).trans (sets rfl rfl rfl rfl _).1
  · exact (exec_mincb ..).trans (sets rfl rfl rfl rfl _).1
  · exact (exec_msetc ..).trans ((sets rfl (by simp only [fieldCheck, otherArray_own own]; rfl) rfl rfl _).2 0 zero)
  · exact (exec_msetcc ..).trans (sets rfl rfl rfl rfl _).1
  · exact (exec_mincc ..).trans (sets rfl rfl rfl rfl _).1
  · exact (exec_mfmt ..).trans ((sets rfl rfl rfl rfl _).2 0 zero)
  · exact (exec_mstamp ..).trans ((sets rfl rfl rfl rfl _).2 0 zero)
  · refine (exec_mprog ..).trans (runWord_done (State.gate_M cluster rfl rfl rfl rfl) ?_)
    simp only [planSet, dest, bind, Except.bind]
    rfl

end Sys2Proof.Machine
end

section
/-!
PROOFS. What the register, load and branch words of a Sage core leave unchanged (R400 to R403).
-/

namespace Sys2Proof.Machine

/-- What `t` keeps of `s` where a Sage word may change the program counter, the run state and register `d` of its own core. -/
structure State.SageFrame (s t : State) (d : BitVec 4) : Prop where
  device : t = { s with sages := t.sages }
  others : ∀ g, g ≠ s.sage → t.sageAt g = s.sageAt g
  own : t.curSage = { s.curSage with regs := t.curSage.regs, pc := t.curSage.pc, running := t.curSage.running, stopped := t.curSage.stopped }
  regs : ∀ r, r ≠ d → t.g r = s.g r

namespace State.SageFrame

variable {s t u : State} {d : BitVec 4}

theorem refl (s : State) (d : BitVec 4) : s.SageFrame s d := ⟨rfl, fun _ _ => rfl, rfl, fun _ _ => rfl⟩

theorem trans (h : s.SageFrame t d) (h' : t.SageFrame u d) : s.SageFrame u d := by
  have focus : t.sage = s.sage := by rw [h.device]
  refine ⟨?device, fun g other => ?others, ?own, fun r other => (h'.regs r other).trans (h.regs r other)⟩
  case device => rw [h'.device, h.device]
  case others => rw [h'.others g (by rwa [focus]), h.others g other]
  case own => rw [h'.own, h.own]

/-- The focused Sage core replaced by one that differs in no more. -/
theorem setCurSage {x : Sage} (own : x = { s.curSage with regs := x.regs, pc := x.pc, running := x.running, stopped := x.stopped })
    (regs : ∀ r, r ≠ d → x.reg r = s.curSage.reg r) : s.SageFrame (s.setCurSage x) d where
  device := rfl
  others g other := s.sageAt_setSageAt_ne other x
  own := by rw [State.curSage_setCurSage]; exact own
  regs r other := by rw [State.g, State.curSage_setCurSage]; exact regs r other

theorem setG (s : State) (d : BitVec 4) (v : DWord) : s.SageFrame (s.setG d v) d := by
  by_cases zero : d = 0
  · have same : s.curSage.setReg d v = s.curSage := if_pos zero
    rw [State.setG, same]
    exact setCurSage rfl fun _ _ => rfl
  · rw [State.setG, show s.curSage.setReg d v = { s.curSage with regs := s.curSage.regs.put d.toNat v } from if_neg zero]
    refine setCurSage rfl fun r other => ?_
    simp only [Sage.reg, Tab.get_put_ne _ _ (fun e => other (BitVec.eq_of_toNat_eq e))]

theorem advanceSage (s : State) (d : BitVec 4) : s.SageFrame s.advanceSage d := setCurSage rfl fun _ _ => rfl

theorem stopSage (s : State) (d : BitVec 4) : s.SageFrame s.stopSage d := setCurSage rfl fun _ _ => rfl

theorem jumpSage {k : Int} (h : s.jumpSage k = .ok u) : s.SageFrame u d := by
  unfold State.jumpSage at h
  split at h
  · cases h
  · cases h
    exact setCurSage rfl fun _ _ => rfl

/-- A Sage word whose plan stays in the frame stays in it: a wait changes nothing, a stop the run state. -/
theorem runSage {plan : State → Except SageHold State} (run : Machine.runSage s plan = .next t) (plans : ∀ u, plan s = .ok u → s.SageFrame u d) :
    s.SageFrame t d := by
  unfold Machine.runSage at run
  split at run
  · cases run
  · cases run
    split
    case h_1 u done => exact plans u done
    case h_2 => exact refl s d
    case h_3 => exact stopSage s d

theorem sageResult {i : Instr} {v : State → DWord} (word : exec i s = Machine.sageResult d v s) (run : exec i s = .next t) : s.SageFrame t d := by
  rw [word] at run
  refine runSage run fun u done => ?_
  cases done
  exact (setG s d _).trans (advanceSage _ d)

theorem sageBranch {i : Instr} {taken : State → Bool} {o : BitVec 18} (word : exec i s = Machine.sageBranch taken o s) (run : exec i s = .next t) :
    s.SageFrame t d := by
  rw [word] at run
  refine runSage run fun u done => ?_
  split at done
  · exact jumpSage done
  · cases done
    exact advanceSage s d

theorem gjmp {a : BitVec 4} {o : BitVec 18} (run : execGjmp d a o s = .next t) : s.SageFrame t d := by
  refine runSage run fun u done => ?_
  dsimp only at done
  generalize jumped : s.jumpSage _ = j at done
  cases j with
  | error e => cases done
  | ok w =>
    cases done
    exact (jumpSage jumped).trans (setG w d _)

theorem gld {a : BitVec 4} {p : Bool} {w : BitVec 2} {o : BitVec 14} (run : execGld d a p w o s = .next t) : s.SageFrame t d := by
  have loads (v : DWord) : s.SageFrame ((s.setG d v).advanceSage) d := (setG s d v).trans (advanceSage _ d)
  refine runSage run fun u done => ?_
  dsimp only at done
  split_ifs at done
  · cases done
    exact loads _
  · cases done
    exact loads _

/-- A register, load or branch word keeps to its destination (R400 to R403). -/
theorem exec {i : Instr} (word : sageRegisterDest i = some d) (run : Machine.exec i s = .next t) : s.SageFrame t d := by
  unfold sageRegisterDest at word
  split at word
  all_goals cases word
  · exact sageResult (exec_gadd ..) run
  · exact sageResult (exec_gsub ..) run
  · exact sageResult (exec_gmul ..) run
  · exact sageResult (exec_gand ..) run
  · exact sageResult (exec_gor ..) run
  · exact sageResult (exec_gxor ..) run
  · exact sageResult (exec_gsll ..) run
  · exact sageResult (exec_gsrl ..) run
  · exact sageResult (exec_gaddI ..) run
  · exact sageResult (exec_gsubI ..) run
  · exact sageResult (exec_gmulI ..) run
  · exact sageResult (exec_gandI ..) run
  · exact sageResult (exec_gorI ..) run
  · exact sageResult (exec_gxorI ..) run
  · exact sageResult (exec_gsllI ..) run
  · exact sageResult (exec_gsrlI ..) run
  · exact sageResult (exec_gli ..) run
  · exact sageResult (exec_gliK ..) run
  · exact gld run
  · exact sageBranch (exec_gbeq ..) run
  · exact sageBranch (exec_gbne ..) run
  · exact sageBranch (exec_gblt ..) run
  · exact gjmp run

/-- Memory reads the same at every address. -/
theorem homeByte (h : s.SageFrame t d) (a : Nat) : t.homeByte a = s.homeByte a := by
  rw [h.device]
  rfl

end State.SageFrame

end Sys2Proof.Machine
end

section
namespace Sys2Proof.Machine

/-- Settles O59: each word's plan keeps to the frame. -/
theorem sageWordsFrame : Obligations.SageWordsFrame := by
  intro s t i d word run
  have frame := State.SageFrame.exec word run
  exact ⟨frame.device, frame.others, frame.own, frame.regs, rfl, frame.homeByte⟩

end Sys2Proof.Machine
end

section
/-!
PROOFS. A stop that stands stays, and a word that a hold ends either waits, or changes nothing, or has stopped its task (R10, R288 to R291, R312).
-/

namespace Sys2Proof.Machine

/-- Halting a core stops none (R290). -/
theorem Core.HaltsTo.stop {c d : Core} (h : c.HaltsTo d) : d.stop = c.stop := by rw [h.rest]

section Stands

variable (s : State) (m n : Nat)

theorem State.stop_setCoreAt {c : Core} (same : c.stop = (s.coreAt m).stop) : ((s.setCoreAt m c).coreAt n).stop = (s.coreAt n).stop := by
  by_cases e : n = m
  · rw [e, State.coreAt_setCoreAt, same]
  · rw [s.coreAt_setCoreAt_ne e]

/-- The record buffer of a core is no other core's, and holds no stop (R338). -/
theorem State.stop_emit (type : Nat) (body : List DWord) : ((s.emit m type body).coreAt n).stop = (s.coreAt n).stop := by
  by_cases e : n = m
  · obtain ⟨b, o, f, l, same⟩ := s.coreAt_emit m type body
    rw [e, same]
  · have written {t : State} (h : s.WritesHomes t) (c : Core) : ((t.setCoreAt m c).coreAt n).stop = (s.coreAt n).stop := by
      rw [State.coreAt_setCoreAt_ne _ e, h.coreAt]
    unfold State.emit
    dsimp only
    split
    · split
      · exact written (.refl s) _
      · exact written ((State.writesHomes_placeBytes ..).trans (State.writesHomes_placeBytes ..)) _
    · split
      · exact written (.refl s) _
      · exact written (State.writesHomes_placeBytes ..) _

theorem State.stop_logWait (k : Cluster) (isOpen : Bool) : ((s.logWait m k isOpen).coreAt n).stop = (s.coreAt n).stop := by
  unfold State.logWait
  dsimp only
  split
  · rfl
  · split
    · exact s.stop_emit m n _ _
    · rfl

theorem State.stop_logStop (c v : DWord) : ((s.logStop m c v).coreAt n).stop = (s.coreAt n).stop := by
  unfold State.logStop
  dsimp only
  split
  · exact s.stop_emit m n _ _
  · rfl

theorem State.stop_stopClusters : ((s.stopClusters m).coreAt n).stop = (s.coreAt n).stop := by
  have logged (ks : List Cluster) (t : State) : ((ks.foldl (fun t k => t.logWait m k true) t).coreAt n).stop = (t.coreAt n).stop := by
    induction ks generalizing t with
    | nil => rfl
    | cons k ks ih => exact (ih _).trans (t.stop_logWait m n k true)
  exact (State.stop_setCoreAt _ m n (Core.haltsTo_haltAll _ _).stop).trans (logged allClusters s)

theorem State.stop_finishCommit : ((s.finishCommit m).coreAt n).stop = (s.coreAt n).stop := by
  unfold State.finishCommit
  dsimp only
  split
  · rfl
  · refine (State.stop_setCoreAt _ m n ?_).trans (State.haltsTo_writeVersion n s _ _).core.stop
    rfl

/-- The stop of one core leaves the stops of the others. -/
theorem State.stop_stopWith_ne {m n : Nat} (e : n ≠ m) (st : Stop) : ((s.stopWith m st).coreAt n).stop = (s.coreAt n).stop := by
  unfold State.stopWith
  dsimp only
  rw [State.stop_logStop, State.coreAt_setCoreAt_ne _ e, State.stop_stopClusters]
  split
  · rfl
  · exact s.stop_finishCommit m n

theorem State.core_stopWith (st : Stop) : (s.stopWith m st).core = s.core := by
  by_cases fault : st.kind = .fault
  · exact (State.takesStop_fault s m fault).device.core
  · exact (State.takesStop_trap s m fault).1.core

/-- The focus stays, and a stop that stands at core `n` stays. -/
def State.Stands (n : Nat) (s t : State) : Prop := t.core = s.core ∧ ((s.coreAt n).stop.isSome = true → (t.coreAt n).stop.isSome = true)

variable {s}

theorem State.Stands.trans {t u : State} (h : s.Stands n t) (h' : t.Stands n u) : s.Stands n u := ⟨h'.1.trans h.1, fun stop => h'.2 (h.2 stop)⟩

variable (s)

/-- A stop that waits lifts none (R291). -/
theorem State.stands_deferStop (st : Stop) : s.Stands n (s.deferStop m st) := by
  unfold State.deferStop
  dsimp only
  split
  · exact ⟨rfl, id⟩
  · refine ⟨rfl, fun stop => (congrArg Option.isSome (s.stop_setCoreAt m n ?_)).trans stop⟩
    rfl

theorem State.stands_takeStop (kind : StopKind) (unit : Nat) (pc : BitVec 32) (impr debug : Bool) (t : TrapInfo) (orig : BitVec 6) :
    s.Stands n (s.takeStop m kind unit pc impr debug t orig) := by
  unfold State.takeStop
  dsimp only
  split
  · exact ⟨rfl, id⟩
  · split
    · exact s.stands_deferStop m n _
    · refine ⟨s.core_stopWith m _, fun stop => ?_⟩
      by_cases e : n = m
      · rw [e]; exact s.stop_stopWith m _
      · rw [s.stop_stopWith_ne e]; exact stop

variable {s} in
theorem State.stands_foldl {α : Type} {f : State → α → State} (h : ∀ (t : State) x, t.Stands n (f t x)) (xs : List α) : s.Stands n (xs.foldl f s) := by
  induction xs generalizing s with
  | nil => exact ⟨rfl, id⟩
  | cons x xs ih => exact (h s x).trans n ih

/-- The failure of a gang's other members lifts no stop (R312). -/
theorem State.stands_failMembers (g : Nat) : s.Stands n (s.failMembers m g) := by
  have readied : s.Stands n { s with ready := s.ready.map (ReadyCr.failWith g m) } := ⟨rfl, id⟩
  refine readied.trans n (State.stands_foldl n (fun t j => ?_) _)
  split
  · split
    · exact t.stands_takeStop j n ..
    · exact ⟨rfl, id⟩
  · exact ⟨rfl, id⟩

end Stands

section Holds

variable {s : State} (undisturbed : s.undisturbed = true)
include undisturbed

/-- A precise trap stops the task (R290). -/
theorem State.stop_stopPrecise_trap (t : TrapInfo) : (s.stopPrecise .trap false t).cur.stop.isSome = true := by
  rw [State.stopPrecise_trap undisturbed, State.cur, s.core_stopWith]
  exact s.stop_stopWith _ _

/-- A restartable stop stops the task, or is discarded while a trap is owed (R291). -/
theorem State.stopPrecise_fault_none {debug : Bool} {t : TrapInfo} (going : (s.stopPrecise .fault debug t).cur.stop = none) :
    s.stopPrecise .fault debug t = s := by
  obtain ⟨busy, running, unsaved⟩ := State.undisturbed_core undisturbed
  cases owed : s.cur.trapOwed with
  | true =>
    have ignored : s.takeStop s.core .fault (clusterIndex s.cluster) (BitVec.ofInt 32 s.cl.pc) false debug t 0 = s := by
      have ignores : (s.coreAt s.core).ignoresStop .fault = true := by simp [Core.ignoresStop, show (s.coreAt s.core).trapOwed = true from owed]
      simp only [State.takeStop, ignores, Bool.true_or, if_true]
    rw [State.stopPrecise, ignored, running]
    rfl
  | false =>
    rw [State.stopPrecise, s.takeStop_taken _ _ _ _ _ _ _ _ busy running unsaved owed rfl] at going
    generalize stopped : s.stopWith s.core _ = u at going
    have stands : u.cur.stop.isSome = true := by
      rw [← stopped, State.cur, s.core_stopWith]
      exact s.stop_stopWith _ _
    rw [if_pos ⟨rfl, stands⟩, State.rearm, State.cur_setCl] at going
    exact absurd stands (by rw [show u.cur.stop = none from going]; decide)

/-- UNCORR stops the task with its gang, or comes too late (R288, R312, R396, R428). -/
theorem State.uncorrectableAt_none {unit : Nat} {pc : BitVec 32} {impr : Bool} {t : TrapInfo}
    (going : (s.uncorrectableAt s.core unit pc impr t).cur.stop = none) : s.uncorrectableAt s.core unit pc impr t = s := by
  obtain ⟨busy, running, unsaved⟩ := State.undisturbed_core undisturbed
  have here : s.coreAt s.core = s.cur := rfl
  cases late : s.cur.tooLate .trap impr with
  | true =>
    have alone : s.cur.gang = none := (by simpa [Core.tooLate] using late : (impr = true ∧ s.cur.finishing = true) ∧ s.cur.gang = none).2
    simp [State.uncorrectableAt, State.takeStop, here, late, alone]
  | false =>
    rw [State.uncorrectableAt, State.takeStop_trap busy running unsaved late] at going
    generalize stopped : s.stopWith s.core _ = u at going
    have stands : (u.coreAt s.core).stop.isSome = true := by
      rw [← stopped]
      exact s.stop_stopWith _ _
    have focus : u.core = s.core := by rw [← stopped, s.core_stopWith]
    split at going
    · obtain ⟨core, stop⟩ := u.stands_failMembers s.core s.core _
      rw [State.cur, core, focus] at going
      exact absurd (stop stands) (by rw [going]; decide)
    · rw [State.cur, focus] at going
      exact absurd stands (by rw [going]; decide)

theorem State.uncorrectable_none {unit : Nat} (going : (s.uncorrectable s.core unit).cur.stop = none) : s.uncorrectable s.core unit = s := by
  have busy : (s.coreAt s.core).busy = true := (State.undisturbed_core undisturbed).1
  rw [State.uncorrectable, if_neg (by simp [busy])] at going ⊢
  exact State.uncorrectableAt_none undisturbed going

/-- A word that a hold ends and that does not stop its task waits, or changes nothing; a watchpoint's records are off where it meets one (R10, R341). -/
theorem State.settle_error (e : Hold) (unwatched : ∀ a w c, e = .watch a w c → s.cur.dctl.getLsbD 3 = false)
    (going : (s.settle (.error e)).cur.stop = none) : s.settle (.error e) = s ∨ ∃ kind obj, s.settle (.error e) = s.waited kind obj := by
  cases e with
  | wait kind obj => exact .inr ⟨kind, obj, rfl⟩
  | trap t =>
    by_cases uncorr : t.cause = 0x1A
    · rw [State.settle, if_pos uncorr] at going ⊢
      exact .inl (State.uncorrectable_none undisturbed going)
    · rw [s.settle_trap uncorr] at going
      exact absurd (State.stop_stopPrecise_trap undisturbed t) (by rw [going]; decide)
  | fault t => exact .inl (State.stopPrecise_fault_none undisturbed going)
  | debug t => exact .inl (State.stopPrecise_fault_none undisturbed going)
  | watch a w c =>
    have off := unwatched a w c rfl
    have unlogged : a.foldl (fun t b => t.logWatch t.core b (agentId t.core t.cluster) true w) s = s := by
      induction a with
      | nil => rfl
      | cons b a ih =>
        have first : s.logWatch s.core b (agentId s.core s.cluster) true w = s :=
          if_neg (by rw [show (s.coreAt s.core).dctl.getLsbD 3 = false from off]; decide)
        rw [List.foldl_cons, first]
        exact ih (fun _ _ _ _ => off) (by simpa only [State.settle, List.foldl_cons, first] using going)
    simp only [State.settle, unlogged] at going ⊢
    exact .inl (State.stopPrecise_fault_none undisturbed going)

end Holds

end Sys2Proof.Machine
end

section
/-!
PROOFS. What a word that only works in its own core leaves unchanged there: its plan fits a frame, and so does what becomes of it (R10, R55, R100).
-/

namespace Sys2Proof.Machine

section Outcomes

variable {s t : State} {Q : State → Prop}

/-- A hold that writes no WATCH record: a strike meets the core with its records off (R341). -/
def State.Admits (s : State) (e : Hold) : Prop := ∀ a w c, e = .watch a w c → s.cur.dctl.getLsbD 3 = false

/-- A plan that completes in a state of `Q`, or ends in a hold that writes no WATCH record. -/
def State.Fits (s : State) (Q : State → Prop) (r : Except Hold State) : Prop := (∀ u, r = .ok u → Q u) ∧ ∀ e, r = .error e → s.Admits e

theorem State.admits_trap (s : State) (t : TrapInfo) : s.Admits (.trap t) := nofun

theorem State.admits_wait (s : State) (kind : Nat) (obj : DWord) : s.Admits (.wait kind obj) := nofun

theorem State.Fits.ok {u : State} (h : Q u) : s.Fits Q (.ok u) := by
  refine ⟨fun _ same => ?_, fun _ same => ?_⟩
  · cases same
    exact h
  · cases same

theorem State.Fits.error {e : Hold} (h : s.Admits e) : s.Fits Q (.error e) := by
  refine ⟨fun _ same => ?_, fun _ same => ?_⟩
  · cases same
  · cases same
    exact h

theorem State.Fits.bind {α : Type} {x : Except Hold α} {f : α → Except Hold State} (errors : ∀ e, x = .error e → s.Admits e)
    (next : ∀ a, x = .ok a → s.Fits Q (f a)) : s.Fits Q (x >>= f) := by
  cases x with
  | ok a => exact next a rfl
  | error e => exact .error (errors e rfl)

theorem State.src_admits (r : BitVec 5) (m : Bool) (e : Hold) (h : s.src r m = .error e) : s.Admits e := by
  unfold State.src at h
  split_ifs at h
  · cases h; exact s.admits_trap _
  · cases h; exact s.admits_wait _ _

theorem State.aluDest_admits (d : BitVec 5) (e : Hold) (h : s.aluDest d = .error e) : s.Admits e := by
  unfold State.aluDest State.markFree State.destFree at h
  split_ifs at h
  all_goals
    cases h
    exact s.admits_wait _ _

theorem State.gate_admits (i : Instr) (e : Hold) (h : s.gate i = .error e) : s.Admits e := by
  unfold State.gate at h
  split at h
  · cases h; exact s.admits_trap _
  · split_ifs at h
    · cases h; exact s.admits_trap _
    · cases h; exact s.admits_trap _

/-- What becomes of an undisturbed word that does not stop its task: what its plan says, nothing, or a wait. -/
theorem runWord_outcome {i : Instr} {plan : State → Except Hold State} (undisturbed : s.undisturbed = true) (fits : s.Fits Q (plan s))
    (run : runWord i s plan = .next t) (going : t.cur.stop = none) : Q t ∨ t = s ∨ ∃ kind obj, t = s.waited kind obj := by
  rcases runWord_next run with ⟨_, rfl⟩ | ⟨e, gate, rfl⟩
  · cases result : plan s with
    | ok u => exact .inl (fits.1 u result)
    | error e =>
      rw [result] at going
      exact .inr (State.settle_error undisturbed e (fits.2 e result) going)
  · exact .inr (State.settle_error undisturbed e (State.gate_admits i e gate) going)

end Outcomes

section Cores

/-- What is looked at of a core: neither its clusters nor its scalars, which are told of apart, but whether it is halting and its stop. -/
structure CoreView where
  of : Core → Core
  setCl : ∀ c k x, of (c.setCl k x) = of c
  scal : ∀ c t, of { c with scal := t } = of c
  halting : ∀ {c c'}, of c' = of c → c'.halting = c.halting
  stop : ∀ {c c'}, of c' = of c → c'.stop = c.stop

/-- What core `c'` keeps of `c` where a word of cluster `k` may change scalar `d` and go on in its cluster; its predicates stay where `away`. -/
structure Core.KeepsTo (view : CoreView) (k : Cluster) (d : BitVec 5) (away : Prop) (c c' : Core) : Prop where
  rest : view.of c' = view.of c
  clusters : ∀ j, j ≠ k → c'.cl j = c.cl j
  regs : ∀ r, r ≠ d ∨ r = 0 → c'.reg r = c.reg r
  femode : (c'.cl k).femode = (c.cl k).femode
  running : (c'.cl k).running = (c.cl k).running
  pred : away → (c'.cl k).pred = (c.cl k).pred

namespace Core.KeepsTo

variable {view : CoreView} {k : Cluster} {d : BitVec 5} {away : Prop} {c c' c'' : Core}

theorem refl (c : Core) : c.KeepsTo view k d away c := ⟨rfl, fun _ _ => rfl, fun _ _ => rfl, rfl, rfl, fun _ => rfl⟩

theorem trans (h : c.KeepsTo view k d away c') (h' : c'.KeepsTo view k d away c'') : c.KeepsTo view k d away c'' where
  rest := h'.rest.trans h.rest
  clusters j other := (h'.clusters j other).trans (h.clusters j other)
  regs r other := (h'.regs r other).trans (h.regs r other)
  femode := h'.femode.trans h.femode
  running := h'.running.trans h.running
  pred still := (h'.pred still).trans (h.pred still)

theorem setCl {x : ClusterState} (femode : x.femode = (c.cl k).femode) (running : x.running = (c.cl k).running)
    (pred : away → x.pred = (c.cl k).pred) : c.KeepsTo view k d away (c.setCl k x) where
  rest := view.setCl c k x
  clusters _ other := Core.cl_setCl_ne c other x
  regs _ _ := rfl
  femode := by rw [Core.cl_setCl]; exact femode
  running := by rw [Core.cl_setCl]; exact running
  pred still := by rw [Core.cl_setCl]; exact pred still

/-- A write of scalar `d` (R91). -/
theorem change (c : Core) (now : Nat) (v : DWord) (full : Bool) : c.KeepsTo view k d away (c.change now k d v full) where
  rest := by
    unfold Core.change
    split
    · rfl
    · exact view.scal c _
  clusters _ _ := Core.cl_change ..
  regs _ other := Core.reg_change_ne _ _ _ other _ _
  femode := by rw [Core.cl_change]
  running := by rw [Core.cl_change]
  pred _ := by rw [Core.cl_change]

/-- A change of scalar `d` alone. -/
theorem putScal (c : Core) {d : BitVec 5} (nonzero : d ≠ 0) (x : Scalar) :
    c.KeepsTo view k d away { c with scal := c.scal.put d.toNat x } where
  rest := view.scal c _
  clusters _ _ := rfl
  regs r other := by
    have apart : r.toNat ≠ d.toNat := fun e => other.elim (· (BitVec.eq_of_toNat_eq e)) fun zero => nonzero (by rw [← zero, BitVec.eq_of_toNat_eq e])
    exact Tab.get_put_ne _ _ apart _
  femode := rfl
  running := rfl
  pred _ := rfl

/-- Scalar `d` emptied for a producer (R92). -/
theorem produce (c : Core) (now : Nat) (divider : Bool) (v : Option DWord) : c.KeepsTo view k d away (c.produce now k d divider v) := by
  unfold Core.produce
  split
  case isTrue => exact refl c
  case isFalse nonzero => exact (change c now _ _).trans (putScal _ nonzero _)

end Core.KeepsTo

end Cores

section Going

/-- The cluster after a word that has issued keeps its modes, and away from a loop's end its predicates (R55, R100). -/
theorem ClusterState.femode_advance (x : ClusterState) : x.advance.1.femode = x.femode ∧ x.advance.1.running = x.running := by
  have ends (y : ClusterState) (n : Bool) : (y.endAction n).1.femode = y.femode ∧ (y.endAction n).1.running = y.running := by
    unfold ClusterState.endAction ClusterState.setLoop
    cases n
    all_goals
      dsimp only
      split
      · exact ⟨rfl, rfl⟩
      · exact ⟨rfl, rfl⟩
  unfold ClusterState.advance
  split
  · dsimp only
    split
    · exact ends ..
    · exact ⟨(ends _ _).1.trans (ends _ _).1, (ends _ _).2.trans (ends _ _).2⟩
  · split
    · exact ends ..
    · split
      · exact ends ..
      · exact ⟨rfl, rfl⟩

theorem ClusterState.modes_issued_landed (x : ClusterState) (back : Bool) :
    (x.issued.landed back).femode = x.femode ∧ (x.issued.landed back).running = x.running := by
  rw [ClusterState.landed_eq]
  exact ⟨rfl, rfl⟩

/-- A core whose task is not stopped executes no word of DXW (R330). -/
theorem Core.dxwRetired_going {c : Core} {k : Cluster} (going : c.stop = none) : c.dxwRetired k = c := by
  simp [Core.dxwRetired, Core.executes, going]

variable {s : State} {c : Core} (since : (c.cl s.cluster).since = none) (halting : c.halting = false) (going : c.stop = none)
include since halting going

theorem State.retire_setCur : (s.setCur c).retire =
    s.setCur (c.setCl s.cluster ((c.cl s.cluster).advance.1.issued.landed (c.cl s.cluster).advance.2)) := by
  have cl : (s.setCur c).cl = c.cl s.cluster := s.cl_setCur c
  rw [State.retire_fresh _ (by rw [cl]; exact since) (by rw [State.cur_setCur]; exact halting), cl, State.cur_setCur,
    Core.dxwRetired_going (show (c.setCl _ _).stop = none from going), State.setCur_setCur]
  rfl

theorem State.goTo_setCur (p : Int) : (s.setCur c).goTo p =
    s.setCur (c.setCl s.cluster (({ c.cl s.cluster with pc := p } : ClusterState).issued.landed false)) := by
  have cl : (s.setCur c).cl = c.cl s.cluster := s.cl_setCur c
  rw [State.goTo_fresh _ p (by rw [cl]; exact since) (by rw [State.cur_setCur]; exact halting), cl, State.cur_setCur,
    Core.dxwRetired_going (show (c.setCl _ _).stop = none from going), State.setCur_setCur]
  rfl

end Going

section Focus

variable {view : CoreView} {s : State} {d : BitVec 5} {away : Prop}

/-- The focused core replaced by one that keeps to the frame. -/
def State.KeepsTo (view : CoreView) (d : BitVec 5) (away : Prop) (s u : State) : Prop :=
  ∃ c, s.cur.KeepsTo view s.cluster d away c ∧ u = s.setCur c

theorem State.KeepsTo.of {c : Core} (h : s.cur.KeepsTo view s.cluster d away c) : s.KeepsTo view d away (s.setCur c) := ⟨c, h, rfl⟩

variable (undisturbed : s.undisturbed = true)
include undisturbed

theorem State.undisturbed_cl : s.cl.since = none ∧ s.cur.halting = false ∧ s.cur.stop = none := by
  simp only [State.undisturbed, Bool.and_eq_true, Option.isNone_iff_eq_none, Bool.not_eq_true'] at undisturbed
  obtain ⟨⟨⟨⟨_, going⟩, _⟩, halting⟩, since⟩ := undisturbed
  exact ⟨since, halting, going⟩

/-- A word that has not waited waits in its own cluster. -/
theorem State.keepsTo_waited (kind : Nat) (obj : DWord) : s.KeepsTo view d away (s.waited kind obj) := by
  obtain ⟨since, -, -⟩ := State.undisturbed_cl undisturbed
  rw [State.waited, since]
  exact .of (.setCl rfl rfl fun _ => rfl)

section Retires

variable {c : Core} (h : s.cur.KeepsTo view s.cluster d away c) (since : (c.cl s.cluster).since = none)
include h since

/-- A word that has changed its core so retires; its predicates stay where it is not at a loop's end. -/
theorem State.keepsTo_retire (stays : away → (c.cl s.cluster).atEnd false = false ∧ (c.cl s.cluster).atEnd true = false) :
    s.KeepsTo view d away (s.setCur c).retire := by
  obtain ⟨-, halting, going⟩ := State.undisturbed_cl undisturbed
  rw [State.retire_setCur since ((view.halting h.rest).trans halting) ((view.stop h.rest).trans going)]
  obtain ⟨femode, running⟩ := ClusterState.femode_advance (c.cl s.cluster)
  obtain ⟨femode', running'⟩ := ClusterState.modes_issued_landed (c.cl s.cluster).advance.1 (c.cl s.cluster).advance.2
  refine .of (h.trans (.setCl (femode'.trans femode) (running'.trans running) fun still => ?_))
  obtain ⟨zero, one⟩ := stays still
  rw [ClusterState.pred_landed, ClusterState.pred_issued, ClusterState.advance_plain _ zero one]

/-- The same where it goes on elsewhere. -/
theorem State.keepsTo_goTo (p : Int) : s.KeepsTo view d away ((s.setCur c).goTo p) := by
  obtain ⟨-, halting, going⟩ := State.undisturbed_cl undisturbed
  rw [State.goTo_setCur since ((view.halting h.rest).trans halting) ((view.stop h.rest).trans going)]
  obtain ⟨femode, running⟩ := ClusterState.modes_issued_landed { c.cl s.cluster with pc := p } false
  refine .of (h.trans (.setCl femode running fun _ => ?_))
  rw [ClusterState.pred_landed, ClusterState.pred_issued]

end Retires

end Focus

end Sys2Proof.Machine
end

section
/-!
PROOFS. The plans of the register words, branches and loops, and what they leave unchanged (R375 to R478).
-/

namespace Sys2Proof.Machine

/-- A core but for its clusters and scalars. -/
def Core.bare (c : Core) : Core := { c with scal := .empty, clusters := .empty }

theorem Core.eq_of_bare {c c' : Core} (h : c'.bare = c.bare) : c' = { c with scal := c'.scal, clusters := c'.clusters, dxw := c'.dxw } :=
  congrArg (fun x : Core => { x with scal := c'.scal, clusters := c'.clusters, dxw := c'.dxw }) h

def registerView : CoreView where
  of := Core.bare
  setCl _ _ _ := rfl
  scal _ _ := rfl
  halting h := (congrArg Core.halting h :)
  stop h := (congrArg Core.stop h :)

@[simp] theorem Core.cl_produce (c : Core) (now : Nat) (j k : Cluster) (r : BitVec 5) (divider : Bool) (v : Option DWord) :
    (c.produce now k r divider v).cl j = c.cl j := by
  unfold Core.produce
  split
  · rfl
  · exact Core.cl_change ..

theorem State.csrOld_admits (s : State) (c : BitVec 12) (w : Bool) (e : Hold) (h : s.csrOld c w = .error e) : s.Admits e := by
  unfold State.csrOld at h
  split at h
  case h_1 =>
    cases h
    exact s.admits_trap _
  case h_2 =>
    split at h
    · cases h
      exact s.admits_trap _
    · cases h

section Plans

variable {view : CoreView} {s : State} {d : BitVec 5} {away : Prop} (undisturbed : s.undisturbed = true)
include undisturbed

/-- A word that changes nothing of its core but retires is as one that writes it back. -/
theorem State.retire_eq_setCur : s.retire = (s.setCur s.cur).retire := by
  obtain ⟨since, halting, going⟩ := State.undisturbed_cl undisturbed
  rw [State.retire_setCur since halting going, s.retire_fresh since halting, Core.dxwRetired_going (show (s.cur.setCl _ _).stop = none from going)]
  rfl

section Result

variable (stays : away → s.atLoopEnd = false)
include stays

/-- A core whose focused cluster is as it was retires away from a loop's end, where the word's predicates stay. -/
theorem State.keepsTo_retire_same {c : Core} (h : s.cur.KeepsTo view s.cluster d away c) (same : c.cl s.cluster = s.cl) :
    s.KeepsTo view d away (s.setCur c).retire := by
  obtain ⟨since, -, -⟩ := State.undisturbed_cl undisturbed
  refine State.keepsTo_retire undisturbed h (by rw [same]; exact since) fun still => ?_
  rw [same]
  exact (Bool.or_eq_false_iff).mp (stays still)

theorem State.keepsTo_retire_self : s.KeepsTo view d away s.retire := by
  rw [State.retire_eq_setCur undisturbed]
  exact State.keepsTo_retire_same undisturbed stays (.refl _) rfl

theorem State.keepsTo_putScal_retire (v : DWord) : s.KeepsTo view d away (s.putScal d v).retire :=
  State.keepsTo_retire_same undisturbed stays (.change ..) (Core.cl_change ..)

theorem fits_planRR (a b : BitVec 5) (m n : Bool) (f : DWord → DWord → DWord) : s.Fits (s.KeepsTo view d away) (planRR d a b m n f s) :=
  .bind (State.src_admits a m) fun _ _ => .bind (State.src_admits b n) fun _ _ => .bind (State.aluDest_admits d) fun _ _ =>
    .ok (State.keepsTo_putScal_retire undisturbed stays _)

theorem fits_planRI (a : BitVec 5) (f : DWord → DWord) : s.Fits (s.KeepsTo view d away) (planRI d a f s) :=
  .bind (State.src_admits a _) fun _ _ => .bind (State.aluDest_admits d) fun _ _ => .ok (State.keepsTo_putScal_retire undisturbed stays _)

theorem fits_planSet (f : State → DWord) : s.Fits (s.KeepsTo view d away) (planSet d f s) :=
  .bind (State.aluDest_admits d) fun _ _ => .ok (State.keepsTo_putScal_retire undisturbed stays _)

theorem fits_planDiv (a b : BitVec 5) (m n : Bool) (f : DWord → DWord → DWord) : s.Fits (s.KeepsTo view d away) (planDiv d a b m n f s) := by
  refine .bind (State.src_admits a m) fun _ _ => .bind (State.src_admits b n) fun _ _ => .bind (State.aluDest_admits d) fun _ _ => ?_
  split
  · exact .error (s.admits_wait _ _)
  · exact .ok (State.keepsTo_retire_same undisturbed stays (.produce ..) (Core.cl_produce ..))

end Result

/-- A call leaves its link and goes on elsewhere. -/
theorem State.keepsTo_putScal_goTo (v : DWord) (p : Int) : s.KeepsTo view d away ((s.putScal d v).goTo p) := by
  obtain ⟨since, -, -⟩ := State.undisturbed_cl undisturbed
  refine State.keepsTo_goTo undisturbed (.change ..) ?_ p
  rw [Core.cl_change]
  exact since

section Cluster

variable {x : ClusterState} (femode : x.femode = s.cl.femode) (running : x.running = s.cl.running) (since : x.since = s.cl.since)
include femode running since

/-- A word that changes its own cluster, its predicates perhaps, retires. -/
theorem State.keepsTo_setCl_retire (untold : ¬away) : s.KeepsTo view d away (s.setCl x).retire := by
  obtain ⟨fresh, -, -⟩ := State.undisturbed_cl undisturbed
  exact State.keepsTo_retire undisturbed (.setCl femode running fun still => absurd still untold) (by rw [Core.cl_setCl, since, fresh])
    fun still => absurd still untold

/-- The same where it goes on elsewhere. -/
theorem State.keepsTo_setCl_goTo (untold : ¬away) (p : Int) : s.KeepsTo view d away ((s.setCl x).goTo p) := by
  obtain ⟨fresh, -, -⟩ := State.undisturbed_cl undisturbed
  exact State.keepsTo_goTo undisturbed (.setCl femode running fun still => absurd still untold) (by rw [Core.cl_setCl, since, fresh]) p

end Cluster

section Untold

variable (untold : ¬away)
include untold

theorem State.keepsTo_putPred (p : BitVec 3) (v : Bool) : s.KeepsTo view d away (s.putPred p v).retire :=
  State.keepsTo_setCl_retire undisturbed rfl rfl rfl untold

theorem State.keepsTo_branchTo (p : Int) : s.KeepsTo view d away (s.branchTo p) :=
  State.keepsTo_setCl_goTo undisturbed (x := { s.cl with loop0 := s.cl.loop0.leave p, loop1 := s.cl.loop1.leave p }) rfl rfl rfl untold p

theorem State.keepsTo_armLoop (l : Bool) (first last n k : Nat) : s.KeepsTo view d away (s.armLoop l first last n k) := by
  have loops (x : ClusterState) (l : Bool) (y : Loop) :
      (x.setLoop l y).femode = x.femode ∧ (x.setLoop l y).running = x.running ∧ (x.setLoop l y).since = x.since := by
    cases l
    · exact ⟨rfl, rfl, rfl⟩
    · exact ⟨rfl, rfl, rfl⟩
  unfold State.armLoop
  refine State.keepsTo_setCl_goTo undisturbed ?femode ?running ?since untold _
  case femode => exact (loops _ _ _).1.trans (loops _ _ _).1
  case running => exact (loops _ _ _).2.1.trans (loops _ _ _).2.1
  case since => exact (loops _ _ _).2.2.trans (loops _ _ _).2.2

theorem fits_planCmpI (code : Nat) (p : BitVec 3) (a : BitVec 5) (i : BitVec 13) : s.Fits (s.KeepsTo view d away) (planCmpI code p a i s) :=
  .bind (State.src_admits a _) fun _ _ => .ok (State.keepsTo_putPred undisturbed untold p _)

theorem fits_planJump (a : BitVec 5) (m : Bool) : s.Fits (s.KeepsTo view d away) (planJump a m s) := by
  refine .bind (State.src_admits a m) fun _ _ => ?_
  split
  · exact .error (s.admits_trap _)
  · exact .ok (State.keepsTo_branchTo undisturbed untold _)

theorem fits_planBz (wantZero : Bool) (a : BitVec 5) (i : BitVec 13) : s.Fits (s.KeepsTo view d away) (planBz wantZero a i s) := by
  refine .bind (State.src_admits a _) fun _ _ => ?_
  split
  · exact .ok (State.keepsTo_branchTo undisturbed untold _)
  · exact .ok (State.keepsTo_retire_self undisturbed fun still => absurd still untold)

theorem fits_planLoop (k : BitVec 3) (l : Bool) (n : Nat) (last : Int) : s.Fits (s.KeepsTo view d away) (planLoop k l n last s) := by
  unfold planLoop
  dsimp only
  split_ifs
  · exact .error (s.admits_trap _)
  · exact .error (s.admits_trap _)
  · exact .error (s.admits_trap _)
  · exact .ok (State.keepsTo_armLoop undisturbed untold ..)

end Untold

end Plans

section Words

/-- A word that writes scalar `d` keeps its predicates away from a loop's end; the words that write s0 alone may set some. -/
abbrev State.registerKeeps (s : State) (d : BitVec 5) : State → Prop := s.KeepsTo registerView d (d ≠ 0 ∧ s.atLoopEnd = false)

/-- Each register word is a plan that keeps to the frame (R375 to R478). -/
theorem registerWord_fits {s : State} (undisturbed : s.undisturbed = true) (i : Instr) (d : BitVec 5) (word : registerDest i = some d) :
    ∃ plan, exec i s = runWord i s plan ∧ s.Fits (s.registerKeeps d) (plan s) := by
  have stays {d : BitVec 5} : d ≠ 0 ∧ s.atLoopEnd = false → s.atLoopEnd = false := And.right
  have untold : ¬((0 : BitVec 5) ≠ 0 ∧ s.atLoopEnd = false) := fun h => h.1 rfl
  have retires (d : BitVec 5) (v : DWord) : s.registerKeeps d (s.putScal d v).retire := State.keepsTo_putScal_retire undisturbed stays v
  have calls (d : BitVec 5) (p : Int) : s.registerKeeps d ((s.putScal d s.link).goTo p) := State.keepsTo_putScal_goTo undisturbed _ p
  cases i with
  | nop => cases word; exact ⟨_, exec_nop .., .ok (State.keepsTo_retire_self undisturbed stays)⟩
  | add => cases word; exact ⟨_, exec_add .., fits_planRR undisturbed stays ..⟩
  | sub => cases word; exact ⟨_, exec_sub .., fits_planRR undisturbed stays ..⟩
  | mul => cases word; exact ⟨_, exec_mul .., fits_planRR undisturbed stays ..⟩
  | mulh => cases word; exact ⟨_, exec_mulh .., fits_planRR undisturbed stays ..⟩
  | mulhu => cases word; exact ⟨_, exec_mulhu .., fits_planRR undisturbed stays ..⟩
  | div => cases word; exact ⟨_, exec_div .., fits_planDiv undisturbed stays ..⟩
  | divu => cases word; exact ⟨_, exec_divu .., fits_planDiv undisturbed stays ..⟩
  | rem => cases word; exact ⟨_, exec_rem .., fits_planDiv undisturbed stays ..⟩
  | remu => cases word; exact ⟨_, exec_remu .., fits_planDiv undisturbed stays ..⟩
  | and => cases word; exact ⟨_, exec_and .., fits_planRR undisturbed stays ..⟩
  | andn => cases word; exact ⟨_, exec_andn .., fits_planRR undisturbed stays ..⟩
  | or => cases word; exact ⟨_, exec_or .., fits_planRR undisturbed stays ..⟩
  | xor => cases word; exact ⟨_, exec_xor .., fits_planRR undisturbed stays ..⟩
  | sll => cases word; exact ⟨_, exec_sll .., fits_planRR undisturbed stays ..⟩
  | srl => cases word; exact ⟨_, exec_srl .., fits_planRR undisturbed stays ..⟩
  | sra => cases word; exact ⟨_, exec_sra .., fits_planRR undisturbed stays ..⟩
  | min => cases word; exact ⟨_, exec_min .., fits_planRR undisturbed stays ..⟩
  | max => cases word; exact ⟨_, exec_max .., fits_planRR undisturbed stays ..⟩
  | minu => cases word; exact ⟨_, exec_minu .., fits_planRR undisturbed stays ..⟩
  | maxu => cases word; exact ⟨_, exec_maxu .., fits_planRR undisturbed stays ..⟩
  | sel => cases word; exact ⟨_, exec_sel .., fits_planRR undisturbed stays ..⟩
  | mov d a m =>
    cases word
    exact ⟨_, exec_mov .., .bind (State.src_admits a m) fun _ _ => .bind (State.aluDest_admits d) fun _ _ => .ok (retires d _)⟩
  | addi => cases word; exact ⟨_, exec_addi .., fits_planRI undisturbed stays ..⟩
  | muli => cases word; exact ⟨_, exec_muli .., fits_planRI undisturbed stays ..⟩
  | andi => cases word; exact ⟨_, exec_andi .., fits_planRI undisturbed stays ..⟩
  | ori => cases word; exact ⟨_, exec_ori .., fits_planRI undisturbed stays ..⟩
  | xori => cases word; exact ⟨_, exec_xori .., fits_planRI undisturbed stays ..⟩
  | slli => cases word; exact ⟨_, exec_slli .., fits_planRI undisturbed stays ..⟩
  | srli => cases word; exact ⟨_, exec_srli .., fits_planRI undisturbed stays ..⟩
  | srai => cases word; exact ⟨_, exec_srai .., fits_planRI undisturbed stays ..⟩
  | mini => cases word; exact ⟨_, exec_mini .., fits_planRI undisturbed stays ..⟩
  | maxi => cases word; exact ⟨_, exec_maxi .., fits_planRI undisturbed stays ..⟩
  | minui => cases word; exact ⟨_, exec_minui .., fits_planRI undisturbed stays ..⟩
  | maxui => cases word; exact ⟨_, exec_maxui .., fits_planRI undisturbed stays ..⟩
  | li => cases word; exact ⟨_, exec_li .., fits_planSet undisturbed stays _⟩
  | lih => cases word; exact ⟨_, exec_lih .., fits_planRI undisturbed stays ..⟩
  | cmp p a b m n =>
    cases word
    exact ⟨_, exec_cmp .., .bind (State.src_admits a m) fun _ _ => .bind (State.src_admits b n) fun _ _ =>
      .ok (State.keepsTo_putPred undisturbed untold p _)⟩
  | pset p => cases word; exact ⟨_, exec_pset .., .ok (State.keepsTo_putPred undisturbed untold p _)⟩
  | cmpiEq => cases word; exact ⟨_, exec_cmpiEq .., fits_planCmpI undisturbed untold ..⟩
  | cmpiNe => cases word; exact ⟨_, exec_cmpiNe .., fits_planCmpI undisturbed untold ..⟩
  | cmpiLt => cases word; exact ⟨_, exec_cmpiLt .., fits_planCmpI undisturbed untold ..⟩
  | cmpiGe => cases word; exact ⟨_, exec_cmpiGe .., fits_planCmpI undisturbed untold ..⟩
  | cmpiLe => cases word; exact ⟨_, exec_cmpiLe .., fits_planCmpI undisturbed untold ..⟩
  | cmpiGt => cases word; exact ⟨_, exec_cmpiGt .., fits_planCmpI undisturbed untold ..⟩
  | cmpiLtu => cases word; exact ⟨_, exec_cmpiLtu .., fits_planCmpI undisturbed untold ..⟩
  | cmpiGeu => cases word; exact ⟨_, exec_cmpiGeu .., fits_planCmpI undisturbed untold ..⟩
  | cmpiLeu => cases word; exact ⟨_, exec_cmpiLeu .., fits_planCmpI undisturbed untold ..⟩
  | cmpiGtu => cases word; exact ⟨_, exec_cmpiGtu .., fits_planCmpI undisturbed untold ..⟩
  | b p g o =>
    cases word
    refine ⟨_, exec_b .., ?_⟩
    split
    · exact .ok (State.keepsTo_branchTo undisturbed untold _)
    · exact .ok (State.keepsTo_retire_self undisturbed stays)
  | bz => cases word; exact ⟨_, exec_bz .., fits_planBz undisturbed untold ..⟩
  | bnz => cases word; exact ⟨_, exec_bnz .., fits_planBz undisturbed untold ..⟩
  | jmp => cases word; exact ⟨_, exec_jmp .., fits_planJump undisturbed untold ..⟩
  | ret => cases word; exact ⟨_, exec_ret .., fits_planJump undisturbed untold ..⟩
  | loop k l a =>
    cases word
    exact ⟨_, exec_loop .., .bind (State.src_admits a _) fun _ _ => fits_planLoop undisturbed untold ..⟩
  | loopi => cases word; exact ⟨_, exec_loopi .., fits_planLoop undisturbed untold ..⟩
  | call d => cases word; exact ⟨_, exec_call .., .bind (State.aluDest_admits d) fun _ _ => .ok (calls d _)⟩
  | callr d a m =>
    cases word
    refine ⟨_, exec_callr .., .bind (State.src_admits a m) fun _ _ => ?_⟩
    split
    · exact .error (s.admits_trap _)
    · exact .bind (State.aluDest_admits d) fun _ _ => .ok (calls d _)
  | csrr d c =>
    cases word
    exact ⟨_, exec_csrr .., .bind (s.csrOld_admits c false) fun _ _ => .bind (State.aluDest_admits d) fun _ _ => .ok (retires d _)⟩
  | _ => cases word

/-- A register word that does not stop its task changes nothing, or completes or waits within the frame. -/
theorem registerWord_keeps {s t : State} {i : Instr} {d : BitVec 5} (word : registerDest i = some d) (undisturbed : s.undisturbed = true)
    (run : exec i s = .next t) (going : t.cur.stop = none) : t = s ∨ s.registerKeeps d t := by
  obtain ⟨plan, runs, fits⟩ := registerWord_fits undisturbed i d word
  rcases runWord_outcome undisturbed fits (runs.symm.trans run) going with keeps | rfl | ⟨kind, obj, rfl⟩
  · exact .inr keeps
  · exact .inl rfl
  · exact .inr (State.keepsTo_waited undisturbed kind obj)

end Words

end Sys2Proof.Machine
end

section
namespace Sys2Proof.Machine

/-- Settles O56: the core is replaced by one that has changed in its scalar, its cluster and no more. -/
theorem registerWordsFrame : Obligations.RegisterWordsFrame := by
  intro s t i d word undisturbed run going
  rcases registerWord_keeps word undisturbed run going with rfl | ⟨c, keeps, rfl⟩
  case inl => exact ⟨rfl, fun _ _ => rfl, rfl, fun _ _ => rfl, fun _ _ => rfl, rfl, rfl, fun _ => rfl, fun _ _ => rfl⟩
  case inr =>
    simp only [State.cur_setCur, State.cl_setCur]
    exact ⟨rfl, fun _ other => s.coreAt_setCur_ne other c, Core.eq_of_bare keeps.rest, keeps.clusters, keeps.regs, keeps.femode, keeps.running,
      fun _ => rfl, fun named plain => keeps.pred ⟨named, plain⟩⟩

end Sys2Proof.Machine
end

section
/-!
PROOFS. What the words of clusters V and M leave unchanged at their issue (R359, R423, R464): those that read no format table entry change their core alone.
-/

namespace Sys2Proof.Machine

section View

/-- A core but for what the words of clusters V and M change in it: registers, rows, arrays, the number of array operations, the reads asked of other
nodes, and the translation caches. -/
def Core.sparingArrays (c : Core) : Core :=
  { c with
    scal := .empty, clusters := .empty, tiles := .empty, loadq := .empty, storeq := .empty, vop := none, shp := 0, csrHist := .empty, acc := .empty,
    accs := .empty, arrayX := .start, arrayY := .start, mstat := 0, seq := 0, remoteReads := [], nextId := 0, recCache := .empty, ruCache := .empty }

def arrayView : CoreView where
  of := Core.sparingArrays
  setCl _ _ _ := rfl
  scal _ _ := rfl
  halting h := (congrArg Core.halting h :)
  stop h := (congrArg Core.stop h :)

variable {view : CoreView} {k : Cluster} {d : BitVec 5} {away : Prop} {c c' : Core}

/-- A change of neither registers nor clusters keeps to the frame where the view does not see it. -/
theorem Core.KeepsTo.unseen (rest : view.of c' = view.of c) (scal : c'.scal = c.scal) (clusters : c'.clusters = c.clusters) :
    c.KeepsTo view k d away c' := by
  have cl (j : Cluster) : c'.cl j = c.cl j := by rw [Core.cl, clusters]; rfl
  exact ⟨rest, fun j _ => cl j, fun r _ => by rw [Core.reg, scal]; rfl, by rw [cl], by rw [cl], fun _ => by rw [cl]⟩

/-- A change of rows, arrays, shapes or accumulators keeps to the frame. -/
theorem Core.KeepsTo.arrays (rest : c'.sparingArrays = c.sparingArrays) (scal : c'.scal = c.scal) (clusters : c'.clusters = c.clusters) :
    c.KeepsTo arrayView k d away c' ∧ c'.cl k = c.cl k :=
  ⟨.unseen rest scal clusters, by rw [Core.cl, clusters]; rfl⟩

end View

section Words

variable {s : State} {d : BitVec 5} (undisturbed : s.undisturbed = true)
include undisturbed

/-- What a word of clusters V and M that reads no entry of the format table may do. -/
abbrev State.arrayKeeps (s : State) (d : BitVec 5) : State → Prop := s.KeepsTo arrayView d (s.atLoopEnd = false)

/-- A word that changes rows, arrays, shapes or accumulators retires. -/
theorem State.arrayKeeps_retire {c : Core} (rest : c.sparingArrays = s.cur.sparingArrays) (scal : c.scal = s.cur.scal)
    (clusters : c.clusters = s.cur.clusters) : s.arrayKeeps d (s.setCur c).retire :=
  have ⟨keeps, same⟩ := Core.KeepsTo.arrays rest scal clusters
  State.keepsTo_retire_same undisturbed id keeps same

section Rows

omit undisturbed

/-- A row step changes rows alone (R105). -/
theorem Core.rowStep_rows (c : Core) (v : VecOp) : ∃ t l q, c.rowStep v = { c with tiles := t, loadq := l, storeq := q } := by
  unfold Core.rowStep Core.placeRow
  split
  · exact ⟨_, _, _, rfl⟩
  · exact ⟨_, _, _, rfl⟩

end Rows

/-- The first row step of a longer shape leaves the rest under way (R105). -/
theorem State.arrayKeeps_underway {c : Core} (rest : c.sparingArrays = s.cur.sparingArrays) (scal : c.scal = s.cur.scal)
    (clusters : c.clusters = s.cur.clusters) : s.arrayKeeps d (s.setCur c).underway := by
  obtain ⟨since, -, -⟩ := State.undisturbed_cl undisturbed
  obtain ⟨keeps, same⟩ := Core.KeepsTo.arrays (k := s.cluster) (d := d) (away := s.atLoopEnd = false) rest scal clusters
  have here : (s.setCur c).cl = c.cl s.cluster := s.cl_setCur c
  have fresh : (s.setCur c).cl.since = none := by rw [here, same]; exact since
  rw [State.underway, State.logWait_fresh _ (s.setCur c).core (s.setCur c).cluster false fresh]
  simp only [State.setCl, State.cur_setCur, State.setCur_setCur, here]
  exact .of (keeps.trans (.setCl rfl rfl fun _ => rfl))

theorem State.arrayKeeps_vectorStep {v : VecOp} (last : ¬v.row + 1 < shpCount v.shape) : s.arrayKeeps d (s.vectorStep v) := by
  obtain ⟨t, l, q, rows⟩ := s.cur.rowStep_rows v
  rw [State.vectorStep, if_neg last, rows]
  exact State.arrayKeeps_retire undisturbed rfl rfl rfl

theorem State.arrayKeeps_vectorStep_underway {v : VecOp} (more : v.row + 1 < shpCount v.shape) : s.arrayKeeps d (s.vectorStep v).underway := by
  obtain ⟨t, l, q, rows⟩ := s.cur.rowStep_rows v
  rw [State.vectorStep, if_pos more, rows]
  exact State.arrayKeeps_underway undisturbed rfl rfl rfl

omit undisturbed in
/-- A valid shape has rows (R104). -/
theorem shpCount_pos {shape : DWord} {f : Fmt} (valid : shapeFormat shape = .ok f) : shpCount shape ≠ 0 := by
  intro none
  rw [shapeFormat] at valid
  split at valid
  · cases valid
  · rw [if_pos (.inl none)] at valid
    cases valid

section Quiet

variable (quiet : s.cur.dctl.getLsbD 3 = false)
include quiet

omit undisturbed in
/-- A core whose WATCH records are off admits every hold. -/
theorem State.admits_quiet (e : Hold) : s.Admits e := fun _ _ _ _ => quiet

/-- A VR word does its first row step, or is held (R105, R464). -/
theorem fits_planVector (op : Byte) (a b : BitVec 5) (sub : BitVec 3) (x e : BitVec 5) :
    s.Fits (s.arrayKeeps d) (planVector op e a b sub x s) := by
  have admits (h : Hold) : s.Admits h := State.admits_quiet quiet h
  unfold planVector
  split
  case isTrue => exact .error (admits _)
  refine .bind (fun h _ => admits h) fun f valid => ?_
  have steps (v : VecOp) (first : v.row = 0) (shape : v.shape = s.cur.shp) : s.Fits (s.arrayKeeps d)
      (v.shapeOk >>= fun _ => if !s.cur.rowReady v then .error plainWait
        else if shpCount s.cur.shp = 1 then .ok (s.vectorStep v) else .ok (s.vectorStep v).underway) := by
    refine .bind (fun h _ => admits h) fun _ _ => ?_
    have rows := shpCount_pos valid
    rw [← shape] at rows ⊢
    split_ifs
    · exact .error (admits _)
    · exact .ok (State.arrayKeeps_vectorStep undisturbed (by omega))
    · exact .ok (State.arrayKeeps_vectorStep_underway undisturbed (by omega))
  dsimp only
  split
  case isTrue => exact .bind (fun h _ => admits h) fun w _ => steps _ rfl rfl
  case isFalse => exact .bind (fun h _ => admits h) fun w _ => steps _ rfl rfl

/-- A setting step changes registers of its array (R424). -/
theorem fits_planStep (y : Bool) (a b : BitVec 5) (f : DWord → DWord → ArrayState → ArrayState) :
    s.Fits (s.arrayKeeps d) (planStep y a b f s) := by
  refine .bind (fun h _ => State.admits_quiet quiet h) fun u _ => .bind (fun h _ => State.admits_quiet quiet h) fun v _ => .ok ?_
  cases y
  · exact State.arrayKeeps_retire undisturbed rfl rfl rfl
  · exact State.arrayKeeps_retire undisturbed rfl rfl rfl

end Quiet

/-- A scalar written by a word of two cycles (R472). -/
theorem State.arrayKeeps_putScalNext_setCur {c : Core} (rest : c.sparingArrays = s.cur.sparingArrays) (scal : c.scal = s.cur.scal)
    (clusters : c.clusters = s.cur.clusters) (v : DWord) : s.arrayKeeps d ((s.setCur c).putScalNext d v).retire := by
  obtain ⟨keeps, same⟩ := Core.KeepsTo.arrays (k := s.cluster) (d := d) (away := s.atLoopEnd = false) rest scal clusters
  unfold State.putScalNext
  split
  case isTrue => exact State.keepsTo_retire_same undisturbed id keeps same
  case isFalse nonzero =>
    simp only [State.cur_setCur, State.setCur_setCur]
    exact State.keepsTo_retire_same undisturbed id (keeps.trans (.putScal c nonzero _)) same

theorem State.arrayKeeps_putScalNext (v : DWord) : s.arrayKeeps d (s.putScalNext d v).retire := by
  unfold State.putScalNext
  split
  case isTrue => exact State.keepsTo_retire_self undisturbed id
  case isFalse nonzero => exact State.keepsTo_retire_same undisturbed id (.putScal s.cur nonzero _) rfl

/-- A shape set is a control register written (R473). -/
theorem State.arrayKeeps_setShape (v : DWord) : s.arrayKeeps d (s.setShape v).retire := by
  unfold State.setShape State.writeTaskCsr
  dsimp only
  split
  · rw [State.cur_setCur, State.setCur_setCur]
    exact State.arrayKeeps_retire undisturbed rfl rfl rfl
  · exact State.arrayKeeps_retire undisturbed rfl rfl rfl

end Words

section Families

/-- Every word of cluster V but VGET, VPUT, VSHP and VSHPR is a VR word (R464 to R471). -/
def isRowWord (i : Instr) : Bool := decide (0x80 ≤ opOf i ∧ opOf i < 0xC0 ∧ ¬(0xBB ≤ opOf i ∧ opOf i ≤ 0xBE))

theorem exec_rowWord (i : Instr) (rows : isRowWord i = true) (s : State) :
    ∃ op d a b sub x, exec i s = runWord i s (planVector op d a b sub x) := by
  cases i
  all_goals cases rows
  all_goals exact ⟨_, _, _, _, _, _, rfl⟩

/-- The other words of clusters V and M that read no entry of the format table (R424 to R437, R472, R473). -/
def isSettingWord : Instr → Bool
  | .vget _ _ _ _ _ | .vput _ _ _ _ _ | .vshp _ _ _ | .vshpr _ _ => true
  | .mseta _ _ _ _ _ _ _ | .msetb _ _ _ _ _ _ _ | .msetac _ _ _ | .msetbc _ _ _ | .msetc _ _ _ _ _ | .msetcc _ _ _ => true
  | .minca _ _ _ | .mincb _ _ _ | .mincc _ _ _ | .mfmt _ _ _ | .mstamp _ _ | .mprog _ _ | .mzero _ _ | .mwait _ _ => true
  | _ => false

/-- The words that read one (R425, R427). -/
def isEntryWord : Instr → Bool
  | .mmul _ | .mdrain _ => true
  | _ => false

theorem arrayDest_families (i : Instr) : ((arrayDest i).isNone || isRowWord i || isSettingWord i || isEntryWord i) = true := by
  cases i
  all_goals rfl

variable {s : State} (undisturbed : s.undisturbed = true) (quiet : s.cur.dctl.getLsbD 3 = false)
include undisturbed quiet

/-- Each of them keeps to the frame by its plan. -/
theorem settingWord_fits (i : Instr) (d : BitVec 5) (word : arrayDest i = some d) (setting : isSettingWord i = true) :
    ∃ plan, exec i s = runWord i s plan ∧ s.Fits (s.arrayKeeps d) (plan s) := by
  have admits (h : Hold) : s.Admits h := State.admits_quiet quiet h
  have sets (y : Bool) (a b : BitVec 5) (f : DWord → DWord → ArrayState → ArrayState) : s.Fits (s.arrayKeeps d) (planStep y a b f s) :=
    fits_planStep undisturbed quiet y a b f
  cases i with
  | mseta => exact ⟨_, exec_mseta .., sets ..⟩
  | msetb => exact ⟨_, exec_msetb .., sets ..⟩
  | msetac => exact ⟨_, exec_msetac .., sets ..⟩
  | msetbc => exact ⟨_, exec_msetbc .., sets ..⟩
  | msetc => exact ⟨_, exec_msetc .., sets ..⟩
  | msetcc => exact ⟨_, exec_msetcc .., sets ..⟩
  | minca => exact ⟨_, exec_minca .., sets ..⟩
  | mincb => exact ⟨_, exec_mincb .., sets ..⟩
  | mincc => exact ⟨_, exec_mincc .., sets ..⟩
  | mfmt => exact ⟨_, exec_mfmt .., sets ..⟩
  | mstamp => exact ⟨_, exec_mstamp .., sets ..⟩
  | mprog y e =>
    cases word
    exact ⟨_, exec_mprog .., fits_planSet undisturbed id _⟩
  | mzero y c =>
    refine ⟨_, exec_mzero .., ?_⟩
    dsimp only
    split
    · exact .error (admits _)
    · exact .ok (State.arrayKeeps_retire undisturbed rfl rfl rfl)
  | mwait =>
    refine ⟨_, exec_mwait .., ?_⟩
    split
    · exact .ok (State.keepsTo_retire_self undisturbed id)
    · exact .error (admits _)
  | vshp =>
    refine ⟨_, exec_vshp .., ?_⟩
    split
    · exact .error (admits _)
    · exact .ok (State.arrayKeeps_setShape undisturbed _)
  | vshpr =>
    refine ⟨_, exec_vshpr .., ?_⟩
    split
    · exact .error (admits _)
    · exact .bind (fun h _ => admits h) fun _ _ => .ok (State.arrayKeeps_setShape undisturbed _)
  | vput =>
    refine ⟨_, exec_vput .., ?_⟩
    split
    · exact .error (admits _)
    · exact .bind (fun h _ => admits h) fun _ _ => .bind (fun h _ => admits h) fun _ _ => .bind (fun h _ => admits h) fun _ _ =>
        .bind (fun h _ => admits h) fun _ _ => .ok (State.arrayKeeps_retire undisturbed rfl rfl rfl)
  | vget =>
    cases word
    refine ⟨_, exec_vget .., ?_⟩
    split
    · exact .error (admits _)
    · refine .bind (fun h _ => admits h) fun _ _ => .bind (fun h _ => admits h) fun _ _ => .bind (fun h _ => admits h) fun _ _ =>
        .bind (fun h _ => admits h) fun _ _ => ?_
      dsimp only
      split_ifs
      · exact .ok (State.arrayKeeps_putScalNext undisturbed _)
      · exact .ok (State.arrayKeeps_putScalNext undisturbed _)
      · split
        · exact .error (admits _)
        · exact .ok (State.arrayKeeps_putScalNext_setCur undisturbed (c := s.cur.takeHeads _) rfl rfl rfl _)
  | _ => cases setting

theorem entrylessWord_fits (i : Instr) (d : BitVec 5) (word : arrayDest i = some d) (entryless : isEntryWord i = false) :
    ∃ plan, exec i s = runWord i s plan ∧ s.Fits (s.arrayKeeps d) (plan s) := by
  have family := arrayDest_families i
  rw [word, entryless, Option.isNone_some, Bool.false_or, Bool.or_false, Bool.or_eq_true] at family
  rcases family with rows | setting
  · obtain ⟨op, e, a, b, sub, x, runs⟩ := exec_rowWord i rows s
    exact ⟨_, runs, fits_planVector undisturbed quiet op a b sub x e⟩
  · exact settingWord_fits undisturbed quiet i d word setting

end Families

end Sys2Proof.Machine
end

section
/-!
PROOFS. The reading of the format table entry (R138, R154, R164, R270): it may ask another node, and fills translation caches; no byte of memory and no other
core changes.
-/

namespace Sys2Proof.Machine

/-- A core but for the reads it has asked of other nodes and its translation caches. -/
def Core.unasked (c : Core) : Core := { c with remoteReads := [], nextId := 0, recCache := .empty, ruCache := .empty }

/-- What asking other nodes and caching translations leave: the focus, every byte, the other cores, and the focused core but for its asked reads and caches. -/
structure State.Asks (s t : State) : Prop where
  core : t.core = s.core
  cluster : t.cluster = s.cluster
  mem : t.mem = s.mem
  homeByte : ∀ a, t.homeByte a = s.homeByte a
  others : ∀ n, n ≠ s.core → t.coreAt n = s.coreAt n
  own : t.cur.unasked = s.cur.unasked

section Asks

variable {s t u : State}

theorem State.Asks.refl (s : State) : s.Asks s := ⟨rfl, rfl, rfl, fun _ => rfl, fun _ _ => rfl, rfl⟩

theorem State.Asks.trans (h : s.Asks t) (h' : t.Asks u) : s.Asks u where
  core := h'.core.trans h.core
  cluster := h'.cluster.trans h.cluster
  mem := h'.mem.trans h.mem
  homeByte a := (h'.homeByte a).trans (h.homeByte a)
  others n other := (h'.others n (by rw [h.core]; exact other)).trans (h.others n other)
  own := h'.own.trans h.own

theorem State.asks_foldl {α : Type} {f : State → α → State} {n : Nat} (h : ∀ (t : State) x, t.core = n → t.Asks (f t x)) (xs : List α)
    (focus : s.core = n) : s.Asks (xs.foldl f s) := by
  induction xs generalizing s with
  | nil => exact .refl s
  | cons x xs ih => exact (h s x focus).trans (ih ((h s x focus).core.trans focus))

variable (s)

theorem State.asks_setCoreAt {n : Nat} {c : Core} (focus : s.core = n) (own : c.unasked = s.cur.unasked) : s.Asks (s.setCoreAt n c) := by
  subst focus
  exact ⟨rfl, rfl, rfl, fun _ => rfl, fun _ other => s.coreAt_setCoreAt_ne other c, by rw [← own]; exact congrArg _ (s.coreAt_setCoreAt _ c)⟩

theorem State.asks_setPdc (k : Nat) (x : Pdc) : s.Asks (s.setPdc k x) := ⟨rfl, rfl, rfl, fun _ => rfl, fun _ _ => rfl, rfl⟩

theorem State.asks_takeSlot (p : Nat) (old : Bool) : s.Asks (s.takeSlot p old) := by
  unfold State.takeSlot
  split
  · exact ⟨rfl, rfl, rfl, fun _ => rfl, fun _ _ => rfl, rfl⟩
  · exact .refl s

/-- A slice's caches redirect nothing (R168). -/
theorem State.asks_setSlice {n : Nat} {x : Slice} (locks : x.locks = (s.slice n).locks) : s.Asks (s.setSlice n x) := by
  have same (m : Nat) : ((s.setSlice n x).slice m).locks = (s.slice m).locks := by
    by_cases e : m = n
    · rw [e, State.slice, State.setSlice, Tab.get_put, locks]
    · exact congrArg Slice.locks (Tab.get_put_ne _ _ e _)
  refine ⟨rfl, rfl, rfl, fun a => ?_, fun _ _ => rfl, rfl⟩
  have lock : (s.setSlice n x).lockOn a = s.lockOn a := by rw [State.lockOn, same]; rfl
  rw [State.homeByte, State.redirect, lock]
  rfl

/-- A packet on its way, or waiting at the source, changes the transport alone (R273, R281). -/
theorem State.asks_launchPacket (k : Nat) (o : OutPacket) : s.Asks (s.launchPacket k o) := by
  unfold State.launchPacket
  dsimp only
  split
  · split
    · exact s.asks_setPdc ..
    · have queued (t : State) (q : List Packet) : t.Asks { t with outbox := q } := ⟨rfl, rfl, rfl, fun _ => rfl, fun _ _ => rfl, rfl⟩
      exact ((s.asks_setPdc ..).trans (State.asks_takeSlot ..)).trans (queued _ _)
  · exact s.asks_setPdc ..

theorem State.asks_transmit {node ent : Nat} {p : Packet} {owner : Nat} {isCommand : Bool} {core : Nat} {psn : BitVec 32}
    (sent : s.transmit node ent p owner isCommand core = .ok t psn) : s.Asks t := by
  unfold State.transmit State.transmitBy at sent
  split at sent
  · dsimp only at sent
    split at sent
    · cases sent
    · split at sent
      · cases sent
      · cases sent
        exact (s.asks_setPdc ..).trans (State.asks_launchPacket ..)
  · cases sent

section Own

variable {n : Nat} (focus : s.core = n)
include focus

theorem State.asks_dropAsks (who : Nat) : s.Asks (s.dropAsks n who) := by
  subst focus
  exact s.asks_setCoreAt rfl rfl

theorem State.asks_addAsk (who : Nat) (h : BitVec 32) (node off len : Nat) : s.Asks (s.addAsk n who h node off len) := by
  subst focus
  exact s.asks_setCoreAt rfl rfl

/-- The request of a remote read (R270). -/
theorem State.asks_sendAsk (e : RemoteRead) : s.Asks (s.sendAsk n e) := by
  subst focus
  unfold State.sendAsk
  split
  case h_1 u _ sent =>
    have asks := s.asks_transmit sent
    refine asks.trans (u.asks_setCoreAt asks.core ?_)
    rw [← asks.core]
    rfl
  case h_2 => exact .refl s
  case h_3 => exact s.asks_setCoreAt rfl rfl

theorem State.asks_askAll (who : Nat) (h : BitVec 32) (ps : List Part) (gs : List (Nat × Nat)) : s.Asks (s.askAll n who h ps gs) := by
  induction gs generalizing s with
  | nil => exact .refl s
  | cons g gs ih =>
    rw [State.askAll]
    split
    · exact ih s focus
    · have asks := s.asks_addAsk focus who h g.1 (remoteSpan g ps).1 (remoteSpan g ps).2
      exact asks.trans (ih _ (asks.core.trans focus))

theorem State.asks_sendAsks (es : List ((Nat × Nat) × RemoteRead)) : s.Asks (es.foldl (fun t e => t.sendAsk n e.2) s) :=
  State.asks_foldl (fun t e focus => t.asks_sendAsk focus e.2) es focus

/-- What has come of the remote reads of an access, or has been asked for (R154, R270). -/
theorem State.asks_peekRemote {who : Nat} {h : BitVec 32} {acc : Nat} {cs : List (List Int)} {ps vs : List Part}
    (peek : s.peekRemote n who h acc cs ps = .asking t ∨ s.peekRemote n who h acc cs ps = .ok t vs) : s.Asks t := by
  have asks := s.asks_askAll focus who h ps (ps.filterMap Part.group).eraseDups
  simp only [State.peekRemote] at peek
  generalize s.askAll n who h ps (ps.filterMap Part.group).eraseDups = u at asks peek
  have sends := u.asks_sendAsks (asks.core.trans focus)
  split at peek
  · rcases peek with peek | peek
    · cases peek
    · cases peek; exact .refl s
  · split at peek
    · rcases peek with peek | peek
      · cases peek
      · cases peek
    · split at peek
      · rcases peek with peek | peek
        · cases peek
        · cases peek; exact asks
      · rcases peek with peek | peek
        · rw [← Fetched.asking.inj peek]
          exact asks.trans (sends _)
        · cases peek

theorem State.asks_fetchRemote {who : Nat} {h : BitVec 32} {acc : Nat} {cs : List (List Int)} {ps vs : List Part}
    (fetched : s.fetchRemote n who h acc cs ps = .asking t ∨ s.fetchRemote n who h acc cs ps = .ok t vs) : s.Asks t := by
  unfold State.fetchRemote at fetched
  split at fetched
  case h_1 u ws found =>
    rcases fetched with fetched | fetched
    · cases fetched
    · cases fetched
      have asks := s.asks_peekRemote focus (.inr found)
      exact asks.trans (u.asks_dropAsks (asks.core.trans focus) who)
  case h_2 => exact s.asks_peekRemote focus fetched

omit focus in
/-- Room made among a slice's translations frees no lock. -/
theorem Slice.locks_room (x : Slice) (pick : Nat) : (x.room pick).locks = x.locks := by
  unfold Slice.room
  dsimp only
  split
  · rfl
  · split
    · rfl
    · rfl
    · rfl

/-- A translation put in a core's cache. -/
theorem State.asks_cached {v : Viewer} (viewer : v.core = n) {c : Core} (own : c.unasked = (s.coreAt n).unasked) :
    s.Asks (if v.isCore then s.setCoreAt v.core c else s) := by
  subst focus
  split
  · exact s.asks_setCoreAt viewer.symm own
  · exact .refl s

theorem State.asks_cacheEntry {v : Viewer} (viewer : v.core = n) (a : Nat) : s.Asks (s.cacheEntry v a) := by
  unfold State.cacheEntry
  refine (s.asks_setSlice ?locks).trans (State.asks_cached _ ?focus viewer ?own)
  case locks => exact Slice.locks_room ..
  case focus => exact focus
  case own => subst viewer; rfl

/-- A handle's record and residency entries put in the caches (R164). -/
theorem State.asks_cacheUse {v : Viewer} (viewer : v.core = n) (h : BitVec 32) (ps : List Part) : s.Asks (s.cacheUse v h ps) := by
  have entries := s.asks_foldl (f := fun t a => t.cacheEntry v a) (fun t a focus => t.asks_cacheEntry focus viewer a)
    (ps.filterMap Part.ru).eraseDups focus
  unfold State.cacheUse
  dsimp only
  generalize (ps.filterMap Part.ru).eraseDups.foldl _ s = u at entries
  split
  · exact entries
  · refine (entries.trans (u.asks_setSlice ?locks)).trans (State.asks_cached _ ?focus viewer ?own)
    case locks => exact Slice.locks_room ..
    case focus => exact entries.core.trans focus
    case own => subst viewer; rfl

end Own

end Asks

end Sys2Proof.Machine
end

section
/-!
PROOFS. MMUL and MDRAIN, which read an entry of the format table (R425, R427), and the frame of all words of clusters V and M.
-/

namespace Sys2Proof.Machine

section Asked

variable {s t : State} (asks : s.Asks t)
include asks

/-- Asking other nodes leaves what decides how a word goes on: the focused cluster, and whether the core runs and records. -/
theorem State.Asks.cl : t.cl = s.cl := by
  have clusters : t.cur.clusters = s.cur.clusters := (congrArg Core.clusters asks.own :)
  rw [State.cl, Core.cl, clusters, asks.cluster]
  rfl

theorem State.Asks.undisturbed (undisturbed : s.undisturbed = true) : t.undisturbed = true := by
  have busy : t.cur.busy = s.cur.busy := (congrArg Core.busy asks.own :)
  have stop : t.cur.stop = s.cur.stop := (congrArg Core.stop asks.own :)
  have save : t.cur.save = s.cur.save := (congrArg Core.save asks.own :)
  have halting : t.cur.halting = s.cur.halting := (congrArg Core.halting asks.own :)
  rw [State.undisturbed, busy, stop, save, halting, asks.cl]
  exact undisturbed

end Asked

/-- What a word of clusters V and M may do: nothing; or its reading of a format table entry, and then a change of its own core. -/
def State.ArrayActs (s : State) (d : BitVec 5) (u : State) : Prop := u = s ∨ ∃ t, s.Asks t ∧ t.arrayKeeps d u

section Entry

variable {s : State} (quiet : s.cur.dctl.getLsbD 3 = false)
include quiet

/-- A core whose WATCH records are off records no strike (R341). -/
theorem State.watchRecord_quiet (write precise : Bool) (ps : List Part) : s.watchRecord write precise ps = s := by
  unfold State.watchRecord State.logStrikes
  generalize s.strikes write ps = l
  have off (a agent : Nat) : s.logWatch s.core a agent precise write = s :=
    if_neg (by rw [show (s.coreAt s.core).dctl.getLsbD 3 = false from quiet]; decide)
  induction l with
  | nil => rfl
  | cons a l ih => rw [List.foldl_cons, off]; exact ih

/-- The entry is asked for and waited for, or it is read and the word goes on; nothing else has changed (R138, R154). -/
theorem State.fits_withEntry {Q : State → Prop} (index who : Nat) (waits : State → State) (goOn : State → BitVec 128 → Except Hold State)
    (waiting : ∀ t, s.Asks t → Q (waits t)) (goes : ∀ t bits, s.Asks t → s.Fits Q (goOn t bits)) :
    s.Fits Q (s.withEntry index who waits goOn) := by
  refine .bind (fun e _ => State.admits_quiet quiet e) fun place _ => ?_
  obtain ⟨h, off, ps⟩ := place
  dsimp only
  split
  case h_1 t fetched => exact .ok (waiting t (s.asks_fetchRemote (vs := []) rfl (.inl fetched)))
  case h_2 => exact .error (State.admits_quiet quiet _)
  case h_3 t vs fetched =>
    have asks := s.asks_fetchRemote rfl (.inr fetched)
    have still : t.cur.dctl = s.cur.dctl := (congrArg Core.dctl asks.own :)
    rw [State.watchRecord_quiet (by rw [still]; exact quiet)]
    exact goes _ _ (asks.trans (t.asks_cacheUse rfl rfl h ps))

end Entry

section Issue

variable {s : State} {d : BitVec 5} (undisturbed : s.undisturbed = true)
include undisturbed

/-- The wait for an entry of another node. -/
theorem State.arrayActs_waited {t : State} (asks : s.Asks t) (kind : Nat) (obj : DWord) : s.ArrayActs d (t.waited kind obj) :=
  .inr ⟨t, asks, State.keepsTo_waited (asks.undisturbed undisturbed) kind obj⟩

/-- An operation taken into an array. -/
theorem State.arrayActs_setArray {t : State} (asks : s.Asks t) (y : Bool) (a : ArrayState) {c : Core}
    (rest : c.sparingArrays = t.cur.sparingArrays) (scal : c.scal = t.cur.scal) (clusters : c.clusters = t.cur.clusters) :
    s.ArrayActs d ((t.setCur c).setArray y a).retire := by
  refine .inr ⟨t, asks, ?_⟩
  rw [State.setArray, State.cur_setCur, State.setCur_setCur]
  cases y
  · exact State.arrayKeeps_retire (asks.undisturbed undisturbed) rest scal clusters
  · exact State.arrayKeeps_retire (asks.undisturbed undisturbed) rest scal clusters

omit undisturbed in
/-- The first operation into an accumulator changes what is recorded of it (R226). -/
theorem Core.openAcc_records (c : Core) (n : Nat) (ak : Bool) (ta tb : Nat) : ∃ a m, c.openAcc n ak ta tb = { c with accs := a, mstat := m } := by
  unfold Core.openAcc
  split
  · exact ⟨_, _, rfl⟩
  · exact ⟨_, _, rfl⟩

/-- What an MMUL or MDRAIN may do where it does not stop its task. -/
abbrev State.ArrayActsGoing (s : State) (d : BitVec 5) (u : State) : Prop := u.cur.stop = none → s.ArrayActs d u

/-- The entry's UNCORR stops the task, or comes too late (R428). -/
theorem State.fits_preciseError {x : Except Hold State} (fits : s.Fits (s.ArrayActsGoing d) x) : s.Fits (s.ArrayActsGoing d) (s.preciseError x) := by
  unfold State.preciseError
  split
  · split
    · exact .ok fun going => .inl (State.uncorrectableAt_none undisturbed going)
    · exact .error (s.admits_trap _)
  · exact fits

variable (quiet : s.cur.dctl.getLsbD 3 = false)
include quiet

/-- MMUL (R427). -/
theorem exec_mmul_fits (y : Bool) : ∃ plan, exec (.mmul y) s = runWord (.mmul y) s plan ∧ s.Fits (s.ArrayActsGoing d) (plan s) := by
  have admits (e : Hold) : s.Admits e := State.admits_quiet quiet e
  refine ⟨_, exec_mmul .., ?_⟩
  dsimp only
  split
  · exact .error (admits _)
  · split
    · exact .error (admits _)
    · refine .bind (fun e _ => admits e) fun _ _ => State.fits_preciseError undisturbed (State.fits_withEntry quiet _ _ _ _
        (fun t asks _ => State.arrayActs_waited undisturbed asks 0 0) fun t bits asks => .bind (fun e _ => admits e) fun e _ => .ok fun _ => ?_)
      obtain ⟨a, m, opened⟩ := t.cur.openAcc_records (s.cur.array y).regs.accumulator e.ak
        (stepField (s.cur.array y).regs.ma 224 32) (stepField (s.cur.array y).regs.mb 224 32)
      rw [opened]
      exact State.arrayActs_setArray undisturbed asks y _ rfl rfl rfl

/-- MDRAIN (R425). -/
theorem exec_mdrain_fits (y : Bool) : ∃ plan, exec (.mdrain y) s = runWord (.mdrain y) s plan ∧ s.Fits (s.ArrayActsGoing d) (plan s) := by
  have admits (e : Hold) : s.Admits e := State.admits_quiet quiet e
  refine ⟨_, exec_mdrain .., ?_⟩
  dsimp only
  split
  · exact .error (admits _)
  · split
    · exact .error (admits _)
    · exact State.fits_withEntry quiet _ _ _ _ (fun t asks _ => State.arrayActs_waited undisturbed asks 0 0) fun t bits asks =>
        .bind (fun e _ => admits e) fun _ _ => .ok fun _ => State.arrayActs_setArray undisturbed asks y _ rfl rfl rfl

end Issue

section Frame

variable {s t : State} {i : Instr} {d : BitVec 5} (undisturbed : s.undisturbed = true) (quiet : s.cur.dctl.getLsbD 3 = false)
  (run : exec i s = .next t) (going : t.cur.stop = none)
include undisturbed quiet run going

/-- A word that reads no entry of the format table changes nothing, or its own core within the frame. -/
theorem entrylessWord_keeps (word : arrayDest i = some d) (entryless : isEntryWord i = false) : t = s ∨ s.arrayKeeps d t := by
  obtain ⟨plan, runs, fits⟩ := entrylessWord_fits undisturbed quiet i d word entryless
  rcases runWord_outcome undisturbed fits (runs.symm.trans run) going with keeps | same | ⟨kind, obj, rfl⟩
  · exact .inr keeps
  · exact .inl same
  · exact .inr (State.keepsTo_waited undisturbed kind obj)

theorem entryWord_acts (entry : isEntryWord i = true) : s.ArrayActs d t := by
  have fits : ∃ plan, exec i s = runWord i s plan ∧ s.Fits (s.ArrayActsGoing d) (plan s) := by
    cases i with
    | mmul y => exact exec_mmul_fits undisturbed quiet y
    | mdrain y => exact exec_mdrain_fits undisturbed quiet y
    | _ => cases entry
  obtain ⟨plan, runs, fits⟩ := fits
  rcases runWord_outcome undisturbed fits (runs.symm.trans run) going with acts | same | ⟨kind, obj, rfl⟩
  · exact acts going
  · exact .inl same
  · exact State.arrayActs_waited undisturbed (.refl s) kind obj

end Frame

/-- What every word of clusters V and M leaves. -/
def State.ArrayFrame (s : State) (d : BitVec 5) (t : State) : Prop :=
  t.mem = s.mem ∧ (∀ a, t.homeByte a = s.homeByte a) ∧ (∀ n, n ≠ s.core → t.coreAt n = s.coreAt n) ∧
  (∀ k, k ≠ s.cluster → t.cur.cl k = s.cur.cl k) ∧ (∀ r, r ≠ d ∨ r = 0 → t.cur.reg r = s.cur.reg r) ∧
  t.cur.scratch = s.cur.scratch ∧ t.cur.version = s.cur.version ∧ t.cur.accesses = s.cur.accesses ∧ t.cur.spawn = s.cur.spawn ∧
  t.cur.commands = s.cur.commands ∧ t.cur.barriers = s.cur.barriers ∧ t.cur.trapc = s.cur.trapc ∧ t.cur.trapv = s.cur.trapv ∧
  t.cl.femode = s.cl.femode ∧ (s.atLoopEnd = false → t.cl.pred = s.cl.pred)

theorem State.ArrayFrame.refl (s : State) (d : BitVec 5) : s.ArrayFrame d s :=
  ⟨rfl, fun _ => rfl, fun _ _ => rfl, fun _ _ => rfl, fun _ _ => rfl, rfl, rfl, rfl, rfl, rfl, rfl, rfl, rfl, rfl, fun _ => rfl⟩

theorem State.ArrayActs.frame {s u : State} {d : BitVec 5} (acts : s.ArrayActs d u) : s.ArrayFrame d u := by
  rcases acts with rfl | ⟨t, asks, c, keeps, rfl⟩
  case inl => exact .refl u d
  case inr =>
    have unseen : c.sparingArrays = s.cur.sparingArrays := keeps.rest.trans (congrArg Core.sparingArrays asks.own :)
    have clusters : t.cur.clusters = s.cur.clusters := (congrArg Core.clusters asks.own :)
    have scal : t.cur.scal = s.cur.scal := (congrArg Core.scal asks.own :)
    have cl (k : Cluster) : t.cur.cl k = s.cur.cl k := by rw [Core.cl, clusters]; rfl
    have reg (r : BitVec 5) : t.cur.reg r = s.cur.reg r := by rw [Core.reg, scal]; rfl
    have focus : s.cl = t.cur.cl t.cluster := asks.cl.symm
    have ends : s.atLoopEnd = t.atLoopEnd := by rw [State.atLoopEnd, State.atLoopEnd, asks.cl]
    rw [State.ArrayFrame, State.cur_setCur, State.cl_setCur, focus, ends]
    refine ⟨asks.mem, asks.homeByte, fun n other => ?_, fun k other => ?_, fun r other => (keeps.regs r other).trans (reg r),
      (congrArg Core.scratch unseen :), (congrArg Core.version unseen :), (congrArg Core.accesses unseen :), (congrArg Core.spawn unseen :),
      (congrArg Core.commands unseen :), (congrArg Core.barriers unseen :), (congrArg Core.trapc unseen :), (congrArg Core.trapv unseen :),
      keeps.femode, keeps.pred⟩
    · exact (t.coreAt_setCur_ne (by rw [asks.core]; exact other) c).trans (asks.others n other)
    · exact (keeps.clusters k (by rw [asks.cluster]; exact other)).trans (cl k)

end Sys2Proof.Machine
end

section
namespace Sys2Proof.Machine

/-- Settles O58: the entry words by what they may ask and cache, the others by a change of their core alone. -/
theorem arrayWordsFrame : Obligations.ArrayWordsFrame := by
  intro s t i d word undisturbed quiet run going
  by_cases entry : isEntryWord i = true
  case pos =>
    refine ⟨fun entryless => ?_, (entryWord_acts undisturbed quiet run going entry).frame⟩
    cases i with
    | mmul y => exact absurd rfl (entryless y).1
    | mdrain y => exact absurd rfl (entryless y).2
    | _ => cases entry
  case neg =>
    have keeps := entrylessWord_keeps undisturbed quiet run going word (Bool.not_eq_true _ ▸ entry)
    have acts : s.ArrayActs d t := keeps.imp id fun keeps => ⟨s, .refl s, keeps⟩
    refine ⟨fun _ => ?_, acts.frame⟩
    rcases keeps with rfl | ⟨c, _, rfl⟩
    · rfl
    · rfl

end Sys2Proof.Machine
end
